-- ==== Sys2Proof/Word.lean ====
section
/-! DEFINITION. The word types of the 4810: bytes, samples, frame counts, serials. -/

namespace Sys2Proof

/-- One byte of the host line. -/
abbrev Byte := BitVec 8
/-- One 24-bit two's-complement audio sample (R7, 5.1). -/
abbrev Sample := BitVec 24
/-- A frame count, 0 to 2^32-1, wrapping (R2). -/
abbrev FrameNo := BitVec 32
/-- A loop epoch, 0 to 65535, wrapping (R3). -/
abbrev Epoch := BitVec 16
/-- An allotment, grant or map serial, 0 to 65535, wrapping (R58, R75, R135). -/
abbrev Serial := BitVec 16
/-- A gain serial, 0 to 255, wrapping (R110). -/
abbrev GainSerial := BitVec 8
/-- A message number, 0 to 65535, wrapping (R11). -/
abbrev MsgNo := BitVec 16
/-- A nanosecond time modulo 2^32 (R34). -/
abbrev Nanos := BitVec 32
/-- A node id, 0 to 7. -/
abbrev NodeId := Fin 8

end Sys2Proof
end

