-- ==== Sys2Proof/Config.lean ====
section
/-! DEFINITION. What the spec fixes as numbers, and the model's free values. -/

namespace Sys2Proof.Config

/-- FREE VALUE (log entry 11). Whether a value exactly half way between two integers is rounded up.
The spec says "rounded to the nearest" (R22, R34, R106, R151) and names no side for a tie.
The argument is the integer just below the tie, so the side may differ from value to value. -/
opaque tieUp : Int → Bool

/-- The outgoing queue's size (R14). -/
abbrev queueMax : Nat := 16
/-- The number of messages at which a host request is answered BUSY (R14). -/
abbrev queueHost : Nat := 12
/-- The sends after which an unconfirmed item is dropped (R13). -/
abbrev sendMax : Nat := 4
/-- The notice queue's size (R185). -/
abbrev noticeMax : Nat := 32
/-- The request inbox's size (R181). -/
abbrev inboxMax : Nat := 4
/-- The places of the operation table, and of the ended list (R183, R184). -/
abbrev opMax : Nat := 8
/-- The longest Control Port body (11.7). -/
abbrev bodyMax : Nat := 250
/-- A count that stops at its top stops here (R20, R168). -/
abbrev countTop : Nat := 4294967295
/-- The model's time unit is 1/96 ms: one frame period in 96k mode, half a one in 48k mode (log entry 3). -/
abbrev ticksPerMs : Nat := 96
/-- Alignment run (R25). -/
abbrev alignFrames : Nat := 8
/-- Consecutive bad frames that lose alignment (R25). -/
abbrev badFrames : Nat := 16
/-- Agreement run (R28). -/
abbrev joinFrames : Nat := 3
/-- Hear-you-clear run (R31). -/
abbrev clearFrames : Nat := 48
/-- Origin timeout (R51). -/
abbrev originFrames : Nat := 48
/-- Offer timer, ms (R26). -/
abbrev offerMs : Nat := 500
/-- Relock timer, ms (R35). -/
abbrev relockMs : Nat := 2000
/-- Error window, ms (R33). -/
abbrev windowMs : Nat := 100
/-- Answer timer of an operation and of a key, ms (R134, R183). -/
abbrev answerMs : Nat := 500
/-- Currency retry timer, ms (R92). -/
abbrev retryMs : Nat := 1000
/-- GO timeout, ms (R177). -/
abbrev goMs : Nat := 5000

end Sys2Proof.Config
end

