-- ==== Sys2Proof/Syntax.lean ====
section
/-! DEFINITION. The commands of the block: one constructor of `Instr` per row of the opcode table, and
the data their operands are made of (frames, loop messages, request fields). -/

namespace Sys2Proof

/-- The optical ports. -/
inductive PortId | a | b
  deriving DecidableEq, Repr

/-- What SET_THRESHOLDS may name (R23). -/
inductive PortSel | a | b | both
  deriving DecidableEq, Repr

/-- The rate modes (R1). -/
inductive Rate | k48 | k96
  deriving DecidableEq, Repr

/-- The function of a node (FUNC strap). -/
inductive Func | stage | desk
  deriving DecidableEq, Repr

/-- The configured roles. -/
inductive Role | master | deputy | member
  deriving DecidableEq, Repr

/-- The ranks of an origin (R3). -/
inductive Rank | master | deputy
  deriving DecidableEq, Repr

/-- The directions of a hop list entry (R3). -/
inductive Direction | forward | ret
  deriving DecidableEq, Repr

/-- The talk buses. -/
inductive Bus | tb1 | tb2 | tb3 | tb4
  deriving DecidableEq, Repr

/-- A set of talk buses (a tap's listen set, R97). -/
structure BusSet where
  tb1 : Bool
  tb2 : Bool
  tb3 : Bool
  tb4 : Bool
  deriving DecidableEq, Repr

/-- The twelve keys (R128). -/
inductive KeyName | k0 | k1 | k2 | k3 | k4 | k5 | k6 | k7 | v0 | v1 | v2 | v3
  deriving DecidableEq, Repr

/-- Key modes (R128). -/
inductive KeyMode | auto | momentary | latch
  deriving DecidableEq, Repr

/-- Port states (R20). -/
inductive PortState | dark | seek | settle | offer | up | mismatch | drill
  deriving DecidableEq, Repr

/-- The port state field of a LINK_NOTE: the port states and REMOTE_FAULT (R54). -/
inductive LinkState | port (s : PortState) | remoteFault
  deriving DecidableEq, Repr

/-- Heal policies (R44). -/
inductive HealPolicy | auto | onCommand
  deriving DecidableEq, Repr

/-- Resume modes (R97). -/
inductive ResumeMode | auto | manual
  deriving DecidableEq, Repr

/-- Safe modes (R97). -/
inductive SafeMode | mute | fallback (input : Nat)
  deriving DecidableEq, Repr

/-- Tap sources (R97). -/
inductive TapSource | unused | slot (n : Nat) | loc (input : Nat) | talkOnly
  deriving DecidableEq, Repr

/-- The refusal reasons, in the order of R181. -/
inductive Reason
  | locked | notMaster | notOwner | owned | taken | reserved | full | range | state | heldOnly
  | lower | noAnswer | lost | overtaken
  deriving DecidableEq, Repr

/-- OK, or one of the reasons: the outcome of an operation or of a gain request (R181, R184). -/
inductive Verdict | ok | no (r : Reason)
  deriving DecidableEq, Repr

/-- The Control Port modes (R172). -/
inductive LineMode | spi | uart
  deriving DecidableEq, Repr

/-- The tables of READ_TABLE, in the order of R187. -/
inductive TableName | allot | taps | gain | gainCache | keys | talk | map | links | operations
  deriving DecidableEq, Repr

/-- An origin group: id, rank, epoch (R43). -/
structure OriginGroup where
  id : NodeId
  rank : Rank
  epoch : Epoch
  deriving DecidableEq, Repr

/-- A link offer (R4). -/
structure Offer where
  loopName : BitVec 16
  rate : Rate
  func : Func
  role : Role
  origin : Option OriginGroup
  hearYou : Bool
  held : Bool
  sendStamp : Nanos
  echoStamp : Option Nanos
  deriving DecidableEq, Repr

/-- A link field that carries an offer: sender node id, sender port, offer (R4). -/
structure LinkField where
  sender : NodeId
  port : PortId
  offer : Offer
  deriving DecidableEq, Repr

/-- One end of a link, and the node and port at the other end (R53, R56). -/
structure Link where
  node : NodeId
  port : PortId
  farNode : NodeId
  farPort : PortId
  deriving DecidableEq, Repr

/-- The state of an allotment entry (R74). -/
inductive SlotState | free | assigned | talk
  deriving DecidableEq, Repr

/-- One allotment entry (R74). -/
structure SlotEntry where
  state : SlotState
  writer : Option NodeId
  input : Option Nat
  serial : Option Serial
  deriving DecidableEq, Repr

/-- One change of an ALLOT: the slot and its new writer node and input, or none (R19). -/
structure SlotChange where
  slot : Nat
  writer : Option (NodeId × Nat)
  deriving DecidableEq, Repr

/-- One pair of CLAIM_SLOT: a slot, or ANY (none), and a local input (R80). -/
structure ClaimPair where
  slot : Option Nat
  input : Nat
  deriving DecidableEq, Repr

/-- The result of one pair: the slot granted or released, or the refusal (R82 to R84). -/
inductive PairResult | slot (n : Nat) | refused (r : Reason)
  deriving DecidableEq, Repr

/-- A preamp setting: gain, pad, phantom, owner (R110). -/
structure GainSetting where
  gain : Nat
  pad : Bool
  phantom : Bool
  owner : Option NodeId
  deriving DecidableEq, Repr

/-- One map entry as published: function and role are absent when UNKNOWN (R58, R59). -/
structure MapEntry where
  id : NodeId
  func : Option Func
  role : Option Role
  pos : Option Nat
  dir : Option Direction
  deriving DecidableEq, Repr

/-- A talker: node and key (R128). -/
structure Talker where
  node : NodeId
  key : KeyName
  deriving DecidableEq, Repr

/-- Why a talk claim was refused (R136). -/
inductive TalkReason | lower | full
  deriving DecidableEq, Repr

/-- A loop message's kind with its body (R19), the switch frame apart. -/
inductive LoopMsg
  | map (serial : Serial) (entries : List MapEntry)
  | allot (serial : Serial) (changes : List SlotChange)
  | snap (serial : Serial) (piece : Nat) (entries : List SlotEntry)
  | snapReq (last : Option Serial)
  | slotClaim (tag : Byte) (pairs : List ClaimPair)
  | slotRelease (tag : Byte) (slots : List Nat)
  | slotAnswer (tag : Byte) (results : List PairResult)
  | gainSet (tag : Byte) (input : Nat) (gain : Option Nat) (pad : Option Nat) (phantom : Option Nat)
  | gainClaim (tag : Byte) (input : Nat) (force : Bool)
  | gainYield (tag : Byte) (input : Nat)
  | gainAnswer (tag : Byte) (outcome : Verdict)
  | gainNote (input : Nat) (setting : GainSetting) (serial : GainSerial)
  | gainSnap (piece : Nat) (entries : List (GainSetting × GainSerial))
  | talkClaim (bus : Bus) (key : KeyName) (priority : Nat)
  | talkRelease (bus : Bus) (key : KeyName)
  | talkGrant (bus : Bus) (talker : Option Talker) (serial : Serial) (depth : Nat)
  | talkRefuse (bus : Bus) (node : NodeId) (key : KeyName) (reason : TalkReason)
  | linkNote (port : PortId) (state : LinkState) (marginal : Bool) (partner : Option NodeId)
      (origin : Option OriginGroup)
  | wrapPlan (link : Link)
  | unwrapPlan (link : Link)
  | restart (epoch : Epoch)
  | lockNote (level : Nat)
  deriving DecidableEq, Repr

/-- A loop message as a service cell holds it (R11); `dest` is absent for ALL, `switch` present for a
switch-bearing kind (1.8). -/
structure Message where
  dest : Option NodeId
  num : MsgNo
  body : LoopMsg
  switch : Option FrameNo
  deriving DecidableEq, Repr

/-- One hop list entry (R3). -/
structure Hop where
  id : NodeId
  dir : Direction
  deriving DecidableEq, Repr

/-- A frame header (R3, R6). The visited set is the list of the ids in it, in the order they joined. -/
structure Header where
  count : FrameNo
  origin : OriginGroup
  loopName : BitVec 16
  rate : Rate
  lock : Nat
  visited : List NodeId
  hops : List Hop
  deriving DecidableEq, Repr

/-- A frame: a loop frame has a slot area, a standby frame has none (R2, R6). A blank link field is
`none` (R29). -/
structure Frame where
  header : Header
  link : Option LinkField
  cells : List (Option Message)
  slots : Option (List Sample)
  deriving DecidableEq, Repr

/-- A frame as it arrives at a port: its contents, the frame check received with it, and the port's
nanosecond time at the arrival. Any frame that fails its check is some contents with a check that is not
theirs (R5, R34). -/
structure Arrival where
  frame : Frame
  check : BitVec 32
  now : Nanos
  deriving DecidableEq, Repr

/-- The strap levels at a release (R172); `role` is absent for the fourth combination of ROLE0-ROLE1,
`holdn` is the level of HOLDN (false is low, which holds). -/
structure Straps where
  nid : NodeId
  func : Func
  role : Option Role
  portsel : LineMode
  holdn : Bool
  deriving DecidableEq, Repr

/-- What a frame period brings from outside: the input lanes' samples by local input number (R95), the
nanosecond time at the boundary (R34), the level of HOLDN. -/
structure PeriodInput where
  lanes : List Sample
  now : Nanos
  holdn : Bool
  deriving DecidableEq, Repr

/-- SET_THRESHOLDS fields: dBm and dB in steps of 0.1, settle time in ms (R23). -/
structure ThresholdFields where
  loss : Option Int
  marginal : Option Int
  hyst : Option Int
  settle : Option Nat
  deriving DecidableEq, Repr

/-- SET_RECOVERY fields: heal delay in steps of 0.1 s, takeover delay in ms (R44). -/
structure RecoveryFields where
  policy : Option HealPolicy
  healDelay : Option Nat
  takeover : Option Nat
  preempt : Option Bool
  deriving DecidableEq, Repr

/-- What HEAL names: ANY, or one end of a link (R70). -/
inductive HealTarget | any | linkEnd (node : Nat) (port : PortId)
  deriving DecidableEq, Repr

/-- SET_TAP fields (R98). -/
structure TapFields where
  source : Option TapSource
  tracking : Option Bool
  trim : Option Int
  listen : Option BusSet
  dim : Option Bool
  dimDepth : Option Int
  safe : Option SafeMode
  resume : Option ResumeMode
  fade : Option Nat
  panicFollow : Option Bool
  deriving DecidableEq, Repr

/-- SET_GAIN fields (R112, R113). -/
structure GainFields where
  gain : Option Nat
  pad : Option Bool
  phantom : Option Bool
  deriving DecidableEq, Repr

/-- SET_KEY fields (R129); times in ms. -/
structure KeyFields where
  enabled : Option Bool
  bus : Option Bus
  source : Option Nat
  priority : Option Nat
  mode : Option KeyMode
  settle : Option Nat
  tap : Option Nat
  deriving DecidableEq, Repr

/-- A list of outputs, or ALL (R153, R158). -/
inductive OutputSel | all | list (outs : List Nat)
  deriving DecidableEq, Repr

/-- The commands: one constructor per row of spec/opcode_table.json. A host request's first operand is
its tag; the rows that single out one frame's consequence carry that frame's arrival (log entry 4). -/
inductive Instr
  | status (tag : Byte)
  | readTable (tag : Byte) (table : TableName) (cursor : Nat)
  | readPort (tag : Byte) (port : PortId)
  | setNode (tag : Byte) (id : Option Nat) (func : Option Func) (role : Option Role)
  | setRate (tag : Byte) (rate : Rate)
  | setLoopName (tag : Byte) (name : Nat)
  | go (tag : Byte)
  | resetPart (tag : Byte)
  | setThresholds (tag : Byte) (ports : PortSel) (f : ThresholdFields)
  | drill (tag : Byte) (port : PortId) (ms : Nat)
  | setRecovery (tag : Byte) (f : RecoveryFields)
  | setSwitchLead (tag : Byte) (frames : Nat)
  | heal (tag : Byte) (target : HealTarget)
  | loopReset (tag : Byte)
  | claimSlot (tag : Byte) (pairs : List ClaimPair)
  | releaseSlot (tag : Byte) (slots : List Nat) (force : Bool)
  | setTap (tag : Byte) (tap : Nat) (f : TapFields)
  | setTrackRef (tag : Byte) (tap : Nat) (gain : Nat)
  | setGain (tag : Byte) (node : Option Nat) (input : Nat) (f : GainFields) (force : Bool)
  | claimGain (tag : Byte) (node : Nat) (input : Nat) (force : Bool)
  | yieldGain (tag : Byte) (node : Nat) (input : Nat)
  | setPhantomMute (tag : Byte) (ms : Nat)
  | setKey (tag : Byte) (key : KeyName) (f : KeyFields)
  | talkPress (tag : Byte) (key : KeyName)
  | talkLift (tag : Byte) (key : KeyName)
  | resume (tag : Byte) (outs : OutputSel)
  | forceSafe (tag : Byte) (outs : OutputSel) (on : Bool)
  | setSafety (tag : Byte) (hold : Option Nat) (filter : Option Nat)
  | setLock (tag : Byte) (level : Nat)
  | setSupervision (tag : Byte) (ms : Nat)
  | unknownRequest (tag : Byte) (kind : Byte)
  | spiSelectFall
  | spiTransactionEnd (bytes : List Byte)
  | uartFrameReceive (byte : Byte)
  | uartGapTimeout
  | uartFrameSent
  | powerReset
  | powerResetRelease (fromBelow : Bool) (straps : Straps)
  | pinReset
  | pinResetRelease (straps : Straps)
  | framePeriod (inp : PeriodInput)
  | preampRecordSend
  | lightMeasurement (port : PortId) (milliDbm : Option Int)
  | portFrameReceive (port : PortId) (arr : Arrival)
  | aligned (port : PortId) (arr : Arrival)
  | alignLost (port : PortId)
  | joined (port : PortId) (arr : Arrival)
  | remoteFaultSet (port : PortId) (arr : Arrival)
  | marginalSet (port : PortId)
  | settleTimerExpiry (port : PortId)
  | offerTimerExpiry (port : PortId)
  | relockTimerExpiry (port : PortId)
  | errorWindowEnd (port : PortId)
  | drillTimerExpiry (port : PortId)
  | mapAbsenceLimit (port : PortId) (arr : Arrival)
  | originTimeout
  | takeoverTimerExpiry
  | itemDrop
  | owedAdmit
  | snapshotStart
  | switchApply (sender : NodeId)
  | currencyRetryExpiry
  | phantomMuteExpiry (input : Nat)
  | healTimerExpiry (node : NodeId) (port : PortId)
  | restartWrite (now : Nanos)
  | restartEpochTake (now : Nanos)
  | keyInputChange (key : Fin 8) (high : Bool)
  | keySettleExpiry (key : Fin 8)
  | keyAnswerTimeout (key : KeyName)
  | panicInputChange (high : Bool)
  | panicFilterExpiry
  | fadeOutEnd (out : Nat)
  | fadeInEnd (out : Nat)
  | resumeHoldExpiry (out : Nat)
  | silenceTimerExpiry
  | operationAnswerTimeout (tag : Byte)
  | goTimeout (tag : Byte)
  | uartByteArrival (byte : Byte)
  deriving DecidableEq, Repr

end Sys2Proof
end

