-- ==== Sys2Proof/Decode.lean ====
section
/-! DEFINITION. The command a word spells by the opcode table's bits: no row of the table gives bits, so no
word spells a command. Requests that arrive as bytes are parsed by Machine/Operands.lean. -/

namespace Sys2Proof

/-- No row of the opcode table has an encoding. -/
def decodeTableWord (_nbits _w : Nat) : Option Instr := none

end Sys2Proof
end

