-- ==== Sys2Proof/Machine/State.lean ====
section
/-! DEFINITION. The state of one 4810 as plain data, block by block, and the state after reset. -/

namespace Sys2Proof.Machine

open Sys2Proof

/-- A timer: absent when stopped, else the time left in 1/96 ms (log entry 3). -/
abbrev Timer := Option Nat

/-! ### Optical ports (Section 2) -/

/-- The flags of a port (R20). -/
structure PortFlags where
  marginal : Bool
  fixed : Bool
  remoteFault : Bool
  deriving DecidableEq, Repr

/-- The six counters of a port (R20, R36). -/
structure PortCounters where
  good : Nat
  bad : Nat
  alignLosses : Nat
  relockFailures : Nat
  marginalEntries : Nat
  drills : Nat
  deriving DecidableEq, Repr

/-- The drill record (R20, R39, R40). -/
structure DrillRec where
  start : FrameNo
  ms : Nat
  wrapFrame : Option FrameNo
  tag : Byte
  deriving DecidableEq, Repr

/-- The port record (R20) with the working contents of R25 to R42; levels in steps of 0.1 dB. `lineRate` is the
rate the last good frame carried, `position` the time that has passed of the frame position it leads to expect,
`arrived` the frames seen since positions were last judged (R25). -/
structure PortRec where
  state : PortState
  flags : PortFlags
  light : Int
  partner : Option LinkField
  linkDelay : Option Nat
  counters : PortCounters
  loss : Int
  marginalAt : Int
  hyst : Int
  settleMs : Nat
  alignRun : Nat
  agreeRun : Nat
  agreeFrom : Option (NodeId × PortId)
  clearRun : Nat
  badRun : Nat
  winFrames : Nat
  winBad : Nat
  settle : Timer
  offerT : Timer
  relock : Timer
  drillT : Timer
  window : Timer
  drill : Option DrillRec
  offerSeen : Bool
  offerAgreed : Bool
  lightCond : Bool
  lightHeld : Bool
  winWholeUp : Bool
  delaySum : Nat
  delayCount : Nat
  lastGood : Option (Nanos × Nanos)
  time : Nanos
  txOn : Bool
  everUsable : Bool
  lineRate : Rate
  position : Nat
  arrived : Nat
  routed : Option Frame
  txLine : Option (Frame × BitVec 32)
  deriving DecidableEq, Repr

/-! ### Loop Engine (Sections 1 and 3) -/

/-- Loop modes (R43). The mode is derived (R45), never stored. -/
inductive LoopMode | held | seeking | closed | wrappedA | wrappedB | isolated | orphan | conflict
  deriving DecidableEq, Repr

/-- The acting origin role (R43). -/
inductive OriginRole | follower | origin
  deriving DecidableEq, Repr

/-- A wrap content (R43); a PLANNED wrap names its link: this node and port, and the far node, whose
port has the other letter (R53). The far node is absent for a FIXED join, which has no partner offer. -/
inductive Wrap | none | loss | planned (far : Option NodeId)
  deriving DecidableEq, Repr

/-- Conflict causes (R43). -/
inductive ConflictCause | duplicateId | masterMet
  deriving DecidableEq, Repr

/-- The RESTART of a loop reset: none, prepared, or written with its new epoch not yet taken (R73). -/
inductive Restart | idle | prepared (epoch : Epoch) | written (epoch : Epoch)
  deriving DecidableEq, Repr

/-- One link table entry (R55), with the readiness of R69 kept at the entry that stands for the link. -/
structure LinkEntry where
  state : Option LinkState
  marginal : Bool
  partner : Option NodeId
  group : Option OriginGroup
  wrapped : Bool
  heal : Timer
  ready : Bool
  healable : Bool
  deriving DecidableEq, Repr

/-- One entry of the origin's map (R58). -/
structure OwnMapEntry where
  id : NodeId
  func : Option Func
  role : Option Role
  pos : Nat
  dir : Direction
  absence : Nat
  deriving DecidableEq, Repr

/-- What an origin keeps of its circuits (R8): the most recent returned frame of its present epoch, the
count it originated last, whether that frame returned in time, and when it left. -/
structure OrigRec where
  returned : Option Frame
  last : Option FrameNo
  inTime : Bool
  sentAt : Nanos
  deriving DecidableEq, Repr

/-- The node's copy of the map (R60). -/
structure MapCopy where
  serial : Option Serial
  entries : List MapEntry
  deriving DecidableEq, Repr

/-- The loop record (R43, R44) and what the Loop Engine keeps beside it: `visits` is the counts of the epoch's first
visits, those the local count has left behind dropped (R2, R67; log entry 22, DEDUCED). -/
structure LoopRec where
  role : OriginRole
  group : Option OriginGroup
  following : Bool
  epoch : Epoch
  count : FrameNo
  wrapA : Wrap
  wrapB : Wrap
  timeout : Nat
  takeover : Timer
  circuit : Option Nat
  conflict : Option ConflictCause
  formerOwn : Option (Rank × Epoch)
  policy : HealPolicy
  healDelay : Nat
  takeoverMs : Nat
  preempt : Bool
  lastVisit : Option (FrameNo × Epoch)
  visits : List FrameNo
  visited : Bool
  heard : Bool
  originated : Bool
  orig : OrigRec
  ownMap : List OwnMapEntry
  mapSerial : Serial
  copy : MapCopy
  lastActed : List (Option MsgNo)
  links : List (Option LinkEntry)
  plan : Option Link
  restart : Restart
  mapOwed : Bool
  noteOwedA : Bool
  noteOwedB : Bool
  unwrapOwed : List Link
  deriving DecidableEq, Repr

/-! ### Outgoing queue, snapshot sender, pending switch list (1.6 to 1.8) -/

/-- A queued message's destination: a node, ALL, or the acting origin of the frame it is written into
(which is also how a message for the master is addressed, R19). -/
inductive QDest | node (n : NodeId) | all | origin
  deriving DecidableEq, Repr

/-- Why a gain changed (R126). -/
inductive GainCause | loc | desk (n : NodeId) | loss
  deriving DecidableEq, Repr

/-- One queued message (R14): its number, send count, stamped switch frame, the operation it belongs to,
the origin group under which it was queued, whose epoch R139 compares (log entry 54), and for a GAIN_NOTE the
cause of its change (R126). -/
structure QItem where
  num : MsgNo
  dest : QDest
  body : LoopMsg
  sends : Nat
  stamp : Option FrameNo
  op : Option Byte
  group : Option OriginGroup
  cause : GainCause
  deriving DecidableEq, Repr

/-- Which of queue and snapshot sender the cell carried (R15). -/
inductive Wrote | neither | queue | piece
  deriving DecidableEq, Repr

/-- The item written at the previous first visit, still to be assessed (R12). -/
structure WrittenItem where
  piece : Bool
  msg : Message
  count : FrameNo
  epoch : Epoch
  deriving DecidableEq, Repr

/-- The outgoing queue and the sender's marks (R12 to R17). -/
structure QueueRec where
  items : List QItem
  nextNum : MsgNo
  written : Option WrittenItem
  last : Wrote
  outstanding : Option FrameNo
  lead : Nat
  deriving DecidableEq, Repr

/-- Snapshot kinds (R15). -/
inductive SnapKind | allot | gain
  deriving DecidableEq, Repr

/-- The running snapshot (R15): the current piece's body and number exist from its first send. -/
structure SnapRun where
  kind : SnapKind
  serial : Serial
  piece : Nat
  sends : Nat
  stamp : Option FrameNo
  msg : Option (MsgNo × LoopMsg)
  deriving DecidableEq, Repr

/-- The snapshot sender (R15). -/
structure SnapRec where
  run : Option SnapRun
  pendAllot : Bool
  pendGain : Bool
  deriving DecidableEq, Repr

/-- What a pending switch list entry holds: a message, or an allotment snapshot's serial (R18). -/
inductive SwitchItem | msg (m : LoopMsg) | snapshot (serial : Serial)
  deriving DecidableEq, Repr

/-- One pending switch list entry (R18); `op` and `confirmed` and `cause` are of the node's own messages. -/
structure PendingSwitch where
  sender : NodeId
  item : SwitchItem
  frame : FrameNo
  epoch : Epoch
  op : Option Byte
  confirmed : Bool
  cause : GainCause
  deriving DecidableEq, Repr

/-! ### Slot Router (Section 4) -/

/-- A snapshot collection (R90). -/
structure Collection where
  serial : Serial
  frame : FrameNo
  pieces : List (Option (List SlotEntry))
  deriving DecidableEq, Repr

/-- An answer record of the master (R75). -/
structure SlotAnswerRec where
  tag : Byte
  num : MsgNo
  results : List PairResult
  deriving DecidableEq, Repr

/-- The allotment table, the master's arbitration state and the copy's state (R74 to R76). -/
structure SlotRec where
  table : List SlotEntry
  inFlight : List (Option (SlotChange × Serial))
  unsettled : List Bool
  issued : Serial
  applied : Serial
  answers : List (Option SlotAnswerRec)
  requests : List (Option Serial)
  current : Bool
  lastApplied : Option Serial
  collection : Option Collection
  retry : Timer
  deriving DecidableEq, Repr

/-! ### Local Lane Unit (Section 5) and gain cache (6.5) -/

/-- A tap (R97); gains in dB, fade time in ms. -/
structure Tap where
  source : TapSource
  tracking : Bool
  refGain : Nat
  trim : Int
  unknown : Bool
  limit : Bool
  listen : BusSet
  dim : Bool
  dimDepth : Int
  safe : SafeMode
  resume : ResumeMode
  fade : Nat
  panicFollow : Bool
  held : Sample
  valid : Bool
  deriving DecidableEq, Repr

/-- One channel of an output lane frame (R96). -/
structure LaneOut where
  sample : Sample
  valid : Bool
  deriving DecidableEq, Repr

/-- A known gain cache entry; an unknown one is `none` (R121). -/
abbrev CacheEntry := Option (GainSetting × GainSerial)

/-- The lanes, the taps and the gain cache; `out` is the lane frame the output lanes carry, absent while the
lanes are stopped and until the first lane frame after the release (R96). -/
structure LaneRec where
  present : List Sample
  taps : List Tap
  heldTalk : List Sample
  cache : List CacheEntry
  out : Option (List LaneOut)
  deriving DecidableEq, Repr

/-! ### Gain Controller (Section 6) -/

/-- A change in flight of an input (R110). -/
structure GainFlight where
  setting : GainSetting
  serial : GainSerial
  deriving DecidableEq, Repr

/-- One gain table entry (R110). -/
structure GainEntry where
  applied : GainSetting
  serial : GainSerial
  issued : GainSerial
  inFlight : Option GainFlight
  mute : Timer
  deriving DecidableEq, Repr

/-- A preamp record (R111). -/
structure PreampRecord where
  input : Nat
  gain : Nat
  pad : Bool
  phantom : Bool
  deriving DecidableEq, Repr

/-- An answer record of the Gain Controller (R110). -/
structure GainAnswerRec where
  tag : Byte
  num : MsgNo
  outcome : Verdict
  deriving DecidableEq, Repr

/-- The Gain Controller; the table is empty at a DESK node (R110). -/
structure GainRec where
  table : List GainEntry
  answers : List (Option GainAnswerRec)
  records : List PreampRecord
  lane : Option PreampRecord
  laneUsed : Bool
  muteMs : Nat
  deriving DecidableEq, Repr

/-! ### Talk Unit (Section 7) -/

/-- Key states (R128). -/
inductive KeyState | idle | claiming | talking | stacked | refused | dropped
  deriving DecidableEq, Repr

/-- A running press timer (R128): the time since the press that raised the claim, and the tap threshold in
force at its start, in ms, which a lift compares it with (R129, R132). -/
structure PressTimer where
  since : Nat
  tapMs : Nat
  deriving DecidableEq, Repr

/-- A key record (R128); `pressed` is the filtered level, `raw` the raw level. -/
structure KeyRec where
  enabled : Bool
  bus : Bus
  source : Nat
  priority : Nat
  mode : KeyMode
  settleMs : Nat
  tapMs : Nat
  state : KeyState
  latched : Bool
  press : Option PressTimer
  answer : Timer
  releaseOwed : Bool
  pressed : Bool
  raw : Bool
  settle : Timer
  deriving DecidableEq, Repr

/-- A claim: talker and priority (R128). -/
structure Claim where
  talker : Talker
  priority : Nat
  deriving DecidableEq, Repr

/-- A talk bus record of the acting origin (R135); the stack is listed from top to bottom. -/
structure BusRec where
  decided : Option Claim
  stack : List Claim
  serial : Serial
  inForce : Option Talker
  owed : Bool
  deriving DecidableEq, Repr

/-- A bus view (R140); the key is absent when unknown after a snapshot. -/
structure BusView where
  serial : Option Serial
  talker : Option (NodeId × Option KeyName)
  deriving DecidableEq, Repr

/-- The Talk Unit: keys by index 0 to 11, buses by index 0 to 3. -/
structure TalkRec where
  keys : List KeyRec
  views : List BusView
  records : List BusRec
  deriving DecidableEq, Repr

/-! ### Output Safety Unit (Section 8) -/

/-- Output states (R146). -/
inductive OutState | unused | live | fadingOut | safe | fadingIn
  deriving DecidableEq, Repr

/-- Safe causes (R146). -/
structure CauseSet where
  panic : Bool
  orphan : Bool
  sourceLost : Bool
  forced : Bool
  deriving DecidableEq, Repr

/-- The reported cause (R148). -/
inductive ReportedCause | none | panic | orphan | sourceLost | forced
  deriving DecidableEq, Repr

/-- Resume stages (R146). -/
inductive ResumeStage | none | hold | await
  deriving DecidableEq, Repr

/-- An output record (R146); `fbInput` is the input the fallback weight belongs to, so that a fallback
fades out after a change to MUTE (R151); `entered` says that the output entered FADING_OUT in this frame
period, so that a fade out from position 0 ends in the next (R150, R152). -/
structure OutRec where
  state : OutState
  causes : CauseSet
  pos : Nat
  fallback : Nat
  fbInput : Nat
  hold : Timer
  stage : ResumeStage
  entered : Bool
  deriving DecidableEq, Repr

/-- The Output Safety Unit (R146, R157, R159). -/
structure SafetyRec where
  outs : List OutRec
  panicRaw : Bool
  panicOn : Bool
  panicT : Timer
  holdMs : Nat
  filterMs : Nat
  deriving DecidableEq, Repr

/-! ### Lock and Supervision (Section 9) -/

/-- The lock record (R162). -/
structure LockRec where
  level : Nat
  noteOwed : Bool
  loopLevel : Option Nat
  view : List (Option Nat)
  deriving DecidableEq, Repr

/-- The supervision record (R168); `spanTicks` is the part of a millisecond of the span. -/
structure SuperRec where
  periodMs : Nat
  timer : Timer
  silent : Bool
  since : Option FrameNo
  span : Nat
  spanTicks : Nat
  deriving DecidableEq, Repr

/-! ### Reset and Start (Section 10) -/

/-- Reset causes (R171). -/
inductive ResetCause | powerOn | supplyLow | pin | soft
  deriving DecidableEq, Repr

/-- The start record (Section 10) with the node settings of R175 and the resets being held (R171).
`fell` says the supply monitor held the part since the previous release, `below` that it fell below the
lower level. -/
structure StartRec where
  cause : ResetCause
  straps : Option Straps
  strapsRead : Bool
  held : Bool
  id : NodeId
  func : Func
  role : Role
  roleInvalid : Bool
  rate : Rate
  loopName : BitVec 16
  line : LineMode
  holdn : Bool
  powerHeld : Bool
  pinHeld : Bool
  fell : Bool
  below : Bool
  softTag : Option Byte
  deriving DecidableEq, Repr

/-! ### Control Port (Section 11) -/

/-- Operation stages (R183). -/
inductive Stage | queued | sent | awaiting | running
  deriving DecidableEq, Repr

/-- The long requests (R183). -/
inductive OpKind | go | drill | heal | claimSlot | releaseSlot | setGain | claimGain | yieldGain
  deriving DecidableEq, Repr

/-- The completion of a GO (R177). -/
inductive GoEnd | origin | current
  deriving DecidableEq, Repr

/-- The results a DONE carries (R184). -/
inductive OpResult
  | none
  | pairs (l : List PairResult)
  | gain (node : NodeId) (input : Nat)
  | drill (port : PortId) (wrapFrames : Option FrameNo) (returnFrames : Option FrameNo)
  | go (completion : GoEnd)
  deriving DecidableEq, Repr

/-- An operation (R183); `limit` is GO's 5 s timeout (R177), `gain` the node and input of a gain request
(R116). -/
structure Operation where
  tag : Byte
  kind : OpKind
  stage : Stage
  answer : Timer
  limit : Timer
  gain : Option (NodeId × Nat)
  deriving DecidableEq, Repr

/-- An ended operation (R184). -/
structure EndedOp where
  tag : Byte
  kind : OpKind
  outcome : Verdict
  result : OpResult
  deriving DecidableEq, Repr

/-- Causes of PORT_CHANGE (R38). -/
inductive PortCause
  | lightLoss | lightRise | aligned | alignLost | settled | joined | fixedJoin | fixedEnd | disagree
  | agree | partnerChange | remoteFaultSet | remoteFaultClear | marginalSet | marginalClear
  | drillStart | drillEnd
  deriving DecidableEq, Repr

/-- Causes of LOOP_CHANGE (R46); QUEUE_FULL names the discarded kind by its number in R19. -/
inductive LoopCause
  | port | adopted | originLost | plannedWrap | unwrap | takeover | yielded | conflict (c : ConflictCause) | restart | start
  | queueFull (kind : Nat)
  deriving DecidableEq, Repr

/-- Causes of KEY_CHANGE (R145). -/
inductive KeyCause
  | press | latch | lift | grant | preempt | lower | full | noAnswer | lost | noOrigin
  | releasedByOrigin | disabled
  deriving DecidableEq, Repr

/-- Causes of a drop reported by TALK_CHANGE (R145). -/
inductive DropCause | epoch | originLost | conflict | held | mapOmit
  deriving DecidableEq, Repr

/-- The loop record as LOOP_CHANGE and STATUS show it (R46). -/
structure LoopView where
  mode : LoopMode
  role : OriginRole
  group : Option OriginGroup
  epoch : Epoch
  wrapA : Wrap
  wrapB : Wrap
  deriving DecidableEq, Repr

/-- START_REPORT (R173). -/
structure StartReport where
  cause : ResetCause
  tag : Option Byte
  straps : Option Straps
  strapsRead : Bool
  id : NodeId
  func : Func
  role : Role
  roleInvalid : Bool
  held : Bool
  rate : Rate
  loopName : BitVec 16
  lock : Nat
  deriving DecidableEq, Repr

/-- The notices (11.6), each with what its rule says it carries. -/
inductive Notice
  | startReport (r : StartReport)
  | done (tag : Byte) (kind : OpKind) (outcome : Verdict) (result : OpResult)
  | portChange (port : PortId) (state : PortState) (flags : PortFlags) (light : Int) (cause : PortCause)
  | loopChange (v : LoopView) (cause : LoopCause)
  | mapChange (serial : Option Serial) (members : List NodeId) (joined : List NodeId) (gone : List NodeId)
  | outputChange (outs : List Nat) (state : OutState) (cause : ReportedCause) (set : CauseSet)
      (stage : ResumeStage)
  | gainChange (input : Nat) (s : GainSetting) (serial : GainSerial) (cause : GainCause)
  | gainCacheChange (node : NodeId) (input : Nat) (s : GainSetting) (serial : GainSerial)
      (slots : List Nat)
  | trackLimit (tap : Nat) (slot : Nat) (gain : Nat) (ref : Nat) (diff : Int) (trim : Int)
  | talkChange (bus : Bus) (talker : Option Talker) (serial : Serial) (depth : Nat)
  | talkDrop (cause : DropCause) (keys : List KeyName)
  | keyChange (key : KeyName) (bus : Bus) (state : KeyState) (latched : Bool) (cause : KeyCause)
  | lockRaise (old : Nat) (new : Nat)
  | lockLoop (level : Nat)
  | lockNote (node : NodeId) (level : Option Nat)
  | hostReturn (since : Option FrameNo) (span : Nat) (count : FrameNo)
  deriving DecidableEq, Repr

/-- READ_PORT's record (R36); the time remaining of a drill in 1/96 ms. -/
structure PortReport where
  state : PortState
  flags : PortFlags
  light : Int
  partner : Option LinkField
  linkDelay : Option Nat
  counters : PortCounters
  loss : Int
  marginalAt : Int
  hyst : Int
  settleMs : Nat
  drill : Option (FrameNo × Nat)
  deriving DecidableEq, Repr

/-- The allotment part of STATUS (R94). -/
inductive AllotStatus
  | copy (current : Bool) (lastApplied : Option Serial) (collection : Option (Serial × Nat))
  | master (issued : Serial) (applied : Serial) (running : Bool) (pending : Bool)
      (requests : List (Option Serial))
  deriving DecidableEq, Repr

/-- STATUS's report, in the order of R186. -/
structure StatusReport where
  cause : ResetCause
  straps : Option Straps
  held : Bool
  id : NodeId
  func : Func
  role : Role
  loop : LoopView
  following : Bool
  count : FrameNo
  timeout : Nat
  takeoverRunning : Bool
  circuit : Option Nat
  conflict : Option ConflictCause
  formerOwn : Option (Rank × Epoch)
  ports : List (PortState × PortFlags × Bool)
  mapSerial : Option Serial
  members : List NodeId
  allot : AllotStatus
  gainSnap : Option (Bool × Bool × Nat)
  lockLevel : Nat
  noteOwed : Bool
  loopLevel : Option Nat
  lockView : List (Option Nat)
  supervision : SuperRec
  panicOn : Bool
  panicRaw : Bool
  filterMs : Nat
  holdMs : Nat
  outUnused : List Nat
  outLive : List Nat
  outFadingOut : List Nat
  outSafe : List Nat
  outFadingIn : List Nat
  operations : Nat
  notices : Nat
  lost : Bool
  deriving DecidableEq, Repr

/-- A latency as reported: absent, UNKNOWN, or frames (R108). -/
inductive Latency | absent | unknown | frames (n : Nat)
  deriving DecidableEq, Repr

/-- The entries READ_TABLE returns (R187). -/
inductive TableEntry
  | allot (slot : Nat) (e : SlotEntry) (master : Option (Option (SlotChange × Serial) × Bool))
  | tap (n : Nat) (t : Tap) (program : Latency) (talk : List (Bus × Latency)) (heard : BusSet)
      (out : OutRec) (reported : ReportedCause) (fadeLen : Nat)
  | gain (input : Nat) (e : GainEntry)
  | cache (slot : Nat) (e : CacheEntry)
  | key (index : Nat) (k : KeyRec)
  | talk (bus : Bus) (v : BusView) (r : Option BusRec)
  | map (e : MapEntry)
  | link (index : Nat) (e : LinkEntry)
  | operation (index : Nat) (o : Operation)
  | ended (index : Nat) (o : EndedOp)
  deriving DecidableEq, Repr

/-- The body of a DATA reply (R181). -/
inductive Data
  | status (r : StatusReport)
  | table (entries : List TableEntry) (next : Option Nat)
  | port (r : PortReport)
  | pairs (l : List PairResult)
  | resumed (yes : List Nat) (no : List Nat)
  deriving DecidableEq, Repr

/-- A reply (R181). -/
inductive Reply
  | ok
  | data (d : Data)
  | started
  | busy
  | refused (r : Reason)
  | unknown
  | damaged
  deriving DecidableEq, Repr

/-- A reply waiting, with its tag and its place in the order of making (R182). -/
structure InboxEntry where
  tag : Byte
  reply : Reply
  made : Nat
  deriving DecidableEq, Repr

/-- What was chosen for delivery (R178, R179, R182): an EMPTY frame, an inbox reply or the overflow reply
by its place in the order, or the head notice. -/
inductive ChosenItem | empty | inbox (made : Nat) | overflow (made : Nat) | notice
  deriving DecidableEq, Repr

/-- A chosen frame: what it is, and its bytes as they go out. -/
structure Chosen where
  item : ChosenItem
  bytes : List Byte
  deriving DecidableEq, Repr

/-- The open UART frame: its bytes so far and the time since the last (R179). -/
structure OpenFrame where
  bytes : List Byte
  gap : Nat
  deriving DecidableEq, Repr

/-- The Control Port (R178 to R185). `discarded` says a notice was discarded since the present frame was
chosen (R185). `lineOut` is what CPDO carried in the transaction or frame that ended last, the FFh bytes after a frame
among it (R178, R179; log entry 87). -/
structure ControlRec where
  inbox : List InboxEntry
  overflow : Option InboxEntry
  made : Nat
  ops : List (Option Operation)
  ended : List EndedOp
  notices : List Notice
  lost : Bool
  discarded : Bool
  chosen : Option Chosen
  openFrame : Option OpenFrame
  lineOut : List Byte
  deriving DecidableEq, Repr

/-- The machine's state: every block's records, and the queue of commands that wait. -/
structure State where
  start : StartRec
  portA : PortRec
  portB : PortRec
  loop : LoopRec
  queue : QueueRec
  snap : SnapRec
  switches : List PendingSwitch
  slots : SlotRec
  lanes : LaneRec
  gain : GainRec
  talk : TalkRec
  safety : SafetyRec
  lock : LockRec
  supervision : SuperRec
  ctl : ControlRec
  pending : List Instr
  deriving DecidableEq, Repr

/-- The faults of a step. The spec names no behaviour that stops the part, so no constructor stands
here and no step faults. -/
inductive Fault
  deriving DecidableEq, Repr

/-- The refusals of a step. -/
inductive Refusal
  /-- The row of this mnemonic has no meaning yet. Raised only by arms of `exec` rejected by name
  (none at present); safe. -/
  | notModelled (mnemonic : String)
  deriving DecidableEq, Repr

/-! ### Values after a POWER or PIN reset -/

def PortFlags.empty : PortFlags := ⟨false, false, false⟩
def PortCounters.zero : PortCounters := ⟨0, 0, 0, 0, 0, 0⟩

/-- R20's last column, with the four settings given (a SOFT reset keeps them). -/
def PortRec.fresh (loss marginalAt hyst : Int) (settleMs : Nat) (txOn : Bool) : PortRec where
  state := .dark
  flags := .empty
  light := -400
  partner := none
  linkDelay := none
  counters := .zero
  loss := loss
  marginalAt := marginalAt
  hyst := hyst
  settleMs := settleMs
  alignRun := 0
  agreeRun := 0
  agreeFrom := none
  clearRun := 0
  badRun := 0
  winFrames := 0
  winBad := 0
  settle := none
  offerT := none
  relock := none
  drillT := none
  window := none
  drill := none
  offerSeen := false
  offerAgreed := false
  lightCond := false
  lightHeld := false
  winWholeUp := false
  delaySum := 0
  delayCount := 0
  lastGood := none
  time := 0
  txOn := txOn
  everUsable := false
  lineRate := .k48
  position := 0
  arrived := 0
  routed := none
  txLine := none

/-- A port after a POWER or PIN reset: R20's defaults, transmitter off until the release (R21). -/
def PortRec.power : PortRec := .fresh (-280) (-240) 10 200 false

def OrigRec.none : OrigRec := ⟨Option.none, Option.none, false, 0⟩

/-- A map entry for a node alone, without a position (R60). -/
def MapCopy.alone (id : NodeId) (f : Func) (r : Role) : MapCopy :=
  ⟨none, [⟨id, some f, some r, none, none⟩]⟩

/-- The loop record after a POWER or PIN reset (R43, R44). -/
def LoopRec.power (id : NodeId) (f : Func) (r : Role) : LoopRec where
  role := .follower
  group := none
  following := false
  epoch := 0
  count := 0
  wrapA := .none
  wrapB := .none
  timeout := 0
  takeover := none
  circuit := none
  conflict := none
  formerOwn := none
  policy := .auto
  healDelay := 20
  takeoverMs := 100
  preempt := false
  lastVisit := none
  visits := []
  visited := false
  heard := false
  originated := false
  orig := .none
  ownMap := []
  mapSerial := 0
  copy := .alone id f r
  lastActed := List.replicate 8 none
  links := List.replicate 16 none
  plan := none
  restart := .idle
  mapOwed := false
  noteOwedA := false
  noteOwedB := false
  unwrapOwed := []

/-- The empty queue (R14) with the switch lead given (R16). -/
def QueueRec.fresh (lead : Nat) : QueueRec := ⟨[], 0, none, .neither, none, lead⟩

/-- The idle snapshot sender (R15). -/
def SnapRec.idle : SnapRec := ⟨none, false, false⟩

/-- The number of slots of a rate mode (R1). -/
def slotCount : Rate → Nat
  | .k48 => 256
  | .k96 => 128

/-- The lowest talk slot of a rate mode (R7). -/
def firstTalk (r : Rate) : Nat := slotCount r - 4

def slotFree : SlotEntry := ⟨.free, none, none, none⟩
def slotNoTalker : SlotEntry := ⟨.talk, none, none, none⟩

/-- The allotment content after a POWER or PIN reset (R74). -/
def freshTable (r : Rate) : List SlotEntry :=
  List.replicate (firstTalk r) slotFree ++ List.replicate 4 slotNoTalker

/-- The Slot Router after a POWER or PIN reset (R74 to R76). -/
def SlotRec.power (r : Rate) : SlotRec where
  table := freshTable r
  inFlight := List.replicate (slotCount r) none
  unsettled := List.replicate (slotCount r) false
  issued := 0
  applied := 0
  answers := List.replicate 8 none
  requests := List.replicate 8 none
  current := false
  lastApplied := none
  collection := none
  retry := none

def noBuses : BusSet := ⟨false, false, false, false⟩

/-- R97's last column. -/
def Tap.power : Tap where
  source := .unused
  tracking := false
  refGain := 0
  trim := 0
  unknown := false
  limit := false
  listen := noBuses
  dim := false
  dimDepth := -20
  safe := .mute
  resume := .auto
  fade := 20
  panicFollow := true
  held := 0
  valid := false

/-- The Local Lane Unit after a POWER or PIN reset. -/
def LaneRec.power (r : Rate) : LaneRec where
  present := List.replicate 64 0
  taps := List.replicate 64 .power
  heldTalk := List.replicate 4 0
  cache := List.replicate (slotCount r) none
  out := none

def gainZero : GainSetting := ⟨0, false, false, none⟩

/-- R110's last column. -/
def GainEntry.power : GainEntry := ⟨gainZero, 0, 0, none, none⟩

/-- The default records of all 64 inputs (R111). -/
def recordsOf (table : List GainEntry) : List PreampRecord :=
  (List.zip (List.range table.length) table).map fun (i, e) =>
    ⟨i, e.applied.gain, e.applied.pad, e.applied.phantom⟩

/-- The gain table a function gives at a POWER or PIN reset: a DESK node holds none (R110). -/
def gainTableOf : Func → List GainEntry
  | .stage => List.replicate 64 .power
  | .desk => []

/-- The Gain Controller after a POWER or PIN reset (R110, R119); the release fills the preamp record
queue (R111). -/
def GainRec.power (f : Func) : GainRec where
  table := gainTableOf f
  answers := List.replicate 8 none
  records := []
  lane := none
  laneUsed := false
  muteMs := 300

/-- R128's last column. -/
def KeyRec.power : KeyRec where
  enabled := false
  bus := .tb1
  source := 0
  priority := 0
  mode := .auto
  settleMs := 10
  tapMs := 400
  state := .idle
  latched := false
  press := none
  answer := none
  releaseOwed := false
  pressed := false
  raw := false
  settle := none

/-- The empty bus record (R135) and the cleared bus view (R140). -/
def BusRec.empty : BusRec := ⟨none, [], 0, none, false⟩
def BusView.clear : BusView := ⟨none, none⟩

def TalkRec.power : TalkRec :=
  ⟨List.replicate 12 .power, List.replicate 4 .clear, List.replicate 4 .empty⟩

def CauseSet.empty : CauseSet := ⟨false, false, false, false⟩

/-- R146's last column. -/
def OutRec.power : OutRec := ⟨.unused, .empty, 0, 0, 0, none, .none, false⟩

def SafetyRec.power : SafetyRec := ⟨List.replicate 64 .power, false, false, none, 100, 2⟩

/-- The lock view with the node's own entry alone (R162). -/
def viewAlone (id : NodeId) (level : Nat) : List (Option Nat) :=
  (List.replicate 8 none).set id.val (some level)

def LockRec.power (id : NodeId) : LockRec := ⟨0, false, none, viewAlone id 0⟩
def SuperRec.power : SuperRec := ⟨0, none, false, none, 0, 0⟩

/-- The Control Port with nothing waiting (R181 to R185). -/
def ControlRec.clear : ControlRec where
  inbox := []
  overflow := none
  made := 0
  ops := List.replicate 8 none
  ended := []
  notices := []
  lost := false
  discarded := false
  chosen := none
  openFrame := none
  lineOut := []

/-- The start record while the first POWER reset is held: the strap settings are read at the release
(R172); until then they stand as log entry 1 says. -/
def StartRec.power : StartRec where
  cause := .powerOn
  straps := none
  strapsRead := false
  held := false
  id := 0
  func := .stage
  role := .member
  roleInvalid := false
  rate := .k48
  loopName := 0
  line := .spi
  holdn := false
  powerHeld := true
  pinHeld := false
  fell := true
  below := false
  softTag := none

/-- The machine right after reset: a POWER reset is held and every block has the values the spec gives
after a POWER reset; the release of the reset (POWER_RESET_RELEASE) reads the straps and starts the node
(R171, R172; log entry 1). -/
def State.reset : State where
  start := .power
  portA := .power
  portB := .power
  loop := .power 0 .stage .member
  queue := .fresh 240
  snap := .idle
  switches := []
  slots := .power .k48
  lanes := .power .k48
  gain := .power .stage
  talk := .power
  safety := .power
  lock := .power 0
  supervision := .power
  ctl := .clear
  pending := []

end Sys2Proof.Machine
end

