-- ==== Sys2Proof/Machine/Ops.lean ====
section
/-! DEFINITION. Operations shared by the blocks: time, serials, ports, the derived loop mode, notices,
the outgoing queue, the operation table, the snapshot sender's marks, exact rounding. -/

namespace Sys2Proof.Machine

open Sys2Proof

/-! ### Time (0.5, log entry 3) -/

/-- Milliseconds in the model's unit. -/
def ticksOf (ms : Nat) : Nat := ms * Config.ticksPerMs
/-- One frame period in the model's unit. -/
def frameTicks : Rate → Nat
  | .k48 => 2
  | .k96 => 1
/-- Frames per millisecond (0.5). -/
def framesPerMs : Rate → Nat
  | .k48 => 48
  | .k96 => 96
/-- A timer counts down and stays at 0 until its expiry is taken. -/
def tick (d : Nat) (t : Timer) : Timer := t.map (· - d)
/-- A running timer whose time has passed. -/
def isDue (t : Timer) : Bool := t == some 0
/-- A count that stops at its top (R20). -/
def bump (n : Nat) : Nat := if n < Config.countTop then n + 1 else Config.countTop

/-! ### Wrapping numbers (R2, R49, R75, R110) -/

/-- `s` is newer than `r` modulo 65536 (R49, R75). -/
def newer16 (s r : BitVec 16) : Bool :=
  decide (1 ≤ (s - r).toNat) && decide ((s - r).toNat ≤ 32767)
/-- `s` is newer than `r` modulo 256 (R110). -/
def newer8 (s r : BitVec 8) : Bool :=
  decide (1 ≤ (s - r).toNat) && decide ((s - r).toNat ≤ 127)
/-- Frame count `f` is reached at local count `c` (R2). -/
def reached (c f : FrameNo) : Bool := decide ((c - f).toNat < 2147483648)
/-- Frame count `f` is passed at local count `c` (R2). -/
def passed (c f : FrameNo) : Bool := reached c f && c != f

/-! ### Rounding (R34, R106, R151; log entry 11) -/

/-- The integer nearest to `num / den`; a tie takes the side of the free value. -/
def nearest (num : Int) (den : Nat) : Int :=
  let q := num / (den : Int)
  let r := num % (den : Int)
  if 2 * r < den then q
  else if (den : Int) < 2 * r then q + 1
  else if Config.tieUp q then q + 1 else q

/-- Greatest number below `acc + 2^b` that passes the (downward closed) test, found bit by bit. -/
def searchBits (test : Nat → Bool) : Nat → Nat → Nat
  | 0, acc => acc
  | b + 1, acc => searchBits test b (if test (acc + 2 ^ b) then acc + 2 ^ b else acc)

/-- The integer nearest to `a * 10^(k/20)` for a `k` that 20 does not divide: the greatest `n` with
`n - 1/2` not above it, compared exactly by twentieth powers (no tie is possible). -/
def rootNearest (a : Nat) (k : Int) : Nat :=
  let num := 2 ^ 20 * a ^ 20 * 10 ^ k.toNat
  let den := 10 ^ (-k).toNat
  searchBits (fun n => decide ((2 * n - 1) ^ 20 * den ≤ num)) 32 0

/-- The integer nearest to `h * 10^(k/20) + t`: a gain of `k` dB is the factor 10 to the `k/20` (R105). -/
def dbSum (h : Int) (k : Int) (t : Int) : Int :=
  if k % 20 = 0 then
    if 0 ≤ k then h * 10 ^ (k / 20).toNat + t
    else nearest (h + t * 10 ^ (-k / 20).toNat) (10 ^ (-k / 20).toNat)
  else if 0 ≤ h then (rootNearest h.natAbs k : Int) + t
  else t - (rootNearest h.natAbs k : Int)

/-- The 24-bit range's nearer limit (R106, R151). -/
def limit24 (x : Int) : Sample :=
  if x < -8388608 then BitVec.ofInt 24 (-8388608)
  else if 8388607 < x then BitVec.ofInt 24 8388607
  else BitVec.ofInt 24 x

/-! ### Names and indexes -/

def portOther : PortId → PortId
  | .a => .b
  | .b => .a
def portIndex : PortId → Nat
  | .a => 0
  | .b => 1
def busIndex : Bus → Nat
  | .tb1 => 0
  | .tb2 => 1
  | .tb3 => 2
  | .tb4 => 3
def allBuses : List Bus := [.tb1, .tb2, .tb3, .tb4]
def busHas (b : BusSet) : Bus → Bool
  | .tb1 => b.tb1
  | .tb2 => b.tb2
  | .tb3 => b.tb3
  | .tb4 => b.tb4
def keyIndex : KeyName → Nat
  | .k0 => 0
  | .k1 => 1
  | .k2 => 2
  | .k3 => 3
  | .k4 => 4
  | .k5 => 5
  | .k6 => 6
  | .k7 => 7
  | .v0 => 8
  | .v1 => 9
  | .v2 => 10
  | .v3 => 11
def allKeys : List KeyName := [.k0, .k1, .k2, .k3, .k4, .k5, .k6, .k7, .v0, .v1, .v2, .v3]
def keyVirtual : KeyName → Bool
  | .v0 | .v1 | .v2 | .v3 => true
  | .k0 | .k1 | .k2 | .k3 | .k4 | .k5 | .k6 | .k7 => false
/-- The physical key of an input KEY0 to KEY7 (R130). -/
def keyOfInput (i : Fin 8) : KeyName := allKeys.getD i.val .k0
def allNodes : List NodeId := [0, 1, 2, 3, 4, 5, 6, 7]
/-- The node with this number, if it is one. -/
def nodeOf (n : Nat) : Option NodeId := if h : n < 8 then some ⟨n, h⟩ else none
/-- The talk slot of a bus (R7). -/
def talkSlot (r : Rate) (b : Bus) : Nat := firstTalk r + busIndex b

/-- The kind's number in the order of R19's table, from 1. -/
def msgKind : LoopMsg → Nat
  | .map .. => 1
  | .allot .. => 2
  | .snap .. => 3
  | .snapReq .. => 4
  | .slotClaim .. => 5
  | .slotRelease .. => 6
  | .slotAnswer .. => 7
  | .gainSet .. => 8
  | .gainClaim .. => 9
  | .gainYield .. => 10
  | .gainAnswer .. => 11
  | .gainNote .. => 12
  | .gainSnap .. => 13
  | .talkClaim .. => 14
  | .talkRelease .. => 15
  | .talkGrant .. => 16
  | .talkRefuse .. => 17
  | .linkNote .. => 18
  | .wrapPlan .. => 19
  | .unwrapPlan .. => 20
  | .restart .. => 21
  | .lockNote .. => 22

/-- The switch-bearing kinds (1.8). -/
def bearsSwitch : LoopMsg → Bool
  | .allot .. | .snap .. | .gainNote .. | .talkGrant .. | .wrapPlan .. | .unwrapPlan .. => true
  | .map .. | .snapReq .. | .slotClaim .. | .slotRelease .. | .slotAnswer .. | .gainSet ..
  | .gainClaim .. | .gainYield .. | .gainAnswer .. | .gainSnap .. | .talkClaim .. | .talkRelease ..
  | .talkRefuse .. | .linkNote .. | .restart .. | .lockNote .. => false

/-! ### Accessors -/

def State.port (s : State) : PortId → PortRec
  | .a => s.portA
  | .b => s.portB
def State.setPort (s : State) (p : PortId) (r : PortRec) : State :=
  match p with
  | .a => { s with portA := r }
  | .b => { s with portB := r }
def State.wrapAt (s : State) : PortId → Wrap
  | .a => s.loop.wrapA
  | .b => s.loop.wrapB
def State.setWrap (s : State) (p : PortId) (w : Wrap) : State :=
  match p with
  | .a => { s with loop := { s.loop with wrapA := w } }
  | .b => { s with loop := { s.loop with wrapB := w } }
def State.isMaster (s : State) : Bool := s.start.role == .master
def State.isStage (s : State) : Bool := s.start.func == .stage
def State.isOrigin (s : State) : Bool := s.loop.role == .origin
/-- A POWER or PIN reset is held (R171). -/
def State.inReset (s : State) : Bool := s.start.powerHeld || s.start.pinHeld

/-- A port is usable: UP without REMOTE_FAULT (R37). -/
def portUsable (r : PortRec) : Bool := r.state == .up && !r.flags.remoteFault
def State.usable (s : State) (p : PortId) : Bool := portUsable (s.port p)

/-- The loop mode, by the first line of R45's table that holds. -/
def loopMode (s : State) : LoopMode :=
  if s.start.held then .held
  else if s.loop.conflict.isSome then .conflict
  else if s.loop.role = .follower && s.loop.group.isNone then .seeking
  else if !s.usable .a && !s.usable .b && (s.isOrigin || s.loop.group.isSome) then .isolated
  else if s.loop.role = .follower && !s.loop.following then .orphan
  else if s.loop.wrapA != .none then .wrappedA
  else if s.loop.wrapB != .none then .wrappedB
  else .closed

/-- The modes in which cells are written (R13). -/
def writesCells : LoopMode → Bool
  | .closed | .wrappedA | .wrappedB => true
  | .held | .seeking | .isolated | .orphan | .conflict => false

/-- The loop record as LOOP_CHANGE shows it (R46). -/
def loopView (s : State) : LoopView :=
  ⟨loopMode s, s.loop.role, s.loop.group, s.loop.epoch, s.loop.wrapA, s.loop.wrapB⟩

/-- Precedence between two origin groups (R65). -/
def groupWins (g f : OriginGroup) : Bool :=
  match g.rank, f.rank with
  | .master, .deputy => true
  | .deputy, .master => false
  | .master, .master => decide (g.id.val < f.id.val)
  | .deputy, .deputy => decide (g.id.val < f.id.val)

/-- The followed origin group, an origin's own included; absent while following is no (R27). -/
def followedGroup (s : State) : Option OriginGroup := if s.loop.following then s.loop.group else none

/-! ### Notices (R185) -/

/-- A block offers a notice to the queue (R185). -/
def notify (n : Notice) (s : State) : State :=
  if s.ctl.notices.length < Config.noticeMax then
    { s with ctl := { s.ctl with notices := s.ctl.notices ++ [n] } }
  else { s with ctl := { s.ctl with lost := true, discarded := true } }

/-- LOOP_CHANGE with a cause (R46). -/
def notifyLoop (c : LoopCause) (s : State) : State := notify (.loopChange (loopView s) c) s

/-! ### The outgoing queue (R14) -/

def queueLen (s : State) : Nat := s.queue.items.length
/-- The queue has room for an internal source (R14). -/
def queueRoom (s : State) : Bool := decide (queueLen s < Config.queueMax)
/-- The queue has room for a host request (R14). -/
def hostRoom (s : State) : Bool := decide (queueLen s < Config.queueHost)

/-- A message enters the queue at the tail with the next message number (R11, R14). -/
def push (dest : QDest) (body : LoopMsg) (op : Option Byte) (cause : GainCause) (s : State) : State :=
  { s with queue := { s.queue with
      items := s.queue.items ++ [⟨s.queue.nextNum, dest, body, 0, none, op, s.loop.group, cause⟩]
      nextNum := s.queue.nextNum + 1 } }

/-- An internal source's message: discarded with QUEUE_FULL when 16 stand there (R14). -/
def pushInternal (dest : QDest) (body : LoopMsg) (s : State) : State :=
  if queueRoom s then push dest body none .loc s
  else notifyLoop (.queueFull (msgKind body)) s

/-- A gain note, an internal source that carries its change's cause (R115). -/
def pushGainNote (body : LoopMsg) (cause : GainCause) (s : State) : State :=
  if queueRoom s then push .all body none cause s
  else notifyLoop (.queueFull (msgKind body)) s

/-- Replace the body of the first unsent queue item that satisfies the test, under the present group (R59, R139,
R166). -/
def replaceUnsent (test : LoopMsg → Bool) (body : LoopMsg) (group : Option OriginGroup) : List QItem → List QItem
  | [] => []
  | i :: l =>
    if i.sends = 0 && test i.body then { i with body := body, group := group } :: l
    else i :: replaceUnsent test body group l

/-- An unsent queue item satisfies the test. -/
def hasUnsent (test : LoopMsg → Bool) (s : State) : Bool :=
  s.queue.items.any fun i => decide (i.sends = 0) && test i.body

/-! ### The operation table (R183, R184) -/

def findOp (tag : Byte) (s : State) : Option Operation :=
  s.ctl.ops.findSome? fun o => match o with
    | some o => if o.tag = tag then some o else none
    | none => none
def opCount (s : State) : Nat := (s.ctl.ops.filter Option.isSome).length

/-- Put an operation in the lowest free place (R187). -/
def placeOp (o : Operation) : List (Option Operation) → List (Option Operation)
  | [] => []
  | none :: l => some o :: l
  | some x :: l => some x :: placeOp o l

def addOp (o : Operation) (s : State) : State :=
  { s with ctl := { s.ctl with ops := placeOp o s.ctl.ops } }

/-- Change the operation with this tag. -/
def modifyOp (tag : Byte) (f : Operation → Operation) (s : State) : State :=
  { s with ctl := { s.ctl with ops := s.ctl.ops.map fun o => match o with
      | some o => if o.tag = tag then some (f o) else some o
      | none => none } }

/-- End an operation: it leaves the table, joins the ended list, and DONE is raised (R184). -/
def endOp (tag : Byte) (outcome : Verdict) (result : OpResult) (s : State) : State :=
  match findOp tag s with
  | none => s
  | some o =>
    notify (.done tag o.kind outcome result)
      { s with ctl := { s.ctl with
          ops := s.ctl.ops.map fun x => match x with
            | some x => if x.tag = tag then none else some x
            | none => none
          ended := (⟨tag, o.kind, outcome, result⟩ :: s.ctl.ended).take Config.opMax } }

/-- What a DONE that no answer reached carries: a gain request names its node and input (R116). -/
def bareResult (o : Operation) : OpResult :=
  match o.gain with
  | some (n, i) => .gain n i
  | none => .none

/-- The pending entry of an operation's message no longer belongs to it: the operation has ended (R70). -/
def forgetEntry (tag : Byte) (s : State) : State :=
  { s with switches := s.switches.map fun p => if p.op = some tag then { p with op := none } else p }

/-- The queued message of an operation no longer belongs to it: the operation has ended (R70). -/
def forgetItem (tag : Byte) (s : State) : State :=
  { s with queue := { s.queue with
      items := s.queue.items.map fun i => if i.op = some tag then { i with op := none } else i } }

/-- End the operation a message belongs to with outcome LOST (R13, R14); an entry of the message that stays
pending is applied without it (R70). -/
def loseOp (op : Option Byte) (s : State) : State :=
  match op with
  | none => s
  | some t =>
    match findOp t s with
    | none => s
    | some o => endOp t (.no .lost) (bareResult o) (forgetEntry t s)

/-! ### Switch-bearing items and the snapshot sender's marks (R15, R17) -/

/-- A switch-bearing item of the node is outstanding (R17). -/
def outstanding (s : State) : Bool := s.queue.outstanding.isSome

/-- The outstanding item's switch frame is passed: it stops being outstanding (R17). -/
def endOutstanding (s : State) : State :=
  match s.queue.outstanding with
  | none => s
  | some f => if passed s.loop.count f then { s with queue := { s.queue with outstanding := none } } else s

/-- The step of the local count from `old` to `new` leaves frame `f` behind: it was reached, and is no longer, as the
count has moved on by half its range (R2). -/
def leftBehind (old new f : FrameNo) : Bool := reached new old && reached old f && !reached new f

/-- The visited counts that still tell of a visit once the local count is `c`: counts wrap (R2), and a later frame
bears a count that has been left behind (R67; log entry 22, DEDUCED). -/
def ageVisits (c : FrameNo) (s : State) : List FrameNo :=
  s.loop.visits.filter fun f => !leftBehind s.loop.count c f

/-- The local frame count takes a value (R2), with what that ends (R17, R67). -/
def setCount (c : FrameNo) (s : State) : State :=
  endOutstanding { s with loop := { s.loop with count := c, visits := ageVisits c s } }

/-- Start a marked snapshot when none runs and nothing blocks it, allotment first (R15). -/
def snapshotStart (s : State) : State :=
  if s.snap.run.isSome then s
  else if s.snap.pendAllot && !outstanding s then
    { s with snap := { s.snap with run := some ⟨.allot, 0, 0, 0, none, none⟩, pendAllot := false } }
  else if s.snap.pendGain then
    { s with snap := { s.snap with run := some ⟨.gain, 0, 0, 0, none, none⟩, pendGain := false } }
  else s

/-- The master needs an allotment snapshot (R15, R88). -/
def needAllotSnap (s : State) : State :=
  snapshotStart { s with snap := { s.snap with pendAllot := true } }
/-- A STAGE node needs a gain snapshot (R15, R120). -/
def needGainSnap (s : State) : State :=
  if s.isStage then snapshotStart { s with snap := { s.snap with pendGain := true } } else s

/-! ### Map copy (R60) -/

def inCopy (s : State) (n : NodeId) : Bool := s.loop.copy.entries.any fun e => decide (e.id = n)
def copyPos (s : State) (n : NodeId) : Option Nat :=
  (s.loop.copy.entries.find? fun e => decide (e.id = n)).bind (·.pos)

/-! ### Lists of marks per node id -/

def setAt {α : Type} (l : List α) (i : Nat) (x : α) : List α := l.set i x

end Sys2Proof.Machine
end

