-- ==== Sys2Proof/Machine/Flags.lean ====
section
/-! DEFINITION. Flags and pins computed from the state: safe causes, valid flags, ATTN, the lock check. -/

namespace Sys2Proof.Machine

open Sys2Proof

/-- An empty safe cause set (R146). -/
def causesEmpty (c : CauseSet) : Bool := !c.panic && !c.orphan && !c.sourceLost && !c.forced

/-- The reported cause: the highest present, PANIC, ORPHAN, SOURCE_LOST, FORCED (R148). -/
def reportedCause (c : CauseSet) : ReportedCause :=
  if c.panic then .panic
  else if c.orphan then .orphan
  else if c.sourceLost then .sourceLost
  else if c.forced then .forced
  else .none

/-- The valid flag of an output's channel (R96). -/
def validFlag (s : OutState) : Bool :=
  match s with
  | .live | .fadingIn => true
  | .unused | .fadingOut | .safe => false

/-- The modes that give every output the ORPHAN cause (R147). -/
def orphanMode (m : LoopMode) : Bool :=
  match m with
  | .orphan | .seeking | .conflict => true
  | .held | .closed | .wrappedA | .wrappedB | .isolated => false

/-- The lock check: refused when the node's level is at or above the one given (R164). -/
def locked (level : Nat) (s : State) : Bool := decide (level ≤ s.lock.level)

/-- A reply or a notice waits undelivered (R182). -/
def waiting (s : State) : Bool :=
  !s.ctl.inbox.isEmpty || s.ctl.overflow.isSome || !s.ctl.notices.isEmpty

/-- The level of ATTN: low (false) while something waits, high while a reset is held (R182). -/
def attn (s : State) : Bool := s.inReset || !waiting s

/-- A node configured MASTER counts its table as current at all times (R76). -/
def copyCurrent (s : State) : Bool := s.isMaster || s.slots.current

/-- An input is in phantom mute (R119). -/
def muted (s : State) (input : Nat) : Bool :=
  match s.gain.table[input]? with
  | some e => e.mute.isSome
  | none => false

/-- The present sample of an input as every user takes it (R95). -/
def delivered (s : State) (input : Nat) : Sample :=
  if muted s input then 0 else s.lanes.present.getD input 0

/-- The allotment entry of a slot; a slot outside the table is free of any writer. -/
def entryAt (s : State) (slot : Nat) : SlotEntry := s.slots.table.getD slot slotFree

/-- The tap of an output. -/
def tapAt (s : State) (i : Nat) : Tap := s.lanes.taps.getD i .power

/-- The output record of an output. -/
def outAt (s : State) (i : Nat) : OutRec := s.safety.outs.getD i .power

/-- A talk bus is heard at the node (R104). -/
def heard (s : State) (b : Bus) : Bool :=
  writesCells (loopMode s) && copyCurrent s &&
    match (entryAt s (talkSlot s.start.rate b)).writer with
    | none => false
    | some w => w != s.start.id && inCopy s w

/-- The judgement of a tap's source (R100 to R102); a talk slot is no tap's source (R98). -/
def sourceValid (s : State) (src : TapSource) : Bool :=
  match src with
  | .unused => false
  | .loc _ => true
  | .talkOnly => true
  | .slot n =>
    let e := entryAt s n
    match loopMode s with
    | .closed | .wrappedA | .wrappedB =>
      copyCurrent s && e.state == .assigned &&
        (match e.writer with
        | some w => w == s.start.id || inCopy s w
        | none => false)
    | .isolated => e.writer == some s.start.id
    | .held | .seeking | .orphan | .conflict => false

/-- The receive side of a port counts as UP (R27). -/
def hearsPartner (r : PortRec) : Bool :=
  match r.state with
  | .up => true
  | .offer => r.offerAgreed
  | .dark | .seek | .settle | .mismatch | .drill => false

/-- A received offer agrees with the node's settings (R27). -/
def offerAgrees (s : State) (o : Offer) : Bool :=
  o.loopName == s.start.loopName && o.rate == s.start.rate

/-- The states in which a port is aligned (R25). -/
def isAligned (st : PortState) : Bool :=
  match st with
  | .settle | .offer | .up | .mismatch => true
  | .dark | .seek | .drill => false

/-- The port state as a LINK_NOTE gives it (R54). -/
def linkState (r : PortRec) : LinkState :=
  if r.state = .up && r.flags.remoteFault then .remoteFault else .port r.state

end Sys2Proof.Machine
end

