-- ==== Sys2Proof/Machine/Outputs.lean ====
section
/-! DEFINITION. The Output Safety Unit (Section 8): the output state machine, fades, resume, PANIC. -/

namespace Sys2Proof.Machine

open Sys2Proof

/-- What the output's tap and the node give an output record: fade length in frames, resume hold time,
whether a resume waits for RESUME (MANUAL with the host silent flag clear), and whether the safe mode is
FALLBACK. -/
structure OutCtx where
  len : Nat
  hold : Nat
  waits : Bool
  fallback : Bool
  deriving DecidableEq, Repr

/-- The fade length (R150). -/
def fadeLen (r : Rate) (t : Tap) : Nat := t.fade * framesPerMs r

def outCtx (s : State) (t : Tap) : OutCtx :=
  ⟨fadeLen s.start.rate t, ticksOf s.safety.holdMs, t.resume == .manual && !s.supervision.silent,
    match t.safe with
    | .mute => false
    | .fallback _ => true⟩

/-- FADING_IN from position 0; with a fade length of 0, LIVE at once (R150, R152). -/
def enterFadeIn (c : OutCtx) (r : OutRec) : OutRec :=
  { r with state := if c.len = 0 then .live else .fadingIn, pos := 0, hold := none, stage := .none }

/-- The resume of a SAFE output whose set is empty (R152). -/
def beginResume (c : OutCtx) (r : OutRec) : OutRec :=
  if c.waits then { r with hold := none, stage := .await }
  else if c.hold = 0 then enterFadeIn c r
  else { r with hold := some c.hold, stage := .hold }

/-- An output becomes SAFE; with its set empty the resume begins (R150, R152). -/
def becomeSafe (c : OutCtx) (r : OutRec) : OutRec :=
  let r' := { r with state := .safe, pos := 0, hold := none, stage := .none }
  if causesEmpty r.causes then beginResume c r' else r'

/-- FADING_OUT from a position; with a fade length of 0, SAFE at once (R149, R150). -/
def enterFadeOut (c : OutCtx) (pos : Nat) (r : OutRec) : OutRec :=
  if c.len = 0 then becomeSafe c r else { r with state := .fadingOut, pos := pos, entered := true }

/-- The safe cause set takes a new value (R147): R149 when it becomes non-empty, R152 when it empties. -/
def onCauses (c : OutCtx) (set : CauseSet) (r : OutRec) : OutRec :=
  let r' := { r with causes := set }
  if causesEmpty r.causes && !causesEmpty set then
    match r.state with
    | .live => enterFadeOut c c.len r'
    | .fadingIn => enterFadeOut c r.pos r'
    | .fadingOut => r'
    | .safe => { r' with hold := none, stage := .none }
    | .unused => r'
  else if !causesEmpty r.causes && causesEmpty set then
    match r.state with
    | .safe => beginResume c r'
    | .live | .fadingIn | .fadingOut | .unused => r'
  else r'

/-- The fallback weight rises: SAFE, safe mode FALLBACK, PANIC not in the set (R150). -/
def fallbackRises (c : OutCtx) (r : OutRec) : Bool :=
  r.state == .safe && c.fallback && !r.causes.panic

/-- The positions move once in a frame period (R150). -/
def moveFades (c : OutCtx) (r : OutRec) : OutRec :=
  { r with
    entered := false
    pos := match r.state with
      | .fadingOut => r.pos - 1
      | .fadingIn => min (r.pos + 1) c.len
      | .live => c.len
      | .safe | .unused => 0
    fallback := match r.state with
      | .unused => 0
      | .live | .fadingIn | .fadingOut | .safe =>
        if fallbackRises c r then min (r.fallback + 1) c.len else r.fallback - 1 }

/-- A fade has come to its end: FADING_OUT at 0, though not in the frame period in which it began (R152),
FADING_IN at the fade length (R150). -/
def fadeOutDue (r : OutRec) : Bool := r.state == .fadingOut && r.pos == 0 && !r.entered
def fadeInDue (c : OutCtx) (r : OutRec) : Bool := r.state == .fadingIn && decide (c.len ≤ r.pos)

/-- FADE_OUT_END: the output becomes SAFE (R150). -/
def endFadeOut (c : OutCtx) (r : OutRec) : OutRec := if fadeOutDue r then becomeSafe c r else r
/-- FADE_IN_END: the output becomes LIVE (R150). -/
def endFadeIn (c : OutCtx) (r : OutRec) : OutRec :=
  if fadeInDue c r then { r with state := .live, pos := c.len } else r
/-- The resume hold timer expires (R152). -/
def endHold (c : OutCtx) (r : OutRec) : OutRec := if isDue r.hold then enterFadeIn c r else r

/-- A change of fade length (R150); `c` is the context with the new length. -/
def rescale (old : Nat) (c : OutCtx) (r : OutRec) : OutRec :=
  if old = c.len then r
  else if c.len = 0 then
    match r.state with
    | .fadingOut => becomeSafe c { r with fallback := 0 }
    | .fadingIn => { r with state := .live, pos := 0, fallback := 0 }
    | .live | .safe | .unused => { r with pos := 0, fallback := 0 }
  else if old = 0 then
    { r with
      pos := if r.state = .live then c.len else 0
      fallback := if fallbackRises c r then c.len else 0 }
  else
    { r with
      pos := match r.state with
        | .fadingOut | .fadingIn => r.pos * c.len / old
        | .live => c.len
        | .safe | .unused => 0
      fallback := r.fallback * c.len / old }

/-- The output goes to UNUSED, from any state and without a fade (R155). -/
def toUnused (r : OutRec) : OutRec :=
  { r with
    state := .unused, pos := 0, fallback := 0, hold := none, stage := .none
    causes := { r.causes with sourceLost := false } }

/-- The output leaves UNUSED for SAFE, taking the new source's validity (R147, R155). -/
def fromUnused (c : OutCtx) (valid : Bool) (r : OutRec) : OutRec :=
  becomeSafe c { r with
    fallback := 0
    causes := { r.causes with sourceLost := !valid } }

/-- The sample an output lane carries (R107, R151). -/
def outSample (c : OutCtx) (composed : Sample) (fallbackIn : Sample) (r : OutRec) : Sample :=
  if r.state = .unused then 0
  else if c.len = 0 then
    if r.state = .live then composed else if fallbackRises c r then fallbackIn else 0
  else limit24 (nearest (composed.toInt * r.pos + fallbackIn.toInt * r.fallback) c.len)

/-! ### Over all outputs -/

/-- Apply a change to every output record, with its number and its tap. -/
def mapOuts (f : Nat → Tap → OutRec → OutRec) (s : State) : State :=
  { s with safety := { s.safety with
      outs := s.safety.outs.zipIdx.map fun (r, i) => f i (tapAt s i) r } }

/-- Apply a change to one output record. -/
def modifyOut (i : Nat) (f : OutRec → OutRec) (s : State) : State :=
  { s with safety := { s.safety with outs := s.safety.outs.modify i f } }

/-- The causes that follow the state: ORPHAN from the loop mode, SOURCE_LOST from the source's validity
(R147). -/
def derivedCauses (s : State) (t : Tap) (set : CauseSet) : CauseSet :=
  { set with
    orphan := orphanMode (loopMode s)
    sourceLost := t.source != .unused && !t.valid }

/-- Take ORPHAN and SOURCE_LOST at every output as they now stand (R147). Where one change brings or ends both, they
are taken together, not as two events (log entry 81, DESIGN CHOICE). -/
def syncCauses (s : State) : State :=
  mapOuts (fun _ t r => onCauses (outCtx s t) (derivedCauses s t r.causes) r) s

/-- The filtered PANIC level changes (R147, R157). -/
def setPanic (on : Bool) (s : State) : State :=
  mapOuts (fun _ t r =>
      if t.panicFollow then onCauses (outCtx s t) { r.causes with panic := on } r else r)
    { s with safety := { s.safety with panicOn := on, panicT := none } }

/-- The host silent flag becomes set: MANUAL outputs in AWAIT begin to resume (R154); `s` holds the flag. -/
def onSilenceSet (s : State) : State :=
  mapOuts (fun _ t r =>
    if t.resume = .manual && r.state = .safe && causesEmpty r.causes && r.stage = .await then
      beginResume (outCtx s t) r
    else r) s

/-- The host silent flag becomes clear: MANUAL outputs that hold go to AWAIT (R154). -/
def onSilenceClear (s : State) : State :=
  mapOuts (fun _ t r =>
    if t.resume = .manual && r.state = .safe && r.hold.isSome then
      { r with hold := none, stage := .await }
    else r) s

/-! ### OUTPUT_CHANGE (R160) -/

/-- What OUTPUT_CHANGE reports of a record. -/
def outKey (r : OutRec) : OutState × ReportedCause × CauseSet × ResumeStage :=
  (r.state, reportedCause r.causes, r.causes, r.stage)

/-- The record changed its state, reported cause or resume stage. -/
def outChanged (a b : OutRec) : Bool :=
  a.state != b.state || reportedCause a.causes != reportedCause b.causes || a.stage != b.stage

/-- Put an output into the group of its combination, or open a new group behind the others. -/
def groupIn (i : Nat) (r : OutRec) : List (List Nat × OutRec) → List (List Nat × OutRec)
  | [] => [([i], r)]
  | (l, q) :: rest =>
    if outKey q = outKey r then (l ++ [i], q) :: rest else (l, q) :: groupIn i r rest

/-- The outputs changed between two lists of records, grouped by combination, in ascending order of the
lowest output of each group. -/
def changedGroups (old new : List OutRec) : List (List Nat × OutRec) :=
  ((List.zip old new).zipIdx.filter fun ((a, b), _) => outChanged a b).foldl
    (fun acc ((_, b), i) => groupIn i b acc) []

/-- Raise OUTPUT_CHANGE for what changed since `old` (R160). -/
def reportOutputs (old : List OutRec) (s : State) : State :=
  (changedGroups old s.safety.outs).foldl
    (fun s (l, r) =>
      notify (.outputChange l r.state (reportedCause r.causes) r.causes r.stage) s) s

/-- The outputs in one state (R161). -/
def outsIn (st : OutState) (s : State) : List Nat :=
  (s.safety.outs.zipIdx.filter fun (r, _) => decide (r.state = st)).map (·.2)

end Sys2Proof.Machine
end

