-- ==== Sys2Proof/Machine/Lanes.lean ====
section
/-! DEFINITION. The Local Lane Unit (Section 5), the gain cache and the tracking trims (6.5, 6.6). -/

namespace Sys2Proof.Machine

open Sys2Proof

/-! ### Source validity (R100 to R102) -/

/-- Judge every tap's source anew, hand the outcome to the outputs, and silence the held talk sample of
a bus that is not heard (R102, R104, R147). -/
def rejudge (s : State) : State :=
  let taps := s.lanes.taps.map fun t => { t with valid := sourceValid s t.source }
  let talk := allBuses.map fun b => if heard s b then s.lanes.heldTalk.getD (busIndex b) 0 else 0
  syncCauses { s with lanes := { s.lanes with taps := taps, heldTalk := talk } }

/-! ### Tracking (R124 to R126) -/

/-- Trim and flags of a tracking tap from its slot's cache entry (R124). -/
def trackTap (id : NodeId) (e : CacheEntry) (t : Tap) : Tap :=
  match e with
  | none => { t with unknown := true }
  | some (g, _) =>
    if g.owner = some id then { t with trim := 0, unknown := false, limit := false }
    else
      let d : Int := (t.refGain : Int) - (g.gain : Int)
      { t with
        trim := max (-40) (min 40 d)
        unknown := false
        limit := decide (d < -40) || decide (40 < d) }

/-- The tap's tracking is on and it hears this slot. -/
def tracksSlot (slot : Nat) (t : Tap) : Bool := t.tracking && t.source == .slot slot

/-- The cache entry behind a tap's slot. -/
def cacheAt (s : State) (slot : Nat) : CacheEntry := s.lanes.cache.getD slot none

/-- Raise TRACK_LIMIT for one tap whose flag went from clear to set (R126). -/
def noticeLimit (i : Nat) (old new : Tap) (s : State) : State :=
  if !old.limit && new.limit then
    match new.source with
    | .slot n =>
      match cacheAt s n with
      | some (g, _) =>
        notify (.trackLimit i n g.gain new.refGain ((new.refGain : Int) - (g.gain : Int)) new.trim) s
      | none => s
    | .unused | .loc _ | .talkOnly => s
  else s

/-- Replace the taps by a function of each, raising TRACK_LIMIT where its flag rises (R126). -/
def updateTaps (f : Tap → Tap) (s : State) : State :=
  let old := s.lanes.taps
  let s' := { s with lanes := { s.lanes with taps := old.map f } }
  (old.zipIdx).foldl (fun a (t, i) => noticeLimit i t (f t) a) s'

/-- The end of this node's ownership of an entry sets the reference to the entry's new gain (R125). -/
def ownershipEnd (id : NodeId) (old new : CacheEntry) (t : Tap) : Tap :=
  match old, new with
  | some (g, _), some (g', _) =>
    if g.owner = some id && g'.owner != some id then { t with refGain := g'.gain } else t
  | none, _ => t
  | some _, none => t

/-- A cache entry takes a value; a change is handed to the tracking rules in the same event (R122,
R124). -/
def setCache (slot : Nat) (e : CacheEntry) (s : State) : State :=
  let old := cacheAt s slot
  if old = e then s
  else
    updateTaps (fun t =>
        if tracksSlot slot t then trackTap s.start.id e (ownershipEnd s.start.id old e t) else t)
      { s with lanes := { s.lanes with cache := s.lanes.cache.set slot e } }

/-- Every entry becomes unknown: every tracking tap keeps its trim with UNKNOWN set (R121, R124). -/
def clearCache (s : State) : State :=
  { s with lanes := { s.lanes with
      cache := s.lanes.cache.map fun _ => none
      taps := s.lanes.taps.map fun t => if t.tracking then { t with unknown := true } else t } }

/-- The slots ASSIGNED to a writer, with the input they carry. -/
def slotsOf (s : State) (w : NodeId) : List (Nat × Nat) :=
  s.slots.table.zipIdx.filterMap fun (e, i) =>
    if e.state = .assigned && e.writer = some w then e.input.map fun inp => (i, inp) else none

/-- At a STAGE node the entries of its own slots are its own applied settings (R121). -/
def refreshOwnCache (s : State) : State :=
  if s.isStage && copyCurrent s then
    (slotsOf s s.start.id).foldl (fun a (slot, inp) =>
      match a.gain.table[inp]? with
      | some e => setCache slot (some (e.applied, e.serial)) a
      | none => a) s
  else s

/-- The entry takes a note's or a piece's values: when unknown, or when the serial is newer (R122). -/
def cacheTakes (e : CacheEntry) (serial : GainSerial) : Bool :=
  match e with
  | none => true
  | some (_, r) => newer8 serial r

/-- The slots of a sender's input whose entry a setting updates (R122, R123). -/
def cacheTargets (s : State) (sender : NodeId) (input : Nat) (serial : GainSerial) : List Nat :=
  if copyCurrent s then
    ((slotsOf s sender).filter fun (slot, inp) =>
      decide (inp = input) && cacheTakes (cacheAt s slot) serial).map (·.1)
  else []

/-- Update the cache from a setting of a sender's input (R122, R123). -/
def cacheUpdate (sender : NodeId) (input : Nat) (g : GainSetting) (serial : GainSerial) (s : State) :
    State :=
  (cacheTargets s sender input serial).foldl (fun a slot => setCache slot (some (g, serial)) a) s

/-! ### Samples (R95, R103 to R107) -/

/-- The samples a frame period brings to the taps: LOCAL sources, and the internal path of an ISOLATED
node (R101, R103). -/
def periodSamples (s : State) : State :=
  { s with lanes := { s.lanes with taps := s.lanes.taps.map fun t =>
      match t.source with
      | .loc i => { t with held := delivered s i }
      | .slot n =>
        if loopMode s = .isolated && t.valid then
          match (entryAt s n).input with
          | some i => { t with held := delivered s i }
          | none => t
        else t
      | .unused | .talkOnly => t } }

/-- Step 2 of a first visit: SLOT taps and heard talk buses take their samples (R103, R104). -/
def visitSamples (slots : List Sample) (s : State) : State :=
  { s with lanes := { s.lanes with
      taps := s.lanes.taps.map fun t =>
        match t.source with
        | .slot n => if loopMode s != .isolated && t.valid then { t with held := slots.getD n 0 } else t
        | .unused | .loc _ | .talkOnly => t
      heldTalk := allBuses.map fun b =>
        if heard s b then slots.getD (talkSlot s.start.rate b) 0 else 0 } }

/-- The buses of a tap's listen set that are heard (R104, R106). -/
def heardOf (s : State) (t : Tap) : List Bus := allBuses.filter fun b => busHas t.listen b && heard s b

/-- The composed signal of a tap (R105, R106). -/
def composed (s : State) (t : Tap) : Sample :=
  let on := heardOf s t
  let talk : Int := on.foldl (fun a b => a + (s.lanes.heldTalk.getD (busIndex b) 0).toInt) 0
  let dim : Int := if t.dim && !on.isEmpty then t.dimDepth else 0
  match t.source with
  | .slot _ | .loc _ => limit24 (dbSum t.held.toInt (t.trim + dim) talk)
  | .unused | .talkOnly => limit24 talk

/-- The output lane frames of the period: sample and valid flag per output (R96, R107, R151). -/
def laneFrame (s : State) : State :=
  { s with lanes := { s.lanes with out := some (s.safety.outs.zipIdx.map fun (r, i) =>
      ⟨outSample (outCtx s (tapAt s i)) (composed s (tapAt s i)) (delivered s r.fbInput) r,
        validFlag r.state⟩) } }

/-! ### Latencies (R10, R108) -/

/-- The latency by the positions of a writer and of this node in the map copy (R108). -/
def positionLatency (s : State) (w : NodeId) : Latency :=
  match copyPos s w, copyPos s s.start.id with
  | some p, some q => if p < q then .frames 0 else .frames 1
  | none, _ => .unknown
  | some _, none => .unknown

/-- The program latency of a tap (R108). -/
def programLatency (s : State) (t : Tap) : Latency :=
  match t.source with
  | .unused | .talkOnly => .absent
  | .loc _ => .frames 0
  | .slot n =>
    if !t.valid then .absent
    else if loopMode s = .isolated then .frames 0
    else
      match (entryAt s n).writer with
      | none => .absent
      | some w => if w = s.start.id then .frames 1 else positionLatency s w

/-- The talk latencies of a tap's heard buses (R108). -/
def talkLatencies (s : State) (t : Tap) : List (Bus × Latency) :=
  (heardOf s t).map fun b =>
    (b, match (entryAt s (talkSlot s.start.rate b)).writer with
      | some w => positionLatency s w
      | none => .unknown)

end Sys2Proof.Machine
end

