-- ==== Sys2Proof/Machine/Slots.lean ====
section
/-! DEFINITION. The Slot Router (Section 4): currency, arbitration, ALLOT and snapshot application, slot
writing. -/

namespace Sys2Proof.Machine

open Sys2Proof

/-! ### Currency (R76, R77, R92) -/

/-- The condition under which the currency retry timer runs (R92). -/
def retryCond (s : State) : Bool :=
  !s.isMaster && !s.slots.current && s.loop.following &&
    match s.loop.group with
    | some g => g.rank == .master
    | none => false

/-- Start the retry timer when its condition begins, stop it when it ends (R92). -/
def retryCheck (s : State) : State :=
  if retryCond s then
    match s.slots.retry with
    | some _ => s
    | none => { s with slots := { s.slots with retry := some (ticksOf Config.retryMs) } }
  else { s with slots := { s.slots with retry := none } }

/-- Restart a running retry timer (R92). -/
def retryRestart (s : State) : State :=
  { s with slots := { s.slots with retry := s.slots.retry.map fun _ => ticksOf Config.retryMs } }

/-- The copy stops being current: the gain cache is told, and with it every entry (R77, R121). -/
def loseCurrency (s : State) : State :=
  if s.isMaster || !s.slots.current then s
  else clearCache { s with slots := { s.slots with current := false } }

/-- Queue a SNAP_REQ, unless one stands unsent (R92). -/
def pushSnapReq (s : State) : State :=
  if s.isMaster then s
  else if hasUnsent (fun m => match m with | .snapReq _ => true | _ => false) s then s
  else pushInternal .origin (.snapReq s.slots.lastApplied) s

/-! ### TALK entries (R74, R140, R144) -/

/-- Set the writer node of a bus's TALK entry (R140). -/
def setTalkWriter (b : Bus) (w : Option NodeId) (s : State) : State :=
  { s with slots := { s.slots with
      table := s.slots.table.modify (talkSlot s.start.rate b) fun e => { e with writer := w } } }

/-- Every TALK entry is set to no writer (R144). -/
def clearTalkEntries (s : State) : State :=
  { s with slots := { s.slots with table := s.slots.table.map fun e =>
      if e.state = .talk then { e with writer := none } else e } }

/-! ### Arbitration at the master (R82 to R86) -/

/-- A change in flight stands at the slot, or was decided by an earlier pair of the message (R83). -/
def slotBusy (r : SlotRec) (taken : List Nat) (n : Nat) : Bool :=
  (r.inFlight.getD n none).isSome || taken.contains n

/-- The slot is FREE, not unsettled and without a change in flight (R83). -/
def slotOpen (r : SlotRec) (taken : List Nat) (n : Nat) : Bool :=
  (r.table.getD n slotFree).state == .free && !r.unsettled.getD n false && !slotBusy r taken n

/-- The lowest open slot below the talk slots (R83). -/
def lowestOpen (rate : Rate) (r : SlotRec) (taken : List Nat) : Option Nat :=
  (List.range (firstTalk rate)).find? (slotOpen r taken)

/-- One pair of a claim (R83): the result and the change it decides. R83 has no line for a slot outside the slot
range in a SLOT_CLAIM; the model refuses it with RANGE, as R80 does a request (log entry 53, DESIGN CHOICE). -/
def claimPair (rate : Rate) (r : SlotRec) (w : NodeId) (taken : List Nat) (p : ClaimPair) :
    PairResult × Option SlotChange :=
  match p.slot with
  | none =>
    match lowestOpen rate r taken with
    | some n => (.slot n, some ⟨n, some (w, p.input)⟩)
    | none => (.refused .full, none)
  | some n =>
    if slotCount rate ≤ n then (.refused .range, none)
    else if firstTalk rate ≤ n then (.refused .reserved, none)
    else if slotBusy r taken n then (.refused .taken, none)
    else
      let e := r.table.getD n slotFree
      match e.state with
      | .free =>
        if r.unsettled.getD n false then (.refused .taken, none)
        else (.slot n, some ⟨n, some (w, p.input)⟩)
      | .assigned =>
        if e.writer = some w then
          if e.input = some p.input then (.slot n, none) else (.slot n, some ⟨n, some (w, p.input)⟩)
        else (.refused .taken, none)
      | .talk => (.refused .reserved, none)

/-- The pairs of a claim in order, each seeing the changes of the earlier ones (R83). -/
def claimPairs (rate : Rate) (r : SlotRec) (w : NodeId) :
    List Nat → List ClaimPair → List PairResult × List SlotChange
  | _, [] => ([], [])
  | taken, p :: ps =>
    let (res, ch) := claimPair rate r w taken p
    let (rs, cs) := claimPairs rate r w (match ch with | some c => c.slot :: taken | none => taken) ps
    (res :: rs, match ch with | some c => c :: cs | none => cs)

/-- One slot of a release (R84). R84 has no line for a slot outside the slot range in a SLOT_RELEASE; the model
refuses it with RANGE, as R81 does a request (log entry 53, DESIGN CHOICE). -/
def releaseSlot1 (rate : Rate) (r : SlotRec) (w : NodeId) (force : Bool) (taken : List Nat) (n : Nat) :
    PairResult × Option SlotChange :=
  if slotCount rate ≤ n then (.refused .range, none)
  else if firstTalk rate ≤ n then (.refused .reserved, none)
  else if slotBusy r taken n then (.refused .state, none)
  else
    let e := r.table.getD n slotFree
    if e.state = .assigned && (e.writer = some w || force) then (.slot n, some ⟨n, none⟩)
    else (.refused .notOwner, none)

/-- The slots of a release in order (R84). -/
def releaseSlots (rate : Rate) (r : SlotRec) (w : NodeId) (force : Bool) :
    List Nat → List Nat → List PairResult × List SlotChange
  | _, [] => ([], [])
  | taken, n :: ns =>
    let (res, ch) := releaseSlot1 rate r w force taken n
    let (rs, cs) :=
      releaseSlots rate r w force (match ch with | some c => c.slot :: taken | none => taken) ns
    (res :: rs, match ch with | some c => c :: cs | none => cs)

/-- The changes of one claim or release are issued together (R85). -/
def issueChanges (changes : List SlotChange) (s : State) : State :=
  if changes.isEmpty then s
  else
    let serial := s.slots.issued + 1
    let s' := { s with slots := { s.slots with
      issued := serial
      inFlight := changes.foldl (fun l c => l.set c.slot (some (c, serial))) s.slots.inFlight } }
    pushInternal .all (.allot serial changes) s'

/-- What a message or request asks of the allotment: pairs to claim, or slots to release. -/
inductive SlotAsk | claim (pairs : List ClaimPair) | release (slots : List Nat) (force : Bool)
  deriving DecidableEq, Repr

/-- How many pairs an ask has. -/
def askSize : SlotAsk → Nat
  | .claim ps => ps.length
  | .release ns _ => ns.length

/-- The master's decision of an ask, its own lock level applied (R82, R83, R84, R165): the results and
the changes. -/
def arbitrate (s : State) (w : NodeId) (a : SlotAsk) : List PairResult × List SlotChange :=
  if 1 ≤ s.lock.level then (List.replicate (askSize a) (.refused .locked), [])
  else match a with
    | .claim ps => claimPairs s.start.rate s.slots w [] ps
    | .release ns f => releaseSlots s.start.rate s.slots w f [] ns

/-- Queue a SLOT_ANSWER (R82). -/
def pushAnswer (w : NodeId) (tag : Byte) (res : List PairResult) (s : State) : State :=
  pushInternal (.node w) (.slotAnswer tag res) s

/-- Write the sender's answer record (R75, R82). -/
def recordAnswer (w : NodeId) (tag : Byte) (num : MsgNo) (res : List PairResult) (s : State) : State :=
  { s with slots := { s.slots with answers := s.slots.answers.set w.val (some ⟨tag, num, res⟩) } }

/-- A SLOT_CLAIM or SLOT_RELEASE acted on (R82). -/
def takeSlotAsk (w : NodeId) (tag : Byte) (num : MsgNo) (a : SlotAsk) (s : State) : State :=
  let all (r : Reason) := List.replicate (askSize a) (PairResult.refused r)
  if !s.isMaster then
    if s.isOrigin then pushAnswer w tag (all .notMaster) s else s
  else
    let fresh : State :=
      if queueLen s = 15 then recordAnswer w tag num (all .state) (pushAnswer w tag (all .state) s)
      else if 16 ≤ queueLen s then s
      else
        let (res, ch) := arbitrate s w a
        recordAnswer w tag num res (pushAnswer w tag res (issueChanges ch s))
    match s.slots.answers.getD w.val none with
    | some r => if r.tag = tag && r.num = num then pushAnswer w tag r.results s else fresh
    | none => fresh

/-- The slots a change list frees. -/
def freedSlots (changes : List SlotChange) : List Nat :=
  changes.filterMap fun c => if c.writer.isNone then some c.slot else none

/-- Set the unsettled mark of some slots (R86). -/
def markUnsettled (slots : List Nat) (v : Bool) (s : State) : State :=
  { s with slots := { s.slots with unsettled := slots.foldl (fun l n => l.set n v) s.slots.unsettled } }

/-- An ALLOT of the master is dropped unconfirmed (R85). -/
def allotDropped (changes : List SlotChange) (s : State) : State :=
  needAllotSnap (markUnsettled (freedSlots changes) true s)

/-- An ALLOT of the master is confirmed: slots it freed and that are already FREE by it settle (R86). -/
def allotConfirmed (serial : Serial) (changes : List SlotChange) (s : State) : State :=
  markUnsettled ((freedSlots changes).filter fun n => (entryAt s n).serial = some serial) false s

/-- An ALLOT is lost to the master without being applied (R85). -/
def allotLost (serial : Serial) (s : State) : State :=
  { s with slots := { s.slots with
      issued := s.slots.applied
      inFlight := s.slots.inFlight.map fun f => match f with
        | some (c, n) => if n = serial then none else some (c, n)
        | none => none } }

/-! ### Application (R79, R91) -/

/-- The entry a change makes (R79). -/
def changedEntry (serial : Serial) (c : SlotChange) : SlotEntry :=
  match c.writer with
  | none => ⟨.free, none, none, some serial⟩
  | some (w, i) => ⟨.assigned, some w, some i, some serial⟩

/-- The writer node or writer input of two entries differs (R79, R91). -/
def writerDiffers (a b : SlotEntry) : Bool := a.writer != b.writer || a.input != b.input

/-- Replace the table; the gain cache is told of the given slots, which become unknown, and a STAGE node
then takes its own slots from its gain table (R79, R91, R121). -/
def replaceTable (table : List SlotEntry) (told : List Nat) (s : State) : State :=
  refreshOwnCache
    (told.foldl (fun a n => setCache n none a) { s with slots := { s.slots with table := table } })

/-- The slots whose writer node or input differs between two tables. -/
def differing (old new : List SlotEntry) : List Nat :=
  ((List.zip old new).zipIdx.filter fun ((a, b), _) => writerDiffers a b).map (·.2)

/-- This node becomes the writer of a slot, or the input of a slot it writes changes (R120). -/
def ownChange (id : NodeId) (old new : List SlotEntry) : Bool :=
  (List.zip old new).any fun (a, b) => writerDiffers a b && b.writer == some id && b.state == .assigned

/-- Make an ALLOT's changes in the table (R79, R120). -/
def makeChanges (serial : Serial) (changes : List SlotChange) (s : State) : State :=
  let old := s.slots.table
  let new := changes.foldl (fun l c => l.set c.slot (changedEntry serial c)) old
  let s' := replaceTable new (differing old new) s
  rejudge (if ownChange s.start.id old new then needGainSnap s' else s')

/-- Apply an ALLOT (R79, R86). -/
def applyAllot (serial : Serial) (changes : List SlotChange) (confirmed : Bool) (s : State) : State :=
  if s.isMaster then
    let s' := makeChanges serial changes s
    let s' := markUnsettled (changes.map (·.slot)) false s'
    let s' := markUnsettled (freedSlots changes) (!confirmed) s'
    { s' with slots := { s'.slots with
        applied := serial
        inFlight := changes.foldl (fun l c => l.set c.slot none) s'.slots.inFlight } }
  else
    let inSequence := match s.slots.lastApplied with
      | none => true
      | some r => serial == r + 1
    if s.slots.current && inSequence then
      let s' := makeChanges serial changes s
      { s' with slots := { s'.slots with lastApplied := some serial } }
    else s

/-- A GO that waits ends when the copy becomes current (R177). -/
def goDone (e : GoEnd) (s : State) : State :=
  match s.ctl.ops.findSome? fun o => match o with
    | some o => if o.kind = .go then some o.tag else none
    | none => none with
  | some tag => endOp tag .ok (.go e) s
  | none => s

/-- Where a snapshot changes a TALK entry's writer node, the bus view's talker becomes that node with its
key unknown (R140). -/
def snapViews (old new : List SlotEntry) (s : State) : State :=
  { s with talk := { s.talk with views := s.talk.views.zipIdx.map fun (v, i) =>
      let n := firstTalk s.start.rate + i
      let w := (new.getD n slotFree).writer
      if (old.getD n slotFree).writer = w then v else { v with talker := w.map fun x => (x, none) } } }

/-- The collection holds every piece. -/
def collectionFull (c : Collection) : Bool := c.pieces.all Option.isSome

/-- The pending entry of an allotment snapshot is applied (R91): complete, or incomplete; at the master it
clears every unsettled mark (R86). A collection that a newer one supersedes is discarded by `supersede`. -/
def applySnapshot (frame : FrameNo) (s : State) : State :=
  if s.isMaster then
    if reached s.loop.count frame then
      needGainSnap { s with slots := { s.slots with unsettled := s.slots.unsettled.map fun _ => false } }
    else s
  else
    match s.slots.collection with
    | none => s
    | some c =>
      let bare := { s with slots := { s.slots with collection := none } }
      if reached s.loop.count frame && collectionFull c && writesCells (loopMode s) then
        let old := s.slots.table
        let new := (c.pieces.filterMap id).flatten
        let told := if s.slots.current then differing old new else List.range new.length
        let s' := { bare with slots := { bare.slots with current := true, lastApplied := some c.serial } }
        goDone .current (rejudge (retryCheck (needGainSnap (snapViews old new (replaceTable new told s')))))
      else if s.slots.current then bare
      else retryRestart (pushSnapReq bare)

/-! ### SNAP pieces (R89, R90) -/

/-- The number of pieces of an allotment snapshot (R15). -/
def pieceCount (r : Rate) : Nat := slotCount r / 4

/-- The four entries of a piece (R89). -/
def pieceEntries (s : State) (n : Nat) : List SlotEntry :=
  (List.range 4).map fun i => entryAt s (4 * n + i)

/-- The held collection is of this serial and switch frame (R90). -/
def sameCollection (s : State) (serial : Serial) (frame : FrameNo) : Bool :=
  match s.slots.collection with
  | some c => c.serial == serial && c.frame == frame
  | none => false

/-- Store a piece in the collection (R90). -/
def storePiece (n : Nat) (entries : List SlotEntry) (s : State) : State :=
  { s with slots := { s.slots with collection := s.slots.collection.map fun c =>
      { c with pieces := c.pieces.set n (some entries) } } }

/-- Begin a collection with one stored piece (R90). -/
def beginCollection (serial : Serial) (frame : FrameNo) (n : Nat) (entries : List SlotEntry)
    (s : State) : State :=
  storePiece n entries { s with slots := { s.slots with
    collection := some ⟨serial, frame, List.replicate (pieceCount s.start.rate) none⟩ } }

/-- The master acts on a SNAP_REQ (R92). -/
def takeSnapReq (w : NodeId) (last : Option Serial) (s : State) : State :=
  if s.isMaster then
    needAllotSnap { s with slots := { s.slots with requests := s.slots.requests.set w.val last } }
  else s

/-! ### Slots of a frame (R7, R93) -/

/-- The zeroing at origination (R7). -/
def zeroSlots (s : State) (slots : List Sample) : List Sample :=
  slots.zipIdx.map fun (x, i) =>
    let e := entryAt s i
    match e.state with
    | .free => 0
    | .assigned => x
    | .talk => if e.writer.isNone then 0 else x

/-- Step 4: write the node's local inputs into its slots, while its copy is current (R93). -/
def writeSlots (s : State) (slots : List Sample) : List Sample :=
  if copyCurrent s then
    (slotsOf s s.start.id).foldl (fun l (n, inp) => l.set n (delivered s inp)) slots
  else slots

end Sys2Proof.Machine
end

