-- ==== Sys2Proof/Machine/Gain.lean ====
section
/-! DEFINITION. The Gain Controller (Section 6): the gain table, decisions, applications, losses, the
preamp lane and gain snapshots. -/

namespace Sys2Proof.Machine

open Sys2Proof

/-- The gain table entry of an input. -/
def gainAt (s : State) (i : Nat) : GainEntry := s.gain.table.getD i .power

/-- The decided setting of an input (R110). -/
def decidedSetting (e : GainEntry) : GainSetting :=
  match e.inFlight with
  | some f => f.setting
  | none => e.applied

/-- Replace one gain table entry. -/
def setGainEntry (i : Nat) (e : GainEntry) (s : State) : State :=
  { s with gain := { s.gain with table := s.gain.table.set i e } }

/-! ### The preamp lane (R111) -/

/-- The record of an input's applied setting. -/
def recordOf (i : Nat) (g : GainSetting) : PreampRecord := ⟨i, g.gain, g.pad, g.phantom⟩

/-- Queue a record; a waiting record of the same input is replaced in place (R111). -/
def queueRecord (r : PreampRecord) (l : List PreampRecord) : List PreampRecord :=
  if l.any fun x => decide (x.input = r.input) then
    l.map fun x => if x.input = r.input then r else x
  else l ++ [r]

/-- The lane sends the queue's first record, one in each frame period; none at a DESK node (R111). -/
def sendRecord (s : State) : State :=
  if s.isStage && !s.gain.laneUsed then
    match s.gain.records with
    | [] => s
    | r :: l => { s with gain := { s.gain with records := l, lane := some r, laneUsed := true } }
  else s

/-! ### Application (R117, R119) -/

/-- Gain, pad or phantom differ: a record is due (R111, R117). -/
def preampDiffers (a b : GainSetting) : Bool :=
  a.gain != b.gain || a.pad != b.pad || a.phantom != b.phantom

/-- The phantom-mute timer after an application (R119); a mute time of 0 starts no timer. -/
def muteAfter (muteMs : Nat) (old new : GainSetting) (t : Timer) : Timer :=
  if old.phantom != new.phantom && muteMs != 0 then some (ticksOf muteMs) else t

/-- The entry after a setting is applied (R117). -/
def appliedEntry (muteMs : Nat) (g : GainSetting) (serial : GainSerial) (e : GainEntry) : GainEntry :=
  { e with
    applied := g
    serial := serial
    inFlight := match e.inFlight with
      | some f => if f.serial = serial then none else some f
      | none => none
    mute := muteAfter muteMs e.applied g e.mute }

/-- The node's own cache entries of one input follow its applied setting (R121). -/
def refreshInputCache (i : Nat) (s : State) : State :=
  if s.isStage && copyCurrent s then
    ((slotsOf s s.start.id).filter fun (_, inp) => decide (inp = i)).foldl
      (fun a (slot, _) => setCache slot (some ((gainAt s i).applied, (gainAt s i).serial)) a) s
  else s

/-- Apply a change at the STAGE node, without the notice (R117). -/
def applyGainQuiet (i : Nat) (g : GainSetting) (serial : GainSerial) (s : State) : State :=
  match s.gain.table[i]? with
  | none => s
  | some e =>
    if newer8 serial e.serial then
      let s' := setGainEntry i (appliedEntry s.gain.muteMs g serial e) s
      let s' := { s' with gain := { s'.gain with
        records := if preampDiffers e.applied g then queueRecord (recordOf i g) s.gain.records
          else s.gain.records } }
      refreshInputCache i s'
    else s

/-- Apply a change at the STAGE node (R117, R126). -/
def applyGain (i : Nat) (g : GainSetting) (serial : GainSerial) (cause : GainCause) (s : State) : State :=
  match s.gain.table[i]? with
  | none => s
  | some e =>
    if newer8 serial e.serial then notify (.gainChange i g serial cause) (applyGainQuiet i g serial s)
    else s

/-- A GAIN_NOTE's pending entry is applied (R117, R122, R126). -/
def applyNote (sender : NodeId) (i : Nat) (g : GainSetting) (serial : GainSerial) (cause : GainCause)
    (s : State) : State :=
  if sender = s.start.id then applyGain i g serial cause s
  else
    let slots := cacheTargets s sender i serial
    if slots.isEmpty then s
    else notify (.gainCacheChange sender i g serial slots) (cacheUpdate sender i g serial s)

/-- A GAIN_SNAP piece acted on (R123). -/
def takeGainSnap (sender : NodeId) (piece : Nat) (entries : List (GainSetting × GainSerial))
    (s : State) : State :=
  entries.zipIdx.foldl (fun a ((g, serial), i) => cacheUpdate sender (4 * piece + i) g serial a) s

/-! ### Losses (R118) -/

/-- The entry after its change in flight is lost (R118). -/
def lostEntry (e : GainEntry) : GainEntry :=
  { e with inFlight := none, issued := e.issued + 1, serial := e.issued + 1 }

/-- A decided change is lost before its application (R118, R126). -/
def loseGain (i : Nat) (serial : GainSerial) (s : State) : State :=
  match s.gain.table[i]? with
  | none => s
  | some e =>
    match e.inFlight with
    | none => s
    | some f =>
      if f.serial = serial then
        notify (.gainChange i e.applied (e.issued + 1) .loss)
          (needGainSnap (refreshInputCache i (setGainEntry i (lostEntry e) s)))
      else s

/-! ### Decisions (R113 to R115) -/

/-- The change becomes the change in flight with a fresh serial (R115). -/
def decideEntry (g : GainSetting) (e : GainEntry) : GainEntry :=
  { e with issued := e.issued + 1, inFlight := some ⟨g, e.issued + 1⟩ }

/-- An accepted change: decided, and its GAIN_NOTE queued (R115). -/
def decideGain (i : Nat) (g : GainSetting) (cause : GainCause) (s : State) : State :=
  let e := gainAt s i
  pushGainNote (.gainNote i g (e.issued + 1)) cause (setGainEntry i (decideEntry g e) s)

/-- A local change outside the cell-writing modes: decided and applied at once, without a GAIN_NOTE
(R113, R117). -/
def decideAtOnce (i : Nat) (g : GainSetting) (s : State) : State :=
  let e := gainAt s i
  needGainSnap (applyGain i g (e.issued + 1) .loc (setGainEntry i (decideEntry g e) s))

/-- What a message asks of the Gain Controller. -/
inductive GainAsk
  | set (gain : Option Nat) (pad : Option Nat) (phantom : Option Nat)
  | claim (force : Bool)
  | yld
  deriving DecidableEq, Repr

/-- A pad or phantom number of a message stands for on (1) or off (0). -/
def asBool (n : Nat) : Bool := n == 1

/-- The ranges of R115's last paragraphs: input 0 to 63, gain 0 to 60, pad and phantom on or off, and one
of the three given. -/
def gainInRange (i : Nat) (a : GainAsk) : Bool :=
  decide (i < 64) &&
    match a with
    | .set g p ph =>
      (g.isSome || p.isSome || ph.isSome) && g.all (fun x => decide (x ≤ 60)) &&
        p.all (fun x => decide (x ≤ 1)) && ph.all (fun x => decide (x ≤ 1))
    | .claim _ | .yld => true

/-- The fields given, over a setting. -/
def withFields (d : GainSetting) (g : Option Nat) (p : Option Bool) (ph : Option Bool) : GainSetting :=
  { d with gain := g.getD d.gain, pad := p.getD d.pad, phantom := ph.getD d.phantom }

/-- R115's table: the outcome, and the new decided setting of an accepted message. A pad or phantom given with the
decided value asks for no change of it, as R113 words it for a local request, and is not refused LOCKED (log entry 79,
DESIGN CHOICE). -/
def judgeAsk (level : Nat) (w : NodeId) (d : GainSetting) (a : GainAsk) : Verdict × GainSetting :=
  match a with
  | .set g p ph =>
    let new := withFields d g (p.map asBool) (ph.map asBool)
    if d.owner ≠ some w then (.no .notOwner, d)
    else if 2 ≤ level && (new.pad != d.pad || new.phantom != d.phantom) then (.no .locked, d)
    else (.ok, new)
  | .claim force =>
    if d.owner = none || d.owner = some w then (.ok, { d with owner := some w })
    else if !force then (.no .owned, d)
    else if 2 ≤ level then (.no .locked, d)
    else (.ok, { d with owner := some w })
  | .yld =>
    if d.owner = some w then (.ok, { d with owner := none }) else (.no .notOwner, d)

/-- Queue a GAIN_ANSWER (R114). -/
def pushGainAnswer (w : NodeId) (tag : Byte) (v : Verdict) (s : State) : State :=
  pushInternal (.node w) (.gainAnswer tag v) s

/-- Answer and write the sender's answer record (R114). -/
def answerGain (w : NodeId) (tag : Byte) (num : MsgNo) (v : Verdict) (s : State) : State :=
  let s' := pushGainAnswer w tag v s
  { s' with gain := { s'.gain with answers := s'.gain.answers.set w.val (some ⟨tag, num, v⟩) } }

/-- Case 3 of R114: the message is decided by R115. -/
def decideAsk (w : NodeId) (tag : Byte) (num : MsgNo) (i : Nat) (a : GainAsk) (s : State) : State :=
  if !gainInRange i a then answerGain w tag num (.no .range) s
  else
    let d := decidedSetting (gainAt s i)
    let (v, new) := judgeAsk s.lock.level w d a
    answerGain w tag num v
      (if v = .ok && new != d then decideGain i new (.desk w) s else s)

/-- A GAIN_SET, GAIN_CLAIM or GAIN_YIELD acted on (R114); a DESK node passes it over (R19). -/
def takeGainAsk (w : NodeId) (tag : Byte) (num : MsgNo) (i : Nat) (a : GainAsk) (s : State) : State :=
  if !s.isStage then s
  else
    let fresh : State :=
      if queueLen s = 15 then answerGain w tag num (.no .state) s
      else if 16 ≤ queueLen s then s
      else decideAsk w tag num i a s
    match s.gain.answers.getD w.val none with
    | some r => if r.tag = tag && r.num = num then pushGainAnswer w tag r.outcome s else fresh
    | none => fresh

/-- A GAIN_ANSWER acted on by its addressee ends the AWAITING operation of its tag (R116, R184; log entry 23). -/
def takeGainAnswer (tag : Byte) (v : Verdict) (s : State) : State :=
  match findOp tag s with
  | none => s
  | some o =>
    match o.kind, o.stage with
    | .setGain, .awaiting | .claimGain, .awaiting | .yieldGain, .awaiting => endOp tag v (bareResult o) s
    | _, _ => s

/-! ### Gain snapshot pieces and phantom mute (R119, R120) -/

/-- The four inputs of a gain snapshot piece, as applied (R120). -/
def gainPiece (s : State) (n : Nat) : List (GainSetting × GainSerial) :=
  (List.range 4).map fun i => ((gainAt s (4 * n + i)).applied, (gainAt s (4 * n + i)).serial)

/-- PHANTOM_MUTE_EXPIRY: the mute ends; the lane's samples are delivered from the next frame period on,
so the present sample stays zero until then (R119). -/
def endMute (i : Nat) (s : State) : State :=
  if isDue (gainAt s i).mute then
    let s' := setGainEntry i { gainAt s i with mute := none } s
    { s' with lanes := { s'.lanes with present := s'.lanes.present.set i 0 } }
  else s

/-- The gain notes the node has sent and that are not yet applied: its own pending entries, and what the
queue still holds of them (an epoch change may have discarded the entry of a note that stands there). -/
def sentNotes (s : State) : List LoopMsg :=
  (s.switches.filterMap fun p => match p.item with
    | .msg m => if p.sender = s.start.id then some m else none
    | .snapshot _ => none) ++
  (s.queue.items.filter fun i => decide (0 < i.sends)).map (·.body)

/-- Every change whose note has been sent is applied at once in a SOFT reset (R118). -/
def applySentNotes (s : State) : State :=
  (sentNotes s).foldl (fun a m => match m with
    | .gainNote i g serial => applyGainQuiet i g serial a
    | _ => a) s

/-- The Gain Controller at a SOFT reset (R110, R111, R118): `s` holds the pending switch list and the
queue as they stood. A change still in flight after the sent notes are applied is lost. -/
def softGain (s : State) : GainRec :=
  let g := (applySentNotes s).gain
  let table := g.table.map fun e => match e.inFlight with
    | some _ => lostEntry e
    | none => e
  { g with
    table := table
    answers := List.replicate 8 none
    records := recordsOf table }

end Sys2Proof.Machine
end

