-- ==== Sys2Proof/Machine/Talk.lean ====
section
/-! DEFINITION. The Talk Unit (Section 7): key filter, press and lift, the origin's talk bus records,
grants and refusals, drops, writing the talk slots. -/

namespace Sys2Proof.Machine

open Sys2Proof

/-! ### Key records -/

def keyAt (s : State) (k : KeyName) : KeyRec := s.talk.keys.getD (keyIndex k) .power
def setKeyRec (k : KeyName) (r : KeyRec) (s : State) : State :=
  { s with talk := { s.talk with keys := s.talk.keys.set (keyIndex k) r } }
def modifyKey (k : KeyName) (f : KeyRec → KeyRec) (s : State) : State := setKeyRec k (f (keyAt s k)) s

/-- KEY_CHANGE with a cause (R145). -/
def notifyKey (k : KeyName) (c : KeyCause) (s : State) : State :=
  let r := keyAt s k
  notify (.keyChange k r.bus r.state r.latched c) s

/-- CLAIMING, TALKING or STACKED: the key has a claim up. -/
def keyActive (st : KeyState) : Bool :=
  match st with
  | .claiming | .talking | .stacked => true
  | .idle | .refused | .dropped => false

/-- The key takes a state in which it has no claim: latched clear, both timers stopped. -/
def restKey (st : KeyState) (r : KeyRec) : KeyRec :=
  { r with state := st, latched := false, press := none, answer := none }

/-- A key takes a state without a claim, and KEY_CHANGE says why. -/
def endKey (k : KeyName) (st : KeyState) (c : KeyCause) (s : State) : State :=
  notifyKey k c (modifyKey k (restKey st) s)

/-- A key takes a state with its claim up, and KEY_CHANGE says why (R141). -/
def moveKey (k : KeyName) (st : KeyState) (c : KeyCause) (s : State) : State :=
  notifyKey k c (modifyKey k (fun r => { r with state := st }) s)

def oweRelease (k : KeyName) (s : State) : State := modifyKey k (fun r => { r with releaseOwed := true }) s

/-! ### Talk bus records (R135 to R139) -/

def busAt (s : State) (b : Bus) : BusRec := s.talk.records.getD (busIndex b) .empty
def setBusRec (b : Bus) (r : BusRec) (s : State) : State :=
  { s with talk := { s.talk with records := s.talk.records.set (busIndex b) r } }

/-- What a decision calls for. -/
inductive TalkDecision | grant | refuse (r : TalkReason) | nothing
  deriving DecidableEq, Repr

/-- Remove a talker's claim from a stack. -/
def unstack (t : Talker) (l : List Claim) : List Claim := l.filter fun c => decide (c.talker ≠ t)

/-- R136's table. -/
def decideClaim (c : Claim) (r : BusRec) : BusRec × TalkDecision :=
  match r.decided with
  | none => ({ r with decided := some c, stack := unstack c.talker r.stack }, .grant)
  | some d =>
    if d.talker = c.talker then (r, .grant)
    else
      let stack := unstack c.talker r.stack
      if d.priority < c.priority then
        if stack.length < 8 then ({ r with decided := some c, stack := d :: stack }, .grant)
        else ({ r with stack := stack }, .refuse .full)
      else ({ r with stack := stack }, .refuse .lower)

/-- The top claim of the stack, if any, becomes the decided talker (R137). -/
def popTalker (r : BusRec) : BusRec := { r with decided := r.stack.head?, stack := r.stack.tail }

/-- R137. -/
def decideRelease (t : Talker) (r : BusRec) : BusRec × TalkDecision :=
  match r.decided with
  | none => ({ r with stack := unstack t r.stack }, .nothing)
  | some d => if d.talker = t then (popTalker r, .grant) else ({ r with stack := unstack t r.stack }, .nothing)

/-- The body of a bus's TALK_GRANT as its record stands (R139). -/
def grantBody (b : Bus) (r : BusRec) : LoopMsg :=
  .talkGrant b (r.decided.map (·.talker)) r.serial r.stack.length

/-- A TALK_GRANT of this bus. -/
def isGrantOf (b : Bus) (m : LoopMsg) : Bool :=
  match m with
  | .talkGrant b' _ _ _ => b' == b
  | _ => false

/-- Issue a TALK_GRANT (R139). -/
def issueGrant (b : Bus) (s : State) : State :=
  let r := { busAt s b with serial := (busAt s b).serial + 1 }
  let s' := setBusRec b r s
  if hasUnsent (isGrantOf b) s then
    { s' with queue := { s'.queue with
        items := replaceUnsent (isGrantOf b) (grantBody b r) s.loop.group s'.queue.items } }
  else if queueRoom s then push .all (grantBody b r) none .loc s'
  else setBusRec b { r with owed := true } s'

/-- The origin acts on talk messages: ORIGIN and not in CONFLICT (R135). -/
def decidesTalk (s : State) : Bool := s.isOrigin && s.loop.conflict.isNone

/-- A TALK_REFUSE applied at this node (R142). One that names a CLAIMING key on a bus other than the key's present one
leaves the key and its answer timer (R134; log entry 66, DESIGN CHOICE). -/
def applyRefuse (b : Bus) (n : NodeId) (k : KeyName) (why : TalkReason) (s : State) : State :=
  let r := keyAt s k
  if n = s.start.id && r.state = .claiming && r.bus = b then
    endKey k .refused (match why with | .lower => .lower | .full => .full) s
  else s

/-- A refusal leaves to its claimant, the origin's own key at once (R136). -/
def refuseClaim (b : Bus) (t : Talker) (why : TalkReason) (s : State) : State :=
  if t.node = s.start.id then applyRefuse b t.node t.key why s
  else pushInternal (.node t.node) (.talkRefuse b t.node t.key why) s

/-- What a decision calls for is done (R136, R137). -/
def carryOut (b : Bus) (t : Talker) (d : TalkDecision) (s : State) : State :=
  match d with
  | .grant => issueGrant b s
  | .refuse why => refuseClaim b t why s
  | .nothing => s

/-- A TALK_CLAIM is decided (R136). -/
def takeTalkClaim (b : Bus) (c : Claim) (s : State) : State :=
  if decidesTalk s then
    let (r, d) := decideClaim c (busAt s b)
    carryOut b c.talker d (setBusRec b r s)
  else s

/-- A TALK_RELEASE is decided (R137). -/
def takeTalkRelease (b : Bus) (t : Talker) (s : State) : State :=
  if decidesTalk s then
    let (r, d) := decideRelease t (busAt s b)
    carryOut b t d (setBusRec b r s)
  else s

/-- A departed node's claims are removed from one bus (R138). -/
def purgeBus (n : NodeId) (s : State) (b : Bus) : State :=
  let r := busAt s b
  let r' := { r with stack := r.stack.filter fun c => decide (c.talker.node ≠ n) }
  match r.decided with
  | some d =>
    if d.talker.node = n then issueGrant b (setBusRec b (popTalker r') s) else setBusRec b r' s
  | none => setBusRec b r' s

/-- The departed nodes' claims are removed from every bus (R138), node by node and then bus by bus (log entry 67,
DESIGN CHOICE). -/
def purgeTalk (gone : List NodeId) (s : State) : State :=
  gone.foldl (fun a n => allBuses.foldl (purgeBus n) a) s

/-- At each first visit a bus with grant owed issues a fresh TALK_GRANT when there is room (R139). -/
def admitGrant (s : State) (b : Bus) : State :=
  if (busAt s b).owed && queueRoom s then
    let s' := setBusRec b { busAt s b with owed := false } s
    issueGrant b s'
  else s

/-! ### Claims and releases leaving a node (R133, R134) -/

/-- A TALK_CLAIM of a key is sent (R133). -/
def sendClaim (k : KeyName) (s : State) : State :=
  let r := keyAt s k
  if s.isOrigin then takeTalkClaim r.bus ⟨⟨s.start.id, k⟩, r.priority⟩ s
  else if queueRoom s then push .origin (.talkClaim r.bus k r.priority) none .loc s
  else
    oweRelease k (endKey k .dropped .lost (pushInternal .origin (.talkClaim r.bus k r.priority) s))

/-- A TALK_RELEASE of a key is sent (R133). -/
def sendRelease (k : KeyName) (s : State) : State :=
  let r := keyAt s k
  if s.isOrigin then takeTalkRelease r.bus ⟨s.start.id, k⟩ s
  else if queueRoom s then push .origin (.talkRelease r.bus k) none .loc s
  else oweRelease k s

/-- At each first visit a key with release owed sends its release when there is room (R133). -/
def admitRelease (s : State) (k : KeyName) : State :=
  if (keyAt s k).releaseOwed && queueRoom s then
    sendRelease k (modifyKey k (fun r => { r with releaseOwed := false }) s)
  else s

/-- A TALK_CLAIM of this node is dropped after its sends (R134). -/
def claimDropped (k : KeyName) (s : State) : State :=
  if (keyAt s k).state = .claiming then sendRelease k (endKey k .dropped .lost s) else s

/-- The answer timer starts at the first send of a claim (R134). -/
def claimSent (k : KeyName) (s : State) : State :=
  modifyKey k (fun r =>
    if r.state = .claiming then { r with answer := some (ticksOf Config.answerMs) } else r) s

/-- A key's answer timer expires (R134). -/
def answerExpired (k : KeyName) (s : State) : State :=
  let r := keyAt s k
  if isDue r.answer then
    if r.state = .claiming then sendRelease k (endKey k .dropped .noAnswer s)
    else modifyKey k (fun r => { r with answer := none }) s
  else s

/-! ### Press and lift (R131, R132) -/

/-- A press may raise a claim: the node is ORIGIN, or follows one in a cell-writing mode (R131). -/
def mayClaim (s : State) : Bool := s.isOrigin || (s.loop.following && writesCells (loopMode s))

/-- A press event (R131). -/
def pressKey (k : KeyName) (s : State) : State :=
  let r := keyAt s k
  if !r.enabled then s
  else match r.state with
    | .idle =>
      if mayClaim s then
        sendClaim k (notifyKey k .press
          (modifyKey k (fun r => { r with state := .claiming, press := some ⟨0, r.tapMs⟩ }) s))
      else endKey k .dropped .noOrigin s
    | .claiming | .talking | .stacked =>
      if r.latched then sendRelease k (endKey k .idle .lift s) else s
    | .refused | .dropped => s

/-- A lift latches rather than releases (R132's table); a press timer keeps the threshold of its start
(R129). -/
def latches (r : KeyRec) : Bool :=
  match r.mode with
  | .latch => true
  | .momentary => false
  | .auto => match r.press with
    | some t => decide (t.since < ticksOf t.tapMs)
    | none => false

/-- A lift event (R132). -/
def liftKey (k : KeyName) (s : State) : State :=
  let r := keyAt s k
  if !r.enabled then s
  else match r.state with
    | .claiming | .talking | .stacked =>
      if r.latched then s
      else if latches r then
        notifyKey k .latch (modifyKey k (fun r => { r with latched := true, press := none }) s)
      else sendRelease k (endKey k .idle .lift s)
    | .refused | .dropped => endKey k .idle .lift s
    | .idle => s

/-- A change of filtered level with its press or lift event (R130). -/
def filterTo (k : KeyName) (pressed : Bool) (s : State) : State :=
  let s' := modifyKey k (fun r => { r with pressed := pressed, settle := none }) s
  if pressed then pressKey k s' else liftKey k s'

/-- The filter sees a raw level (R130). -/
def keyRaw (k : KeyName) (high : Bool) (s : State) : State :=
  let r := { keyAt s k with raw := high }
  let s' := setKeyRec k r s
  if high = r.pressed then setKeyRec k { r with settle := none } s
  else match r.settle with
    | some _ => s'
    | none =>
      if r.settleMs = 0 then filterTo k high s'
      else setKeyRec k { r with settle := some (ticksOf r.settleMs) } s

/-- The settle timer of a key expires (R130). -/
def keySettled (k : KeyName) (s : State) : State :=
  let r := keyAt s k
  if isDue r.settle then filterTo k r.raw s else s

/-! ### Grants at every node (R140, R141) -/

/-- One key at the application of a grant for its bus (R141). -/
def grantKey (b : Bus) (talker : Option Talker) (s : State) (k : KeyName) : State :=
  let r := keyAt s k
  if r.bus ≠ b then s
  else if talker = some ⟨s.start.id, k⟩ then
    match r.state with
    | .claiming => moveKey k .talking .grant (modifyKey k (fun r => { r with answer := none }) s)
    | .stacked => moveKey k .talking .grant s
    | .talking => s
    | .idle | .refused | .dropped => sendRelease k s
  else if talker.isSome then
    match r.state with
    | .talking => moveKey k .stacked .preempt s
    | .claiming | .stacked | .idle | .refused | .dropped => s
  else
    match r.state with
    | .talking | .stacked => endKey k .dropped .releasedByOrigin s
    | .claiming | .idle | .refused | .dropped => s

def viewAt (s : State) (b : Bus) : BusView := s.talk.views.getD (busIndex b) .clear

/-- The bus view takes a grant (R140). -/
def setView (b : Bus) (serial : Serial) (talker : Option Talker) (s : State) : State :=
  let v : BusView := ⟨some serial, talker.map fun t => (t.node, some t.key)⟩
  { s with talk := { s.talk with views := s.talk.views.set (busIndex b) v } }

/-- A grant is passed over by its serial (R140). -/
def grantOld (s : State) (b : Bus) (serial : Serial) : Bool :=
  match (viewAt s b).serial with
  | some r => !newer16 serial r
  | none => false

/-- The application of a TALK_GRANT (R140, R141, R145). -/
def applyGrant (sender : NodeId) (b : Bus) (talker : Option Talker) (serial : Serial) (depth : Nat)
    (s : State) : State :=
  if grantOld s b serial then s
  else
    let s1 := setView b serial talker (setTalkWriter b (talker.map (·.node)) s)
    let s2 := if s.isOrigin && sender = s.start.id then setBusRec b { busAt s b with inForce := talker } s1
      else s1
    notify (.talkChange b talker serial depth) (rejudge (allKeys.foldl (grantKey b talker) s2))

/-- A grant acted on stops the answer timer of a key it names (R134, R140). -/
def grantHeard (talker : Option Talker) (s : State) : State :=
  match talker with
  | some t =>
    if t.node = s.start.id then modifyKey t.key (fun r => { r with answer := none }) s else s
  | none => s

/-! ### Drops (R144) -/

/-- The keys with a claim up. -/
def activeKeys (s : State) : List KeyName := allKeys.filter fun k => keyActive (keyAt s k).state

/-- One key at a drop (R144). -/
def dropKey (r : KeyRec) : KeyRec :=
  if keyActive r.state then { restKey .dropped r with releaseOwed := false }
  else r

/-- The claims of every key are dropped (R144). -/
def dropKeys (c : DropCause) (s : State) : State :=
  notify (.talkDrop c (activeKeys s))
    { s with talk := { s.talk with keys := s.talk.keys.map dropKey } }

/-- The Talk Unit at an epoch change (R135, R140, R144). -/
def talkEpoch (s : State) : State :=
  let s' := dropKeys .epoch s
  clearTalkEntries { s' with talk := { s'.talk with
    views := List.replicate 4 .clear
    records := List.replicate 4 .empty } }

/-- The keys after a POWER, PIN or SOFT reset: settings kept, working contents cleared, the filtered
level of a physical key at its raw level, virtual keys LIFTED (R128, R130). -/
def freshKey (i : Nat) (r : KeyRec) : KeyRec :=
  let raw := r.raw && decide (i < 8)
  { restKey .idle r with releaseOwed := false, settle := none, raw := raw, pressed := raw }

def freshKeys (l : List KeyRec) : List KeyRec := l.zipIdx.map fun (r, i) => freshKey i r

/-! ### Writing the talk slots (R143) -/

/-- What the node writes into a talk slot that names it (R143). -/
def talkSample (s : State) (b : Bus) : Sample :=
  match (viewAt s b).talker with
  | some (n, some k) =>
    if n = s.start.id && (keyAt s k).state = .talking then delivered s (keyAt s k).source else 0
  | some (_, none) => 0
  | none => 0

/-- Step 4: write the talk slots whose TALK entry names this node (R143). -/
def writeTalk (s : State) (slots : List Sample) : List Sample :=
  if copyCurrent s then
    allBuses.foldl (fun l b =>
      if (entryAt s (talkSlot s.start.rate b)).writer = some s.start.id then
        l.set (talkSlot s.start.rate b) (talkSample s b)
      else l) slots
  else slots

end Sys2Proof.Machine
end

