-- ==== Sys2Proof/Machine/Lock.lean ====
section
/-! DEFINITION. Lock and Supervision (Section 9): lock level, notes, lock view, host supervision. -/

namespace Sys2Proof.Machine

open Sys2Proof

/-! ### Lock notes and the lock view (R166, R167) -/

def isLockNote (m : LoopMsg) : Bool :=
  match m with
  | .lockNote _ => true
  | _ => false

/-- The node puts its LOCK_NOTE into the queue, or into the unsent one that stands there, or owes it
(R166). -/
def pushLockNote (s : State) : State :=
  if hasUnsent isLockNote s then
    { s with queue := { s.queue with
        items := replaceUnsent isLockNote (.lockNote s.lock.level) s.loop.group s.queue.items } }
  else if queueRoom s then push .all (.lockNote s.lock.level) none .loc s
  else { s with lock := { s.lock with noteOwed := true } }

/-- At each first visit an owed LOCK_NOTE enters the queue when there is room (R166). -/
def admitLockNote (s : State) : State :=
  if s.lock.noteOwed && queueRoom s then
    pushLockNote { s with lock := { s.lock with noteOwed := false } }
  else s

/-- An entry of the lock view other than the node's own takes a value, with LOCK_CHANGE at a change
(R167). -/
def setLockView (n : NodeId) (v : Option Nat) (s : State) : State :=
  if n = s.start.id || s.lock.view.getD n.val none = v then s
  else notify (.lockNote n v) { s with lock := { s.lock with view := s.lock.view.set n.val v } }

/-- Every entry other than the node's own becomes absent (R167). -/
def clearLockView (s : State) : State := allNodes.foldl (fun a n => setLockView n none a) s

/-- The lock effects of an epoch change (R166, R167). -/
def lockEpoch (s : State) : State := pushLockNote (clearLockView s)

/-- At a first visit to a frame of rank MASTER: recorded loop lock level and the origin's entry (R165,
R167). LOCK_CHANGE with cause LOOP_LEVEL carries the new recorded level and nothing else (log entry 83, DESIGN
CHOICE). -/
def lockVisit (h : Header) (s : State) : State :=
  match h.origin.rank with
  | .deputy => s
  | .master =>
    let s' := if s.lock.loopLevel = some h.lock then s
      else notify (.lockLoop h.lock) { s with lock := { s.lock with loopLevel := some h.lock } }
    setLockView h.origin.id (some h.lock) s'

/-- The lock level rises (R163). -/
def raiseLock (level : Nat) (s : State) : State :=
  pushLockNote (notify (.lockRaise s.lock.level level) { s with lock := { s.lock with
    level := level
    view := s.lock.view.set s.start.id.val (some level) } })

/-! ### Host supervision (R168 to R170) -/

/-- The silence timer starts with the full period, or stands stopped for the period 0 (R168). -/
def silenceTimer (periodMs : Nat) : Timer := if periodMs = 0 then none else some (ticksOf periodMs)

/-- A good request arrives (R168, R170). -/
def goodRequest (s : State) : State :=
  let s' := { s with supervision := { s.supervision with timer := silenceTimer s.supervision.periodMs } }
  if s.supervision.silent then
    onSilenceClear (notify (.hostReturn s.supervision.since s.supervision.span s.loop.count)
      { s' with supervision := { s'.supervision with silent := false, since := none } })
  else s'

/-- The silence timer expires (R169). -/
def silenceExpired (s : State) : State :=
  if isDue s.supervision.timer then
    onSilenceSet { s with supervision := { s.supervision with
      timer := none
      silent := true
      since := some s.loop.count
      span := s.supervision.periodMs
      spanTicks := 0 } }
  else s

/-- A LOOP reset restarts a running silence timer (R168). -/
def supervisionLoopReset (s : State) : State :=
  { s with supervision := { s.supervision with
      timer := s.supervision.timer.map fun _ => ticksOf s.supervision.periodMs } }

/-- The silent span rises by 1 in each millisecond while the flag stays set (R169). -/
def spanTick (d : Nat) (r : SuperRec) : SuperRec :=
  if r.silent then
    if Config.ticksPerMs ≤ r.spanTicks + d then
      { r with span := bump r.span, spanTicks := r.spanTicks + d - Config.ticksPerMs }
    else { r with spanTicks := r.spanTicks + d }
  else r

end Sys2Proof.Machine
end

