-- ==== Sys2Proof/Machine/Loop.lean ====
section
/-! DEFINITION. The Loop Engine (Section 3): epochs, precedence, conflict, wraps, port events, the link
table and healing, the loop map. -/

namespace Sys2Proof.Machine

open Sys2Proof

/-! ### After a change of the loop record (R45, R46) -/

/-- Loop mode, acting origin role or origin group changed (R46). -/
def viewChanged (a b : State) : Bool :=
  loopMode a != loopMode b || a.loop.role != b.loop.role || a.loop.group != b.loop.group

def wrapsChanged (a b : State) : Bool := a.loop.wrapA != b.loop.wrapA || a.loop.wrapB != b.loop.wrapB

/-- The takeover timer starts when a DEPUTY enters ORPHAN and stops when it leaves (R63). -/
def takeoverCheck (before : LoopMode) (s : State) : State :=
  if loopMode s != .orphan then { s with loop := { s.loop with takeover := none } }
  else if s.start.role = .deputy && before != .orphan then
    { s with loop := { s.loop with takeover := some (ticksOf s.loop.takeoverMs) } }
  else s

/-- The modes in which a copy stops being current (R77). -/
def modeLosesCopy (s : State) : Bool :=
  match loopMode s with
  | .orphan | .seeking | .conflict | .held => true
  | .isolated => !s.isOrigin
  | .closed | .wrappedA | .wrappedB => false

/-- A link names this node at this end or at the other (R57, R71). -/
def linkPortOf (l : Link) (n : NodeId) : Option PortId :=
  if l.node = n then some l.port else if l.farNode = n then some l.farPort else none

/-- The node at the other end of a link that names this node. -/
def linkFarOf (l : Link) (n : NodeId) : NodeId := if l.node = n then l.farNode else l.node

/-- A pending WRAP_PLAN that names this node (R57). -/
def planPending (id : NodeId) (p : PendingSwitch) : Bool :=
  match p.item with
  | .msg (.wrapPlan l) => (linkPortOf l id).isSome
  | .msg _ | .snapshot _ => false

/-- A node that leaves CLOSED discards its pending WRAP_PLAN (R57). -/
def dropPlans (before : LoopMode) (s : State) : State :=
  if before == .closed && loopMode s != .closed then
    { s with switches := s.switches.filter fun p => !planPending s.start.id p }
  else s

/-- The mode that matches a wrap at a port (R40). -/
def wrapMode : PortId → LoopMode
  | .a => .wrappedA
  | .b => .wrappedB

/-- The drill record receives the wrap frame at the entry to the wrap of the drilled port (R40); a second entry in
the same drill leaves the first one's frame (log entry 70, DESIGN CHOICE). -/
def drillWrap (before : LoopMode) (s : State) (p : PortId) : State :=
  let r := s.port p
  match r.drill with
  | none => s
  | some d =>
    if r.state = .drill && d.wrapFrame.isNone && before != wrapMode p && loopMode s == wrapMode p then
      s.setPort p { r with drill := some { d with wrapFrame := some s.loop.count } }
    else s

/-- What follows a change of the loop record between `old` and `s`, with LOOP_CHANGE when mode, role or
group changed, or a wrap where the rule says so (R46, R57, R63, R77, R102, R147). -/
def afterLoop (c : LoopCause) (old s : State) : State :=
  let before := loopMode old
  let s1 := dropPlans before (takeoverCheck before s)
  let s2 := drillWrap before (drillWrap before s1 .a) .b
  let s3 := if modeLosesCopy s2 then loseCurrency s2 else s2
  let s4 := retryCheck (rejudge s3)
  if viewChanged old s || wrapsChanged old s then notifyLoop c s4 else s4

/-! ### Emptying the queue (R14, R85, R118) -/

/-- The pending entry of this node for a message. -/
def ownEntryOf (id : NodeId) (m : LoopMsg) (p : PendingSwitch) : Bool :=
  decide (p.sender = id) && p.item == .msg m

/-- What the loss of one emptied message means to its owner (R14, R85, R118). -/
def loseItem (s : State) (i : QItem) : State :=
  let s := loseOp i.op s
  match i.body with
  | .allot serial _ =>
    if s.slots.inFlight.any fun f => f.any fun x => decide (x.2 = serial) then
      allotLost serial
        { s with switches := s.switches.filter fun p => !ownEntryOf s.start.id i.body p }
    else s
  | .gainNote input _ serial => loseGain input serial s
  | _ => s

/-- The queue's record with no message in it: a written message is no longer there to assess, a written snapshot
piece still is (R12, R73). -/
def emptied (q : QueueRec) : QueueRec :=
  { q with items := [], written := q.written.filter (·.piece) }

/-- The outgoing queue is emptied at a LOOP reset (R14, R73). -/
def emptyQueue (s : State) : State := s.queue.items.foldl loseItem { s with queue := emptied s.queue }

/-! ### Epoch changes (R61, R62) -/

/-- The HEAL of a discarded entry ends LOST, and its plan, where it still stands in the queue, belongs to none
(R70). -/
def loseHeal (op : Option Byte) (s : State) : State :=
  match op with
  | some t => forgetItem t (loseOp (some t) s)
  | none => s

/-- A message stands in the queue. -/
def inQueue (m : LoopMsg) (s : State) : Bool := s.queue.items.any fun i => i.body == m

/-- The loss of one of the node's own pending entries discarded by an epoch change: a HEAL ends whether or not its
plan still stands in the queue (R70), an ALLOT or a GAIN_NOTE is lost when it stands there no more (R85, R118; log
entry 15). -/
def loseEntry (s : State) (p : PendingSwitch) : State :=
  if p.sender ≠ s.start.id then s
  else match p.item with
    | .snapshot _ => s
    | .msg m =>
      match m with
      | .unwrapPlan _ => loseHeal p.op s
      | .allot serial _ => if inQueue m s then s else allotLost serial s
      | .gainNote input _ serial => if inQueue m s then s else loseGain input serial s
      | _ => s

/-- The origin's map of a fresh role or epoch: its own entry alone, at position 1 (R58). -/
def ownMapAlone (s : State) : List OwnMapEntry :=
  [⟨s.start.id, some s.start.func, some s.start.role, 1, .forward, 0⟩]

/-- The map copy reduced to the node's own entry; an origin's own entry stands at position 1 (R58, R60;
log entry 24). -/
def reducedCopy (s : State) (r : OriginRole) : MapCopy :=
  match r with
  | .follower => .alone s.start.id s.start.func s.start.role
  | .origin => ⟨some 0, [⟨s.start.id, some s.start.func, some s.start.role, some 1, some .forward⟩]⟩

/-- The former own group when the node stops originating under its group (R43). -/
def formerAfter (s : State) : Option (Rank × Epoch) :=
  if s.isOrigin then
    match s.loop.group with
    | some g => some (g.rank, g.epoch)
    | none => s.loop.formerOwn
  else s.loop.formerOwn

/-- The loop record of the new epoch (R43, R58, R62). -/
def epochLoop (g : OriginGroup) (r : OriginRole) (s : State) : LoopRec :=
  { s.loop with
    role := r
    group := some g
    following := true
    epoch := g.epoch
    timeout := 0
    formerOwn := formerAfter s
    visits := []
    lastActed := List.replicate 8 none
    copy := reducedCopy s r
    plan := none
    restart := .idle
    orig := .none
    ownMap := (match r with
      | .origin => ownMapAlone s
      | .follower => [])
    mapSerial := 0
    mapOwed := (match r with
      | .origin => s.loop.mapOwed
      | .follower => false) }

/-- The entry of a collection of SNAP pieces; the snapshot entry of a master is its own (R90). -/
def ofCollection (s : State) (p : PendingSwitch) : Bool :=
  match p.item with
  | .snapshot _ => !s.isMaster
  | .msg _ => false

/-- The entries an epoch change leaves in the list: those of the new epoch (R18), but for a collection's, which is
discarded with it (R90). -/
def outlivesEpoch (g : OriginGroup) (s : State) (p : PendingSwitch) : Bool :=
  decide (p.epoch = g.epoch) && !ofCollection s p

/-- The epoch change of the Loop Engine and of every block it tells (R62); a master's allotment snapshot comes
before the gain snapshot (R15, R120). The reset of the master's map here is no map change at which R69 judges the
links: a heal timer that runs goes on (log entry 48, DESIGN CHOICE). -/
def epochChange (g : OriginGroup) (r : OriginRole) (s : State) : State :=
  let s1 := { s with
    loop := epochLoop g r s
    queue := { s.queue with
      items := s.queue.items.map fun i => { i with stamp := none }
      written := none
      outstanding := none }
    snap := .idle
    switches := s.switches.filter (outlivesEpoch g s) }
  let gone := s.switches.filter fun p => !outlivesEpoch g s p
  let s2 := gone.foldl loseEntry (if s1.isMaster then needAllotSnap s1 else s1)
  let s3 := loseCurrency { s2 with slots := { s2.slots with collection := none } }
  needGainSnap (lockEpoch (talkEpoch s3))

/-- A SNAP_REQ at the adoption of, or the switch to, a MASTER group while the copy is not current
(R92). -/
def askSnapshot (g : OriginGroup) (s : State) : State :=
  if g.rank = .master && !copyCurrent s then pushSnapReq s else s

/-- Adoption of the origin of a frame by a node that follows none (R50). -/
def adopt (g : OriginGroup) (s : State) : State :=
  let s1 := { s with loop := { s.loop with following := true, timeout := 0, takeover := none } }
  let s2 := if s.loop.group = some g then s1 else epochChange g .follower s1
  afterLoop .adopted s (askSnapshot g s2)

/-- A switch to a winning origin, or the new epoch of the followed one (R49 case 5, R65). -/
def switchTo (g : OriginGroup) (ask : Bool) (s : State) : State :=
  let s1 := epochChange g .follower s
  afterLoop .adopted s (if ask then askSnapshot g s1 else s1)

/-- A deputy origin yields to a winning frame (R66); a yield to a MASTER group asks for a snapshot as a switch does
(R92; log entry 60, DESIGN CHOICE). -/
def yieldTo (g : OriginGroup) (s : State) : State :=
  afterLoop .yielded s (askSnapshot g (epochChange g .follower s))

/-- The node becomes ORIGIN of a new epoch (R63, R176); a GO that runs ends (R177). -/
def becomeOrigin (rank : Rank) (c : LoopCause) (s : State) : State :=
  let s1 := epochChange ⟨s.start.id, rank, s.loop.epoch + 1⟩ .origin s
  goDone .origin (afterLoop c s s1)

/-- TAKEOVER_TIMER_EXPIRY (R63). -/
def takeoverExpired (s : State) : State :=
  if isDue s.loop.takeover && s.start.role = .deputy && loopMode s == .orphan then
    becomeOrigin .deputy .takeover s
  else s

/-- The origin timeout reaches its end (R51, R144). -/
def originLost (s : State) : State :=
  let s1 := { s with loop := { s.loop with following := false } }
  afterLoop .originLost s (dropKeys .originLost s1)

/-- Entry to CONFLICT (R67, R68, R135, R144). -/
def enterConflict (c : ConflictCause) (s : State) : State :=
  if s.loop.conflict.isSome then s
  else
    let s1 := { s with loop := { s.loop with
      conflict := some c
      role := .follower
      following := false
      takeover := none
      restart := .idle
      formerOwn := formerAfter s } }
    let s2 := { s1 with talk := { s1.talk with records := List.replicate 4 .empty } }
    let s3 := dropKeys .conflict s2
    let s4 := afterLoop (.conflict c) s s3
    if viewChanged s s3 then s4 else notifyLoop (.conflict c) s4

/-! ### The link table (R55, R69) -/

def linkIndex (n : NodeId) (p : PortId) : Nat := 2 * n.val + portIndex p
def LinkEntry.empty : LinkEntry := ⟨none, false, none, none, false, none, false, false⟩
def linkAt (s : State) (n : NodeId) (p : PortId) : Option LinkEntry := s.loop.links.getD (linkIndex n p) none

/-- Change an entry of the link table, made if it is not there. -/
def modifyLink (n : NodeId) (p : PortId) (f : LinkEntry → LinkEntry) (s : State) : State :=
  let e := f ((linkAt s n p).getD .empty)
  { s with loop := { s.loop with links := s.loop.links.set (linkIndex n p) (some e) } }

/-- A state in which a reported end is usable (R54). -/
def linkUsable (st : LinkState) : Bool := st == .port .up

/-- The end is reported usable and without MARGINAL (R69). -/
def endGood (e : LinkEntry) : Bool := (e.state.any linkUsable) && !e.marginal

def inOwnMap (s : State) (n : NodeId) : Bool := s.loop.ownMap.any fun e => decide (e.id = n)

/-- The far entry of a link, when it names this end as its own partner (R55). -/
def farEntry (s : State) (n : NodeId) (p : PortId) (far : NodeId) : Option LinkEntry :=
  (linkAt s far (portOther p)).filter fun f => decide (f.partner = some n)

/-- The link bears the wrapped mark at one of its entries (R69). -/
def linkWrapped (s : State) (n : NodeId) (p : PortId) (e : LinkEntry) : Bool :=
  e.wrapped || match e.partner with
    | some far => (farEntry s n p far).any (·.wrapped)
    | none => false

/-- The partner group of a present end lets its link be ready: absent, or losing to the own group
(R69). -/
def groupYields (s : State) (e : LinkEntry) : Bool :=
  match e.group with
  | none => true
  | some g => s.loop.group.any fun own => groupWins own g

/-- The readiness of the link at its entry (n, p), judged at the link's canonical end only: the end of
lower node id among those in the map, then port A (R69; log entry 27). A link whose far node is not
known cannot be named by a plan and is not ready. -/
def linkReady (s : State) (n : NodeId) (p : PortId) (e : LinkEntry) : Bool :=
  linkWrapped s n p e && inOwnMap s n && endGood e &&
    match e.partner with
    | none => false
    | some far =>
      if inOwnMap s far then
        (decide (n.val < far.val) || (n == far && p == .a)) && (farEntry s n p far).any endGood
      else groupYields s e

/-- The link of an entry, when its far node is known. -/
def linkOf (n : NodeId) (p : PortId) (e : LinkEntry) : Option Link :=
  e.partner.map fun far => ⟨n, p, far, portOther p⟩

/-- The same link, named from either end. -/
def sameLink (a b : Link) : Bool :=
  a == b || decide (a.node = b.farNode ∧ a.port = b.farPort ∧ a.farNode = b.node ∧ a.farPort = b.port)

/-- The link kept at an entry becomes ready: its heal timer starts with the heal delay (R69). -/
def startReady (n : NodeId) (p : PortId) (s : State) : State :=
  modifyLink n p (fun e => { e with
    ready := true, heal := some (ticksOf (100 * s.loop.healDelay)), healable := false }) s

/-- The readiness of an entry is given up. -/
def clearReady (e : LinkEntry) : LinkEntry := { e with ready := false, heal := none, healable := false }

/-- The link kept at an entry ceases to be ready: the timer stops, and no UNWRAP_PLAN is owed for it (R69, R70). -/
def ceaseReady (n : NodeId) (p : PortId) (s : State) : State :=
  let s' := modifyLink n p clearReady s
  match (linkAt s n p).bind (linkOf n p) with
  | some l => { s' with loop := { s'.loop with
      unwrapOwed := s'.loop.unwrapOwed.filter fun x => !sameLink x l } }
  | none => s'

/-- The readiness of a link goes over from one of its ends to the other, the timer as it stands: the end at
which it is kept moves with the map, and the link stays ready (R69; log entry 27). -/
def moveReady (n : NodeId) (p : PortId) (m : NodeId) (q : PortId) (s : State) : State :=
  match linkAt s n p with
  | none => s
  | some e =>
    modifyLink m q (fun x => { x with ready := true, heal := e.heal, healable := e.healable })
      (modifyLink n p clearReady s)

/-- The other end of an entry's link, when the two entries name each other. -/
def otherEnd (s : State) (n : NodeId) (p : PortId) (e : LinkEntry) : Option (NodeId × LinkEntry) :=
  e.partner.bind fun far => (farEntry s n p far).map fun f => (far, f)

/-- Judge one entry: the heal timer starts when the link becomes ready and stops when it ceases (R69). -/
def judgeEntry (s : State) (n : NodeId) (p : PortId) : State :=
  match linkAt s n p with
  | none => s
  | some e =>
    match linkReady s n p e, e.ready, otherEnd s n p e with
    | true, true, _ | false, false, _ => s
    | true, false, some (far, f) =>
      if f.ready then moveReady far (portOther p) n p s else startReady n p s
    | true, false, none => startReady n p s
    | false, true, some (far, f) =>
      if linkReady s far (portOther p) f then moveReady n p far (portOther p) s else ceaseReady n p s
    | false, true, none => ceaseReady n p s

/-- The ends in the order of node id, port A before port B (R70). -/
def allEnds : List (NodeId × PortId) := allNodes.flatMap fun n => [(n, .a), (n, .b)]

/-- The index of a link's end of lower node id (R70's order for ANY). -/
def lowerIndex (l : Link) : Nat :=
  min (linkIndex l.node l.port) (linkIndex l.farNode l.farPort)

/-- Judge every link afresh (R69). -/
def judgeLinks (s : State) : State :=
  if s.isMaster then allEnds.foldl (fun a (n, p) => judgeEntry a n p) s else s

/-- An UNWRAP_PLAN for a link clears the plan record that names it (R56). -/
def clearPlan (l : Link) (s : State) : State :=
  match s.loop.plan with
  | some q => if sameLink l q then { s with loop := { s.loop with plan := none } } else s
  | none => s

/-- The master sends an UNWRAP_PLAN under AUTO, or owes it (R70). -/
def sendUnwrap (l : Link) (s : State) : State :=
  if queueRoom s then clearPlan l (push .all (.unwrapPlan l) none .loc s)
  else if s.loop.unwrapOwed.contains l then s
  else { s with loop := { s.loop with unwrapOwed := s.loop.unwrapOwed ++ [l] } }

/-- HEAL_TIMER_EXPIRY: the link becomes healable (R69, R70). -/
def healExpired (n : NodeId) (p : PortId) (s : State) : State :=
  match linkAt s n p with
  | none => s
  | some e =>
    if isDue e.heal then
      let s' := modifyLink n p (fun e => { e with heal := none, healable := true }) s
      match s.loop.policy, linkOf n p e with
      | .auto, some l => sendUnwrap l s'
      | .auto, none => s'
      | .onCommand, _ => s'
    else s

/-- The conditions of a WRAP_PLAN at a MARGINAL report (R56). -/
def planAllowed (s : State) (partner : Option NodeId) : Bool :=
  s.loop.preempt && loopMode s == .closed && s.loop.plan.isNone &&
    !(s.loop.links.any fun e => e.any (·.wrapped)) && partner.any (inOwnMap s)

/-- Send a WRAP_PLAN for a link and put the plan record in force, or discard it at a full queue (R56). -/
def sendWrap (l : Link) (s : State) : State :=
  if queueRoom s then
    push .all (.wrapPlan l) none .loc { s with loop := { s.loop with plan := some l } }
  else pushInternal .all (.wrapPlan l) s

/-- The plan record names this end. -/
def planAt (s : State) (n : NodeId) (p : PortId) : Bool :=
  match s.loop.plan with
  | some l => decide (l.node = n ∧ l.port = p) || decide (l.farNode = n ∧ l.farPort = p)
  | none => false

/-- An end reported not usable sets the wrapped mark of both entries and ends a plan for the link (R55,
R56). -/
def markLost (n : NodeId) (p : PortId) (partner : Option NodeId) (s : State) : State :=
  let s1 := modifyLink n p (fun e => { e with wrapped := true }) s
  let s2 := match partner with
    | some far => modifyLink far (portOther p) (fun e => { e with wrapped := true }) s1
    | none => s1
  if planAt s2 n p then { s2 with loop := { s2.loop with plan := none } } else s2

/-- The master acts on a LINK_NOTE, or on its own port event (R55, R56, R69); an entry that names another partner
belongs to another link, which is judged from the start. -/
def takeLinkNote (n : NodeId) (p : PortId) (st : LinkState) (marginal : Bool) (partner : Option NodeId)
    (group : Option OriginGroup) (s : State) : State :=
  if !s.isMaster then s
  else
    let old := (linkAt s n p).getD .empty
    let known := partner.orElse fun _ => old.partner
    let s0 := if known = old.partner then s else ceaseReady n p s
    let s1 := modifyLink n p (fun e => { e with
      state := some st, marginal := marginal, partner := known, group := group }) s0
    let s2 := if linkUsable st then s1 else markLost n p known s1
    let s3 := judgeLinks s2
    if linkUsable st && marginal && !old.marginal && planAllowed s3 known then
      match known with
      | some far => sendWrap ⟨n, p, far, portOther p⟩ s3
      | none => s3
    else s3

/-- The LINK_NOTE of a port as it stands (R54). -/
def linkNoteOf (p : PortId) (r : PortRec) : LoopMsg :=
  .linkNote p (linkState r) r.flags.marginal (r.partner.map (·.sender)) (r.partner.bind (·.offer.origin))

/-- A LINK_NOTE enters the queue, or is owed for its port (R54). -/
def pushLinkNote (p : PortId) (s : State) : State :=
  if queueRoom s then push .all (linkNoteOf p (s.port p)) none .loc s
  else match p with
    | .a => { s with loop := { s.loop with noteOwedA := true } }
    | .b => { s with loop := { s.loop with noteOwedB := true } }

/-- The port event reports what a LINK_NOTE carries (R54). -/
def noteDue (old new : PortRec) : Bool :=
  portUsable old != portUsable new ||
    (portUsable new && (old.flags.marginal != new.flags.marginal ||
      old.partner.bind (·.offer.origin) != new.partner.bind (·.offer.origin)))

/-! ### Wraps at port events (R52, R53) -/

/-- The wrap of a port that is usable again names its link (R53). -/
def plannedWrap (r : PortRec) : Wrap := .planned (r.partner.map (·.sender))

/-- The wrap contents after a port event (R52, R53); `was` says whether the port was usable. -/
def wrapStep (p : PortId) (was : Bool) (s : State) : State :=
  let now := s.usable p
  let other := s.usable (portOther p)
  if was && !now then
    if other then (s.setWrap p .loss).setWrap (portOther p) .none
    else (s.setWrap p .none).setWrap (portOther p) .none
  else if !was && now then
    if s.wrapAt p = .loss then s.setWrap p (plannedWrap (s.port p))
    else if !other && !s.start.held && (s.port (portOther p)).everUsable then
      s.setWrap (portOther p) .loss
    else s
  else s

/-- The port has been usable since the node left HELD (R52). -/
def markUsable (p : PortId) (s : State) : State :=
  if s.usable p && !s.start.held then s.setPort p { s.port p with everUsable := true } else s

/-- The last usable port of a follower is lost (R51). -/
def losesOrigin (was : Bool) (s : State) : Bool :=
  was && !s.usable .a && !s.usable .b && s.loop.following && !s.isOrigin

/-- A port event: `old` is the port record before it, `s` holds the new one (R37, R51 to R55). R46 names no cause
for a mode that changes with no wrap change (ISOLATED): the model raises PORT (log entry 46, DESIGN CHOICE). Where
a follower's last usable port is lost and its wraps change with it, R52 and R51 each name a cause for the one
LOOP_CHANGE: the model raises ORIGIN_LOST (log entry 47, DESIGN CHOICE). -/
def portEvent (p : PortId) (old : PortRec) (s : State) : State :=
  let before := s.setPort p old
  let was := portUsable old
  let s1 := markUsable p (wrapStep p was s)
  let s2 := if noteDue old (s.port p) then
      let n := s.port p
      takeLinkNote s.start.id p (linkState n) n.flags.marginal (n.partner.map (·.sender))
        (n.partner.bind (·.offer.origin)) (pushLinkNote p s1)
    else s1
  if losesOrigin was s2 then
    let s3 := dropKeys .originLost { s2 with loop := { s2.loop with following := false } }
    afterLoop .originLost before s3
  else afterLoop .port before s2

/-! ### Plans (R57, R70 to R72) -/

/-- A WRAP_PLAN's pending entry is applied (R55, R57). A master that is no end of the planned link sets both
wrapped marks at its own application, whether or not the ends wrapped (log entry 49, DESIGN CHOICE). -/
def applyWrapPlan (sender : NodeId) (l : Link) (s : State) : State :=
  let mark (a : State) : State :=
    if a.isMaster && sender = a.start.id then
      modifyLink l.node l.port (fun e => { e with wrapped := true })
        (modifyLink l.farNode l.farPort (fun e => { e with wrapped := true }) a)
    else a
  match linkPortOf l s.start.id with
  | none => mark s
  | some p =>
    if loopMode s == .closed && s.usable p then
      afterLoop .plannedWrap s (mark (s.setWrap p (.planned (some (linkFarOf l s.start.id)))))
    else s

/-- The end of a link that the map holds is still reported usable (R70). -/
def endStillUsable (s : State) (n : NodeId) (p : PortId) : Bool :=
  !inOwnMap s n || match linkAt s n p with
    | some e => e.state.any linkUsable
    | none => false

/-- The master applies its own entry for an UNWRAP_PLAN (R70): the operation of a HEAL ends, and the plan where it
still stands in the queue belongs to none. -/
def healApplied (l : Link) (op : Option Byte) (s : State) : State :=
  let s1 :=
    if endStillUsable s l.node l.port && endStillUsable s l.farNode l.farPort then
      judgeLinks (modifyLink l.node l.port (fun e => { e with wrapped := false })
        (modifyLink l.farNode l.farPort (fun e => { e with wrapped := false }) s))
    else s
  match op with
  | some t => endOp t .ok .none (forgetItem t s1)
  | none => s1

/-- A port holds a PLANNED wrap. -/
def isPlanned (w : Wrap) : Bool :=
  match w with
  | .planned _ => true
  | .none | .loss => false

/-- An UNWRAP_PLAN's pending entry is applied (R70, R71). -/
def applyUnwrapPlan (sender : NodeId) (l : Link) (op : Option Byte) (s : State) : State :=
  let s1 := match linkPortOf l s.start.id with
    | none => s
    | some p =>
      if isPlanned (s.wrapAt p) && s.usable p then afterLoop .unwrap s (s.setWrap p .none) else s
  if s1.isMaster && sender = s1.start.id then healApplied l op s1 else s1

/-- The merge release: the wrap goes without a plan (R72). It is an event of its own with its own LOOP_CHANGE, cause
UNWRAP, before the adoption or switch that may follow on the same frame (log entry 71, DESIGN CHOICE). -/
def mergeRelease (p : PortId) (s : State) : State := afterLoop .unwrap s (s.setWrap p .none)

/-! ### The pending switch list (R18) -/

/-- An entry's message is handed to the block that acts on its kind (R18, R19). -/
def applySwitch (p : PendingSwitch) (s : State) : State :=
  match p.item with
  | .snapshot _ => applySnapshot p.frame s
  | .msg m =>
    match m with
    | .allot serial changes =>
      if s.isMaster && p.sender ≠ s.start.id then s else applyAllot serial changes p.confirmed s
    | .gainNote i g serial => applyNote p.sender i g serial p.cause s
    | .talkGrant b t serial depth => applyGrant p.sender b t serial depth s
    | .wrapPlan l => applyWrapPlan p.sender l s
    | .unwrapPlan l => applyUnwrapPlan p.sender l p.op s
    | _ => s

/-- The held entry of a sender. -/
def pendingOf (s : State) (n : NodeId) : Option PendingSwitch :=
  s.switches.find? fun p => decide (p.sender = n)

def dropPending (n : NodeId) (s : State) : State :=
  { s with switches := s.switches.filter fun p => decide (p.sender ≠ n) }

/-- Apply one sender's entry: it leaves the list and its message acts (R18). -/
def applyPending (n : NodeId) (s : State) : State :=
  match pendingOf s n with
  | some p => applySwitch p (dropPending n s)
  | none => s

/-- The senders whose entry is due at the present frame count. -/
def dueSenders (s : State) : List NodeId :=
  (s.switches.filter fun p => reached s.loop.count p.frame).map (·.sender)

/-- Apply every due entry (R9 step 1, R18). Several due entries are applied in the order in which they were
entered (log entry 45, DESIGN CHOICE). -/
def applyDue (s : State) : State := (dueSenders s).foldl (fun a n => applyPending n a) s

/-- Enter an item in the list: an entry held for the sender is applied at once first (R18). -/
def enterSwitch (p : PendingSwitch) (s : State) : State :=
  let s' := applyPending p.sender s
  { s' with switches := s'.switches ++ [p] }

/-! ### The loop map (R58 to R60) -/

/-- The node ids a copy shows on the loop: the entries with a position. -/
def placed (c : MapCopy) : List NodeId := (c.entries.filter fun e => e.pos.isSome).map (·.id)

/-- A node leaves the copy: its last-acted number and its lock view entry go (R11, R60, R167). -/
def nodeLeaves (s : State) (n : NodeId) : State :=
  setLockView n none { s with loop := { s.loop with lastActed := s.loop.lastActed.set n.val none } }

/-- The copy takes a new map (R60): the node's own entry is always present. The members, joined and left ids of
MAP_CHANGE count only entries with a position, so an own id that the MAP omits is reported as left (log
entry 50, DESIGN CHOICE). -/
def setCopy (serial : Serial) (entries : List MapEntry) (s : State) : State :=
  let own := s.start.id
  let full := if entries.any fun e => decide (e.id = own) then entries
    else entries ++ [⟨own, some s.start.func, some s.start.role, none, none⟩]
  let new : MapCopy := ⟨some serial, full⟩
  let was := placed s.loop.copy
  let now := placed new
  let joined := now.filter fun n => !was.contains n
  let gone := was.filter fun n => !now.contains n
  let s1 := gone.foldl nodeLeaves { s with loop := { s.loop with copy := new } }
  let s2 := if joined.contains own then pushLockNote (needGainSnap s1) else s1
  rejudge (notify (.mapChange (some serial) now joined gone) s2)

/-- A MAP acted on (R60, R144). -/
def takeMap (serial : Serial) (entries : List MapEntry) (s : State) : State :=
  let s1 := setCopy serial entries s
  if entries.any fun e => decide (e.id = s.start.id) then s1 else dropKeys .mapOmit s1

/-- The function and role of a node as the origin knows them (R58). -/
def partnerFacts (s : State) (n : NodeId) : Option (Func × Role) :=
  let of (r : PortRec) : Option (Func × Role) :=
    match r.partner with
    | some l => if l.sender = n then some (l.offer.func, l.offer.role) else none
    | none => none
  if n = s.start.id then some (s.start.func, s.start.role)
  else (of s.portA).orElse fun _ => of s.portB

/-- Function and role of an entry: known now, or as the entry last had them (R58). -/
def withFacts (s : State) (e : OwnMapEntry) : OwnMapEntry :=
  match partnerFacts s e.id with
  | some (f, r) => { e with func := some f, role := some r }
  | none => e

/-- The map's entries after one circuit's hop list (R58). -/
def mapStep (s : State) (hops : List Hop) (map : List OwnMapEntry) : List OwnMapEntry :=
  let place (n : NodeId) : Option (Nat × Direction) :=
    ((hops.zipIdx).find? fun (h, _) => decide (h.id = n)).map fun (h, i) => (i + 1, h.dir)
  let kept := map.filterMap fun e =>
    match place e.id with
    | some (i, d) => some { e with pos := i, dir := d, absence := 0 }
    | none => if 2 ≤ e.absence then none else some { e with absence := e.absence + 1 }
  let fresh := hops.zipIdx.filterMap fun (h, i) =>
    if map.any fun e => decide (e.id = h.id) then none
    else some ⟨h.id, none, none, i + 1, h.dir, 0⟩
  (kept ++ fresh).map (withFacts s)

/-- The map as published: without the absence counts (R58, R59). -/
def published (e : OwnMapEntry) : MapEntry := ⟨e.id, e.func, e.role, some e.pos, some e.dir⟩

def isMap (m : LoopMsg) : Bool :=
  match m with
  | .map _ _ => true
  | _ => false

/-- The MAP as it stands (R59). -/
def mapBody (s : State) : LoopMsg := .map s.loop.mapSerial (s.loop.ownMap.map published)

/-- Publish the map: into the unsent MAP, into the queue, or owed (R59). -/
def publishMap (s : State) : State :=
  if hasUnsent isMap s then
    { s with queue := { s.queue with
        items := replaceUnsent isMap (mapBody s) s.loop.group s.queue.items } }
  else if queueRoom s then push .all (mapBody s) none .loc s
  else { s with loop := { s.loop with mapOwed := true } }

/-- A circuit end of a frame returned in time moves the map (R58, R59, R69, R88, R138). -/
def circuitMap (hops : List Hop) (s : State) : State :=
  let old := s.loop.ownMap
  let new := mapStep s hops old
  let s1 := { s with loop := { s.loop with ownMap := new } }
  if old.map published = new.map published then s1
  else
    let s2 := { s1 with loop := { s1.loop with mapSerial := s1.loop.mapSerial + 1 } }
    let gone := (old.filter fun e => !inOwnMap s2 e.id).map (·.id)
    let joined := new.any fun e => !inOwnMap s e.id
    let s3 := publishMap s2
    let s4 := setCopy s2.loop.mapSerial (new.map published) s3
    let s5 := purgeTalk gone s4
    let s6 := if joined && s5.isMaster then needAllotSnap s5 else s5
    judgeLinks s6

end Sys2Proof.Machine
end

