-- ==== Sys2Proof/Machine/Ports.lean ====
section
/-! DEFINITION. The optical ports (Section 2): light, alignment, offers, MARGINAL, link delay, relock,
drill. -/

namespace Sys2Proof.Machine

open Sys2Proof

/-! ### Changes of a port record -/

/-- Working counts zeroed, window and light condition discarded (R24, R25, R33, R39); the stamps are forgotten where
the port leaves alignment by it (R34). -/
def clearWork (r : PortRec) : PortRec :=
  { r with
    flags := .empty, partner := none, linkDelay := none
    alignRun := 0, agreeRun := 0, agreeFrom := none, clearRun := 0, badRun := 0
    winFrames := 0, winBad := 0, window := none
    settle := none, offerT := none
    offerSeen := false, offerAgreed := false
    lightCond := false, lightHeld := false
    winWholeUp := false, delaySum := 0, delayCount := 0
    lastGood := if isAligned r.state then none else r.lastGood }

/-- The relock timer starts when the port leaves UP (R35). -/
def relockIfUp (r : PortRec) (n : PortRec) : PortRec :=
  if r.state = .up then { n with relock := some (ticksOf Config.relockMs) } else n

/-- To DARK or SEEK out of alignment (R24, R25). -/
def leaveAlignment (st : PortState) (r : PortRec) : PortRec := relockIfUp r { clearWork r with state := st }

/-- A visit to OFFER begins (R26, R29, R30, R32): fresh offer timer, run at 0, nothing seen. -/
def enterOffer (r : PortRec) : PortRec :=
  relockIfUp r { r with
    state := .offer
    flags := { r.flags with fixed := false, remoteFault := false }
    linkDelay := none
    offerT := some (ticksOf Config.offerMs)
    agreeRun := 0, agreeFrom := none, offerSeen := false, offerAgreed := false
    clearRun := 0, winWholeUp := false }

/-- To MISMATCH with the disagreeing offer (R28, R30). -/
def enterMismatch (l : LinkField) (r : PortRec) : PortRec :=
  relockIfUp r { r with
    state := .mismatch
    flags := { r.flags with fixed := false, remoteFault := false }
    partner := some l
    linkDelay := none
    offerT := none
    agreeRun := 0, agreeFrom := none, offerAgreed := false
    clearRun := 0, winWholeUp := false }

/-- To UP (R28, R29). -/
def enterUp (fixed : Bool) (r : PortRec) : PortRec :=
  { r with
    state := .up
    flags := { r.flags with fixed := fixed }
    offerT := none, relock := none, clearRun := 0, winWholeUp := false }

/-- The error window starts afresh (R33, R34). -/
def startWindow (r : PortRec) : PortRec :=
  { r with
    winFrames := 0, winBad := 0
    window := some (ticksOf Config.windowMs)
    lightHeld := r.lightCond
    winWholeUp := r.state == .up
    delaySum := 0, delayCount := 0 }

/-- MARGINAL is set (R33). -/
def setMarginal (r : PortRec) : PortRec :=
  if r.flags.marginal then r
  else { r with
    flags := { r.flags with marginal := true }
    counters := { r.counters with marginalEntries := bump r.counters.marginalEntries } }

/-- The bad frames of a window beyond which the error condition is met (R33). -/
def windowLimit : Rate → Nat
  | .k48 => 48
  | .k96 => 96

/-! ### Committing a change: notice, port event, drill (R37, R38, R41, R42) -/

/-- PORT_CHANGE of a port as it stands (R38). -/
def notifyPort (p : PortId) (c : PortCause) (s : State) : State :=
  let r := s.port p
  notify (.portChange p r.state r.flags r.light c) s

def stateOrFlags (a b : PortRec) : Bool := a.state != b.state || a.flags != b.flags
def partnerGroup (r : PortRec) : Option OriginGroup := r.partner.bind (·.offer.origin)

/-- The wrap frames of a drill (R41). -/
def wrapFrames (d : DrillRec) : Option FrameNo := d.wrapFrame.map (· - d.start)

/-- The operation of a drill ends and its record is removed (R41, R42). -/
def endDrill (p : PortId) (d : DrillRec) (v : Verdict) (back : Option FrameNo) (s : State) : State :=
  endOp d.tag v (.drill p (wrapFrames d) back) (s.setPort p { s.port p with drill := none })

/-- A port record changes: PORT_CHANGE with the cause when state or flags changed, and the port event
(R37, R38). -/
def commitBase (p : PortId) (c : PortCause) (r : PortRec) (s : State) : State :=
  let old := s.port p
  let s1 := s.setPort p r
  let s2 := if stateOrFlags old r then notifyPort p c s1 else s1
  if stateOrFlags old r || partnerGroup old != partnerGroup r then portEvent p old s2 else s2

/-- The end of a drill period: transmitter on, to DARK, relock timer started (R41). -/
def drillOver (r : PortRec) : PortRec :=
  { r with state := .dark, txOn := true, drillT := none, relock := some (ticksOf Config.relockMs) }

/-- The drill at a port is overtaken (R42). -/
def overtakeDrill (p : PortId) (s : State) : State :=
  let s1 := commitBase p .drillEnd (drillOver (s.port p)) s
  match (s1.port p).drill with
  | some d => endDrill p d (.no .overtaken) none s1
  | none => s1

/-- The change of a port overtakes a drill at the other port: it left UP, or REMOTE_FAULT was set (R42). -/
def overtakes (old new : PortRec) : Bool :=
  (old.state == .up && new.state != .up) || (!old.flags.remoteFault && new.flags.remoteFault)

/-- A port record changes, with everything that follows from it. -/
def commit (p : PortId) (c : PortCause) (r : PortRec) (s : State) : State :=
  let old := s.port p
  let s1 := commitBase p c r s
  let s2 := if overtakes old r && (s1.port (portOther p)).state == .drill then overtakeDrill (portOther p) s1
    else s1
  if old.state != .up && r.state == .up then
    match (s2.port p).drill with
    | some d => endDrill p d .ok (some (s2.loop.count - d.start)) s2
    | none => s2
  else s2

/-! ### Light (R22, R24, R33) -/

/-- A monitor reading as a light level in steps of 0.1 dB: rounded and clamped; no valid reading counts
as -40.0 dBm (R22). -/
def lightLevel (milliDbm : Option Int) : Int :=
  match milliDbm with
  | none => -400
  | some x => max (-400) (min 30 (nearest x 100))

/-- The light condition at a measurement (R33). -/
def lightCondAt (r : PortRec) (level : Int) : Bool :=
  if r.lightCond then decide (level < r.marginalAt + r.hyst) else decide (level < r.marginalAt)

/-- A light measurement (R22, R24, R33). Below the loss threshold R24 alone acts, and no MARGINAL entry is counted
(log entry 58, DESIGN CHOICE). The light condition and MARGINAL move at an aligned port alone, never in SEEK: R22 has
R33 act in every state except DRILL, R33 itself speaks of an aligned port (log entry 69, DEDUCED). -/
def lightMeasured (p : PortId) (milliDbm : Option Int) (s : State) : State :=
  let level := lightLevel milliDbm
  let r := { s.port p with light := level }
  match r.state with
  | .drill => s.setPort p r
  | .dark =>
    if r.loss + r.hyst < level then commit p .lightRise { r with state := .seek, alignRun := 0 } s
    else s.setPort p r
  | .seek | .settle | .offer | .up | .mismatch =>
    if level < r.loss then commit p .lightLoss (leaveAlignment .dark r) s
    else if isAligned r.state then
      let cond := lightCondAt r level
      let r1 := { r with lightCond := cond, lightHeld := r.lightHeld || cond }
      commit p .marginalSet (if cond then setMarginal r1 else r1) s
    else s.setPort p r

/-! ### Offers (R28 to R32) -/

/-- The run of agreeing offers with hear-you set after one more offer (R28). -/
def nextRun (r : PortRec) (l : LinkField) : Nat :=
  if l.offer.hearYou then
    if r.agreeFrom = some (l.sender, l.port) then r.agreeRun + 1 else 1
  else 0

/-- An offer examined in OFFER (R28): the record after it, with the cause of a state change. -/
def examineOffer (s : State) (f : Option LinkField) (r : PortRec) : PortRec × PortCause :=
  match f with
  | none => ({ r with agreeRun := 0 }, .joined)
  | some l =>
    if !offerAgrees s l.offer then (enterMismatch l r, .disagree)
    else
      let run := nextRun r l
      let r1 := { r with
        partner := some l, offerSeen := true, offerAgreed := true
        agreeRun := run, agreeFrom := some (l.sender, l.port) }
      (if Config.joinFrames ≤ run then enterUp false r1 else r1, .joined)

/-- The port goes to OFFER and the offer that took it there is examined in the same event (R29, R30,
R32). -/
def reOffer (p : PortId) (c : PortCause) (f : Option LinkField) (r : PortRec) (s : State) : State :=
  let r1 := enterOffer r
  let (r2, c2) := examineOffer s f r1
  if r2.state = .offer then commit p c r2 s else commit p c2 r2 (commit p c r1 s)

/-- The hear-you-clear run rises, and REMOTE_FAULT is set at 48 (R31). -/
def hearClear (r : PortRec) : PortRec :=
  let run := bump r.clearRun
  { r with clearRun := run, flags := { r.flags with
    remoteFault := r.flags.remoteFault || decide (Config.clearFrames ≤ run) } }

/-- An offer from the held sender: the same node id and port (R30). -/
def sameSender (r : PortRec) (l : LinkField) : Bool :=
  r.partner.any fun h => decide (h.sender = l.sender ∧ h.port = l.port)

/-- A good frame at a port that is UP without FIXED (R30, R31). -/
def upFrame (p : PortId) (f : Option LinkField) (r : PortRec) (s : State) : State :=
  match f with
  | none => commit p .remoteFaultSet (hearClear r) s
  | some l =>
    if !offerAgrees s l.offer then commit p .disagree (enterMismatch l r) s
    else if sameSender r l then
      if l.offer.hearYou then
        commit p .remoteFaultClear { r with
          partner := some l, clearRun := 0, flags := { r.flags with remoteFault := false } } s
      else commit p .remoteFaultSet (hearClear r) s
    else reOffer p .partnerChange f r s

/-- A good frame at a port in MISMATCH (R32). -/
def mismatchFrame (p : PortId) (f : Option LinkField) (r : PortRec) (s : State) : State :=
  match f with
  | none => s.setPort p r
  | some l =>
    if offerAgrees s l.offer then reOffer p .agree f r s
    else commit p .disagree { r with partner := some l } s

/-! ### Link delay (R34) -/

/-- One measurement: half the round trip, at most 65535 ns. -/
def delayOf (now echo : Nanos) : Nat := min 65535 (nearest ((now - echo).toNat : Int) 2).toNat

/-- A good frame's echo stamp is measured at a port that is UP without FIXED (R34). -/
def measureDelay (f : Option LinkField) (now : Nanos) (r : PortRec) : PortRec :=
  match r.state, f.bind (·.offer.echoStamp) with
  | .up, some echo =>
    if r.flags.fixed then r
    else
      let d := delayOf now echo
      { r with
        linkDelay := some (r.linkDelay.getD d)
        delaySum := r.delaySum + d, delayCount := r.delayCount + 1 }
  | .dark, _ | .seek, _ | .settle, _ | .offer, _ | .mismatch, _ | .drill, _ | .up, none => r

/-- The stamps of the most recent good frame that carries an offer (R34). -/
def noteStamp (f : Option LinkField) (now : Nanos) (r : PortRec) : PortRec :=
  match f with
  | some l => { r with lastGood := some (l.offer.sendStamp, now) }
  | none => r

/-! ### Frames (R25, R36) -/

/-- A good frame is counted; at an aligned port it fills a frame position (R25, R33, R36). -/
def countGood (r : PortRec) : PortRec :=
  let r1 := { r with counters := { r.counters with good := bump r.counters.good } }
  if isAligned r.state then { r1 with badRun := 0, winFrames := r1.winFrames + 1 } else r1

/-- An offer from the node's own id (R28). -/
def sightsSelf (s : State) (f : Option LinkField) : Bool := f.any fun l => decide (l.sender = s.start.id)

/-- The 8th consecutive good frame aligns a port in SEEK (R25). -/
def alignFrame (p : PortId) (r : PortRec) (s : State) : State :=
  if Config.alignFrames ≤ r.alignRun + 1 then
    commit p .aligned (startWindow { r with
      state := .settle, alignRun := 0, badRun := 0, settle := some (ticksOf r.settleMs) }) s
  else s.setPort p { r with alignRun := r.alignRun + 1 }

/-- A good frame at a port, loop handover apart (R25 to R36). -/
def goodFrame (p : PortId) (f : Option LinkField) (now : Nanos) (s : State) : State :=
  let r := noteStamp f now (measureDelay f now (countGood (s.port p)))
  let s1 := match r.state with
    | .drill => s
    | .dark => s.setPort p r
    | .seek => alignFrame p r s
    | .settle => s.setPort p r
    | .offer =>
      let (r1, c) := examineOffer s f r
      commit p c r1 s
    | .up =>
      if r.flags.fixed then
        match f with
        | none => s.setPort p r
        | some _ => reOffer p .fixedEnd f r s
      else upFrame p f r s
    | .mismatch => mismatchFrame p f r s
  match (s.port p).state with
  | .settle | .drill => s1
  | .dark | .seek | .offer | .up | .mismatch =>
    if sightsSelf s f then enterConflict .duplicateId s1 else s1

/-- The record of an aligned port after one more bad frame (R25, R28, R33). -/
def countBad (rate : Rate) (r : PortRec) : PortRec :=
  let r1 := { r with
    counters := { r.counters with bad := bump r.counters.bad }
    badRun := r.badRun + 1, winFrames := r.winFrames + 1, winBad := r.winBad + 1
    agreeRun := if r.state = .offer then 0 else r.agreeRun }
  if windowLimit rate < r1.winBad then setMarginal r1 else r1

/-- A bad frame at an aligned port (R25, R33). A bad frame that both crosses the window limit and is the last of the
run sets MARGINAL, with its entry counted, before alignment is lost (log entry 59, DESIGN CHOICE). -/
def alignedBad (p : PortId) (s : State) : State :=
  let r := countBad s.start.rate (s.port p)
  if Config.badFrames ≤ r.badRun then
    commit p .alignLost (leaveAlignment .seek { r with counters := { r.counters with
      alignLosses := bump r.counters.alignLosses } }) s
  else commit p .marginalSet r s

/-- A frame that fails its check is counted in any state except DRILL (R5, R25, R36). -/
def failedFrame (p : PortId) (s : State) : State :=
  let r := s.port p
  match r.state with
  | .drill => s
  | .dark => s.setPort p { r with counters := { r.counters with bad := bump r.counters.bad } }
  | .seek =>
    s.setPort p { r with alignRun := 0, counters := { r.counters with bad := bump r.counters.bad } }
  | .settle | .offer | .up | .mismatch => alignedBad p s

/-- A frame position at which no frame is found: bad at an aligned port, nothing elsewhere (R25). -/
def missingFrame (p : PortId) (s : State) : State :=
  if isAligned (s.port p).state then alignedBad p s else s

/-! ### Timers (R26, R29, R33, R34, R35, R41) -/

/-- SETTLE_TIMER_EXPIRY (R26). -/
def settleExpired (p : PortId) (s : State) : State :=
  let r := s.port p
  if r.state = .settle && isDue r.settle then commit p .settled (enterOffer { r with settle := none }) s
  else s

/-- OFFER_TIMER_EXPIRY (R29). -/
def offerExpired (p : PortId) (s : State) : State :=
  let r := s.port p
  if r.state = .offer && isDue r.offerT then
    if r.offerSeen then s.setPort p { r with offerT := none }
    else commit p .fixedJoin { enterUp true r with partner := none, linkDelay := none } s
  else s

/-- RELOCK_TIMER_EXPIRY (R35, R41). -/
def relockExpired (p : PortId) (s : State) : State :=
  let r := s.port p
  if isDue r.relock then
    let s1 := s.setPort p { r with
      relock := none
      counters := { r.counters with relockFailures := bump r.counters.relockFailures } }
    match r.drill with
    | some d => if r.state = .drill then s1 else endDrill p d .ok none s1
    | none => s1
  else s

/-- The mean of a window's measurements, rounded to the nearest nanosecond (R34). -/
def windowDelay (r : PortRec) : Option Nat :=
  if r.winWholeUp && r.delayCount != 0 then some (nearest (r.delaySum : Int) r.delayCount).toNat
  else r.linkDelay

/-- A whole window passed without either condition (R33). -/
def windowClean (rate : Rate) (r : PortRec) : Bool :=
  decide (r.winBad ≤ windowLimit rate) && !r.lightHeld

/-- ERROR_WINDOW_END (R33, R34). -/
def windowEnded (p : PortId) (s : State) : State :=
  let r := s.port p
  if isDue r.window then
    let marginal := r.flags.marginal && !windowClean s.start.rate r
    commit p .marginalClear
      (startWindow { r with
        flags := { r.flags with marginal := marginal }, linkDelay := windowDelay r }) s
  else s

/-- DRILL_TIMER_EXPIRY (R41). -/
def drillExpired (p : PortId) (s : State) : State :=
  let r := s.port p
  if r.state = .drill && isDue r.drillT then commit p .drillEnd (drillOver r) s else s

/-- DRILL takes effect (R39). -/
def startDrill (p : PortId) (ms : Nat) (tag : Byte) (s : State) : State :=
  let r := clearWork (s.port p)
  commit p .drillStart { r with
    state := .drill
    txOn := false
    relock := none
    drillT := some (ticksOf ms)
    drill := some ⟨s.loop.count, ms, none, tag⟩
    counters := { r.counters with drills := bump r.counters.drills } } s

/-! ### What a port sends and reports (R27, R34, R36) -/

/-- The echo stamp at a send: the stamp of the last good frame plus the time it has been held (R34). -/
def echoAt (now : Nanos) (r : PortRec) : Option Nanos :=
  r.lastGood.map fun (stamp, arrival) => stamp + (now - arrival)

/-- The link field a port writes (R4, R27). -/
def linkFieldOf (p : PortId) (now : Nanos) (s : State) : LinkField :=
  let r := s.port p
  ⟨s.start.id, p,
    { loopName := s.start.loopName
      rate := s.start.rate
      func := s.start.func
      role := s.start.role
      origin := followedGroup s
      hearYou := hearsPartner r
      held := s.start.held
      sendStamp := now
      echoStamp := echoAt now r }⟩

/-- READ_PORT's record (R36): the start frame and the time remaining are given in state DRILL, and no more in the
wait for DONE after the drill period (log entry 57, DESIGN CHOICE). -/
def portReport (r : PortRec) : PortReport where
  state := r.state
  flags := r.flags
  light := r.light
  partner := r.partner
  linkDelay := r.linkDelay
  counters := r.counters
  loss := r.loss
  marginalAt := r.marginalAt
  hyst := r.hyst
  settleMs := r.settleMs
  drill := match r.state, r.drill with
    | .drill, some d => some (d.start, r.drillT.getD 0)
    | _, _ => none

/-- The timers of a port run (2.1). -/
def tickPort (d : Nat) (r : PortRec) : PortRec :=
  { r with
    settle := tick d r.settle
    offerT := tick d r.offerT
    relock := tick d r.relock
    drillT := tick d r.drillT
    window := tick d r.window }

end Sys2Proof.Machine
end

