-- ==== Sys2Proof/Machine/Operands.lean ====
section
/-! DEFINITION. Byte coding (11.7): numbers and named values, frame checks, request bodies into commands,
loop frames, replies and notices into bytes. -/

namespace Sys2Proof.Machine

open Sys2Proof

/-! ### Numbers (11.7; log entry 10) -/

def byte (n : Nat) : Byte := BitVec.ofNat 8 n
/-- A number in `k` bytes, most significant byte first. -/
def bytesOf : Nat → Nat → List Byte
  | 0, _ => []
  | k + 1, n => byte (n / 256 ^ k) :: bytesOf k n
def n1 (n : Nat) : List Byte := bytesOf 1 n
def n2 (n : Nat) : List Byte := bytesOf 2 n
def n4 (n : Nat) : List Byte := bytesOf 4 n
/-- A signed number in two's complement. -/
def i1 (x : Int) : List Byte := [BitVec.ofInt 8 x]
def i2 (x : Int) : List Byte := n2 (BitVec.ofInt 16 x).toNat
def flagByte (b : Bool) : List Byte := [if b then 1 else 0]
/-- An optional field: presence byte 0, or 1 and the value. -/
def optBytes {α : Type} (f : α → List Byte) (o : Option α) : List Byte :=
  match o with
  | none => [0]
  | some x => 1 :: f x
/-- A field that takes a named value (none, ANY, UNKNOWN, END) beside its values: 2 for the name. -/
def namedBytes {α : Type} (f : α → List Byte) (o : Option α) : List Byte :=
  match o with
  | none => [2]
  | some x => 1 :: f x
/-- A list: its number of entries in one byte, then the entries. -/
def listBytes {α : Type} (f : α → List Byte) (l : List α) : List Byte := n1 l.length ++ l.flatMap f
/-- A set of up to 8 members, the first named the least significant bit. -/
def setByte (l : List Bool) : List Byte :=
  n1 ((l.zipIdx.map fun (b, i) => if b then 2 ^ i else 0).sum)
/-- A set of outputs: a 64-bit number with bit o for output o. -/
def outputSet (l : List Nat) : List Byte :=
  bytesOf 8 (((List.range 64).map fun i => if l.contains i then 2 ^ i else 0).sum)
/-- A time left in whole milliseconds, rounded up (log entry 10). -/
def msLeft (t : Nat) : Nat := (t + Config.ticksPerMs - 1) / Config.ticksPerMs

/-! ### Named values, numbered from 1 in the order of their lists -/

def portCode : PortId → Nat
  | .a => 1
  | .b => 2
def rateCode : Rate → Nat
  | .k48 => 1
  | .k96 => 2
def funcCode : Func → Nat
  | .stage => 1
  | .desk => 2
def roleCode : Role → Nat
  | .master => 1
  | .deputy => 2
  | .member => 3
def rankCode : Rank → Nat
  | .master => 1
  | .deputy => 2
def dirCode : Direction → Nat
  | .forward => 1
  | .ret => 2
def busCode (b : Bus) : Nat := busIndex b + 1
def keyCode (k : KeyName) : Nat := keyIndex k + 1
def keyModeCode : KeyMode → Nat
  | .auto => 1
  | .momentary => 2
  | .latch => 3
def keyStateCode : KeyState → Nat
  | .idle => 1
  | .claiming => 2
  | .talking => 3
  | .stacked => 4
  | .refused => 5
  | .dropped => 6
def portStateCode : PortState → Nat
  | .dark => 1
  | .seek => 2
  | .settle => 3
  | .offer => 4
  | .up => 5
  | .mismatch => 6
  | .drill => 7
def linkStateCode : LinkState → Nat
  | .port s => portStateCode s
  | .remoteFault => 8
def loopModeCode : LoopMode → Nat
  | .held => 1
  | .seeking => 2
  | .closed => 3
  | .wrappedA => 4
  | .wrappedB => 5
  | .isolated => 6
  | .orphan => 7
  | .conflict => 8
def originRoleCode : OriginRole → Nat
  | .follower => 1
  | .origin => 2
def conflictCode : ConflictCause → Nat
  | .duplicateId => 1
  | .masterMet => 2
def slotStateCode : SlotState → Nat
  | .free => 1
  | .assigned => 2
  | .talk => 3
def reasonCode : Reason → Nat
  | .locked => 1
  | .notMaster => 2
  | .notOwner => 3
  | .owned => 4
  | .taken => 5
  | .reserved => 6
  | .full => 7
  | .range => 8
  | .state => 9
  | .heldOnly => 10
  | .lower => 11
  | .noAnswer => 12
  | .lost => 13
  | .overtaken => 14
/-- OK is numbered 0, before the reasons (log entry 10). -/
def verdictCode : Verdict → Nat
  | .ok => 0
  | .no r => reasonCode r
def outStateCode : OutState → Nat
  | .unused => 1
  | .live => 2
  | .fadingOut => 3
  | .safe => 4
  | .fadingIn => 5
def reportedCode : ReportedCause → Nat
  | .panic => 1
  | .orphan => 2
  | .sourceLost => 3
  | .forced => 4
  | .none => 5
def resumeStageCode : ResumeStage → Nat
  | .none => 1
  | .hold => 2
  | .await => 3
def resumeModeCode : ResumeMode → Nat
  | .auto => 1
  | .manual => 2
def resetCauseCode : ResetCause → Nat
  | .powerOn => 1
  | .supplyLow => 2
  | .pin => 3
  | .soft => 4
def lineModeCode : LineMode → Nat
  | .spi => 1
  | .uart => 2
def talkReasonCode : TalkReason → Nat
  | .lower => 1
  | .full => 2
def opKindCode : OpKind → Nat
  | .go => 7
  | .drill => 10
  | .heal => 13
  | .claimSlot => 15
  | .releaseSlot => 16
  | .setGain => 19
  | .claimGain => 20
  | .yieldGain => 21
def stageCode : Stage → Nat
  | .queued => 1
  | .sent => 2
  | .awaiting => 3
  | .running => 4
def portCauseCode : PortCause → Nat
  | .lightLoss => 1
  | .lightRise => 2
  | .aligned => 3
  | .alignLost => 4
  | .settled => 5
  | .joined => 6
  | .fixedJoin => 7
  | .fixedEnd => 8
  | .disagree => 9
  | .agree => 10
  | .partnerChange => 11
  | .remoteFaultSet => 12
  | .remoteFaultClear => 13
  | .marginalSet => 14
  | .marginalClear => 15
  | .drillStart => 16
  | .drillEnd => 17
/-- The cause of LOOP_CHANGE with what it names: the conflict cause, or the kind discarded. -/
def loopCauseBytes : LoopCause → List Byte
  | .port => n1 1
  | .adopted => n1 2
  | .originLost => n1 3
  | .plannedWrap => n1 4
  | .unwrap => n1 5
  | .takeover => n1 6
  | .yielded => n1 7
  | .conflict c => n1 8 ++ n1 (conflictCode c)
  | .restart => n1 9
  | .start => n1 10
  | .queueFull k => n1 11 ++ n1 k
def keyCauseCode : KeyCause → Nat
  | .press => 1
  | .latch => 2
  | .lift => 3
  | .grant => 4
  | .preempt => 5
  | .lower => 6
  | .full => 7
  | .noAnswer => 8
  | .lost => 9
  | .noOrigin => 10
  | .releasedByOrigin => 11
  | .disabled => 12
def dropCauseCode : DropCause → Nat
  | .epoch => 1
  | .originLost => 2
  | .conflict => 3
  | .held => 4
  | .mapOmit => 5

/-! ### Shared groups of fields -/

def nodeByte (n : NodeId) : List Byte := n1 n.val
def nodeSet (l : List NodeId) : List Byte := setByte (allNodes.map fun n => l.contains n)
def groupBytes (g : OriginGroup) : List Byte := nodeByte g.id ++ n1 (rankCode g.rank) ++ n2 g.epoch.toNat
def portFlagSet (f : PortFlags) : List Byte := setByte [f.marginal, f.fixed, f.remoteFault]
def causeSetByte (c : CauseSet) : List Byte := setByte [c.panic, c.orphan, c.sourceLost, c.forced]
def busSetByte (b : BusSet) : List Byte := setByte [b.tb1, b.tb2, b.tb3, b.tb4]
def talkerBytes (t : Talker) : List Byte := nodeByte t.node ++ n1 (keyCode t.key)
def settingBytes (g : GainSetting) : List Byte :=
  n1 g.gain ++ flagByte g.pad ++ flagByte g.phantom ++ optBytes nodeByte g.owner
def entryBytes (e : SlotEntry) : List Byte :=
  n1 (slotStateCode e.state) ++ optBytes nodeByte e.writer ++ optBytes n1 e.input ++
    optBytes (fun x => n2 x.toNat) e.serial
def changeBytes (c : SlotChange) : List Byte :=
  n1 c.slot ++ namedBytes (fun w => nodeByte w.1) c.writer ++ namedBytes (fun w => n1 w.2) c.writer
def pairResultBytes : PairResult → List Byte
  | .slot n => [1] ++ n1 n
  | .refused r => [2] ++ n1 (reasonCode r)
def mapEntryBytes (e : MapEntry) : List Byte :=
  nodeByte e.id ++ namedBytes (fun f => n1 (funcCode f)) e.func ++
    namedBytes (fun r => n1 (roleCode r)) e.role ++ optBytes n1 e.pos ++
    optBytes (fun d => n1 (dirCode d)) e.dir
/-- An entry of a MAP: position and direction are never absent there (R19, R58). -/
def mapItemBytes (e : MapEntry) : List Byte :=
  nodeByte e.id ++ namedBytes (fun f => n1 (funcCode f)) e.func ++
    namedBytes (fun r => n1 (roleCode r)) e.role ++ n1 (e.pos.getD 0) ++ n1 (dirCode (e.dir.getD .forward))
/-- The entries of SNAP piece `n`, each with its slot number (R89). -/
def pieceBytes (n : Nat) (l : List SlotEntry) : List Byte :=
  n1 l.length ++ l.zipIdx.flatMap fun (e, i) => n1 (4 * n + i) ++ entryBytes e
def linkBytes (l : Link) : List Byte :=
  nodeByte l.node ++ n1 (portCode l.port) ++ nodeByte l.farNode ++ n1 (portCode l.farPort)
def wrapBytes : Wrap → List Byte
  | .none => n1 1
  | .loss => n1 2
  | .planned far => n1 3 ++ optBytes nodeByte far
def offerBytes (o : Offer) : List Byte :=
  n2 o.loopName.toNat ++ n1 (rateCode o.rate) ++ n1 (funcCode o.func) ++ n1 (roleCode o.role) ++
    optBytes groupBytes o.origin ++ flagByte o.hearYou ++ flagByte o.held ++ n4 o.sendStamp.toNat ++
    optBytes (fun x => n4 x.toNat) o.echoStamp
def fieldBytes (l : LinkField) : List Byte := nodeByte l.sender ++ n1 (portCode l.port) ++ offerBytes l.offer

/-! ### Loop messages and frames (11.7) -/

/-- Padding with a byte up to a length. -/
def padTo (n : Nat) (b : Byte) (l : List Byte) : List Byte := l ++ List.replicate (n - l.length) b

/-- The body of a loop message in the order of R19; the switch frame stands last. -/
def msgBody (m : LoopMsg) (switch : Option FrameNo) : List Byte :=
  (match m with
  | .map serial entries => n2 serial.toNat ++ listBytes mapItemBytes entries
  | .allot serial changes => n2 serial.toNat ++ listBytes changeBytes changes
  | .snap serial piece entries => n2 serial.toNat ++ n1 piece ++ pieceBytes piece entries
  | .snapReq last => namedBytes (fun x => n2 x.toNat) last
  | .slotClaim tag pairs => [tag] ++ listBytes (fun p => namedBytes n1 p.slot ++ n1 p.input) pairs
  | .slotRelease tag slots => [tag] ++ listBytes n1 slots
  | .slotAnswer tag results => [tag] ++ listBytes pairResultBytes results
  | .gainSet tag input g p ph => [tag] ++ n1 input ++ optBytes n1 g ++ optBytes n1 p ++ optBytes n1 ph
  | .gainClaim tag input force => [tag] ++ n1 input ++ flagByte force
  | .gainYield tag input => [tag] ++ n1 input
  | .gainAnswer tag v => [tag] ++ n1 (verdictCode v)
  | .gainNote input g serial => n1 input ++ settingBytes g ++ n1 serial.toNat
  | .gainSnap piece entries => n1 piece ++ listBytes (fun e => settingBytes e.1 ++ n1 e.2.toNat) entries
  | .talkClaim b k prio => n1 (busCode b) ++ n1 (keyCode k) ++ n1 prio
  | .talkRelease b k => n1 (busCode b) ++ n1 (keyCode k)
  | .talkGrant b t serial depth =>
    n1 (busCode b) ++ namedBytes talkerBytes t ++ n2 serial.toNat ++ n1 depth
  | .talkRefuse b n k r => n1 (busCode b) ++ nodeByte n ++ n1 (keyCode k) ++ n1 (talkReasonCode r)
  | .linkNote p st m partner g =>
    n1 (portCode p) ++ n1 (linkStateCode st) ++ flagByte m ++ optBytes nodeByte partner ++
      optBytes groupBytes g
  | .wrapPlan l => linkBytes l
  | .unwrapPlan l => linkBytes l
  | .restart e => n2 e.toNat
  | .lockNote level => n1 level) ++
  (match switch with
  | some f => n4 f.toNat
  | none => [])

/-- A service cell: 64 bytes. -/
def cellBytes (c : Option Message) : List Byte :=
  padTo 64 0 (match c with
    | none => []
    | some m =>
      n1 (msgKind m.body) ++ [match m.dest with
        | some n => byte n.val
        | none => 255] ++ n2 m.num.toNat ++ msgBody m.body m.switch)

/-- The loop frame header: 20 bytes. -/
def headerBytes (h : Header) : List Byte :=
  padTo 20 255
    (n4 h.count.toNat ++ n1 (16 * h.origin.id.val + (rankCode h.origin.rank - 1)) ++
      n2 h.origin.epoch.toNat ++ n2 h.loopName.toNat ++ n1 (16 * (rateCode h.rate - 1) + h.lock) ++
      nodeSet h.visited ++
      listBytes (fun x => n1 (16 * x.id.val + (dirCode x.dir - 1))) h.hops)

/-- The link field in a fixed number of bytes; a blank one is presence 0 (log entry 9). -/
def linkFieldBytes (l : Option LinkField) : List Byte := padTo 25 0 (optBytes fieldBytes l)

/-- A frame's contents before its check: header, link field, service area, slot area (1.2). -/
def frameBytes (f : Frame) : List Byte :=
  headerBytes f.header ++ linkFieldBytes f.link ++ f.cells.flatMap cellBytes ++
    (match f.slots with
    | some l => l.flatMap fun x => bytesOf 3 x.toNat
    | none => [])

/-! ### Frame checks (R5, R180) -/

/-- One bit of a CRC, most significant bit first. -/
def crcBit {w : Nat} (poly c : BitVec w) : BitVec w := if c.msb then (c <<< 1) ^^^ poly else c <<< 1
/-- One byte of a CRC. -/
def crcByte {w : Nat} (poly c : BitVec w) (b : Byte) : BitVec w :=
  Nat.rec (c ^^^ ((b.setWidth w) <<< (w - 8))) (fun _ x => crcBit poly x) 8
/-- A CRC over bytes from an initial value. -/
def crc {w : Nat} (poly init : BitVec w) (l : List Byte) : BitVec w := l.foldl (crcByte poly) init

/-- The frame check of a loop or standby frame: CRC-32, complemented (R5). -/
def frameCheck (f : Frame) : BitVec 32 := ~~~(crc 0x04C11DB7#32 (BitVec.allOnes 32) (frameBytes f))
/-- The check of a Control Port frame: CRC-16, not complemented (R180). -/
def lineCheck (l : List Byte) : BitVec 16 := crc 0x1021#16 (BitVec.allOnes 16) l

/-- A Control Port frame (11.7); a body longer than 250 bytes is cut there (log entry 28). -/
def lineFrame (cls : Nat) (tag : Byte) (kind : Nat) (body : List Byte) : List Byte :=
  let b := body.take Config.bodyMax
  let inner := n1 cls ++ [tag] ++ n1 kind ++ n1 b.length ++ b
  [0xA5] ++ inner ++ n2 (lineCheck inner).toNat

/-- The EMPTY frame (11.7). -/
def emptyFrame : List Byte := lineFrame 0 0 0 []

/-! ### Notices (11.6) -/

def strapBytes (s : Straps) : List Byte :=
  nodeByte s.nid ++ n1 (funcCode s.func) ++ n1 (match s.role with
    | some r => roleCode r
    | none => 4) ++ n1 (lineModeCode s.portsel) ++ flagByte s.holdn

/-- The strap samples as last read (R173, R186). Every release has read them or follows one that has, so the field
is never absent and has no presence byte. -/
def strapSampleBytes (o : Option Straps) : List Byte := o.toList.flatMap strapBytes

def viewBytes (v : LoopView) : List Byte :=
  n1 (loopModeCode v.mode) ++ n1 (originRoleCode v.role) ++ optBytes groupBytes v.group ++
    n2 v.epoch.toNat ++ wrapBytes v.wrapA ++ wrapBytes v.wrapB

def startBytes (r : StartReport) : List Byte :=
  n1 (resetCauseCode r.cause) ++ optBytes (fun t => [t]) r.tag ++ strapSampleBytes r.straps ++
    flagByte r.strapsRead ++ nodeByte r.id ++ n1 (funcCode r.func) ++ n1 (roleCode r.role) ++
    flagByte r.roleInvalid ++ flagByte r.held ++ n1 (rateCode r.rate) ++ n2 r.loopName.toNat ++ n1 r.lock

def framesOpt (o : Option FrameNo) : List Byte := optBytes (fun x => n4 x.toNat) o

def resultBytes : OpResult → List Byte
  | .none => []
  | .pairs l => listBytes pairResultBytes l
  | .gain n i => nodeByte n ++ n1 i
  | .drill p w r => n1 (portCode p) ++ framesOpt w ++ framesOpt r
  | .go e => n1 (match e with
    | .origin => 1
    | .current => 2)

def gainCauseBytes : GainCause → List Byte
  | .loc => n1 1
  | .desk n => n1 2 ++ nodeByte n
  | .loss => n1 3

/-- A notice's number in the catalogue, its tag byte and its body. A content that is optional in the record keeps its
presence byte in a notice that never lacks it: the silent-since frame of HOST_RETURN (R168, R170; log entry 84, DESIGN
CHOICE). -/
def noticeParts : Notice → Nat × Byte × List Byte
  | .startReport r => (1, 0, startBytes r)
  | .done tag kind v res => (2, tag, n1 (opKindCode kind) ++ n1 (verdictCode v) ++ resultBytes res)
  | .portChange p st f light c =>
    (3, 0, n1 (portCode p) ++ n1 (portStateCode st) ++ portFlagSet f ++ i2 light ++ n1 (portCauseCode c))
  | .loopChange v c => (4, 0, viewBytes v ++ loopCauseBytes c)
  | .mapChange serial members joined gone =>
    (5, 0, optBytes (fun x => n2 x.toNat) serial ++ nodeSet members ++ nodeSet joined ++ nodeSet gone)
  | .outputChange outs st c set stage =>
    (6, 0, outputSet outs ++ n1 (outStateCode st) ++ n1 (reportedCode c) ++ causeSetByte set ++
      n1 (resumeStageCode stage))
  | .gainChange i g serial c => (7, 0, [1] ++ n1 i ++ settingBytes g ++ n1 serial.toNat ++ gainCauseBytes c)
  | .gainCacheChange n i g serial slots =>
    (7, 0, [2] ++ nodeByte n ++ n1 i ++ settingBytes g ++ n1 serial.toNat ++ listBytes n1 slots)
  | .trackLimit tap slot gain ref diff trim =>
    (8, 0, n1 tap ++ n1 slot ++ n1 gain ++ n1 ref ++ i1 diff ++ i1 trim)
  | .talkChange b t serial depth =>
    (9, 0, [1] ++ n1 (busCode b) ++ namedBytes talkerBytes t ++ n2 serial.toNat ++ n1 depth)
  | .talkDrop c keys => (9, 0, [2] ++ n1 (dropCauseCode c) ++ listBytes (fun k => n1 (keyCode k)) keys)
  | .keyChange k b st latched c =>
    (10, 0, n1 (keyCode k) ++ n1 (busCode b) ++ n1 (keyStateCode st) ++ flagByte latched ++
      n1 (keyCauseCode c))
  | .lockRaise old new => (11, 0, n1 1 ++ n1 old ++ n1 new)
  | .lockLoop level => (11, 0, n1 2 ++ n1 level)
  | .lockNote n level => (11, 0, n1 3 ++ nodeByte n ++ optBytes n1 level)
  | .hostReturn since span count => (12, 0, framesOpt since ++ n4 span ++ n4 count.toNat)

/-- A notice as a frame; its class tells whether notices were lost (R185). -/
def noticeFrame (lost : Bool) (n : Notice) : List Byte :=
  let (kind, tag, body) := noticeParts n
  lineFrame (if lost then 4 else 3) tag kind body

/-! ### Replies (R181, R186, R187) -/

def tapSourceBytes : TapSource → List Byte
  | .unused => n1 1
  | .slot n => n1 2 ++ n1 n
  | .loc i => n1 3 ++ n1 i
  | .talkOnly => n1 4
def safeModeBytes : SafeMode → List Byte
  | .mute => n1 1
  | .fallback i => n1 2 ++ n1 i
def latencyBytes : Latency → List Byte
  | .absent => [0]
  | .frames n => [1] ++ n1 n
  | .unknown => [2]
/-- A time left that may be absent, in the two bytes its timer's range needs (11.7; log entry 86, DEDUCED). -/
def timeBytes (t : Timer) : List Byte := optBytes (fun x => n2 (msLeft x)) t
/-- The time left of a settle timer, of a range of 0 to 50 ms: one byte (11.7, R145; log entry 86, DEDUCED). -/
def settleBytes (t : Timer) : List Byte := optBytes (fun x => n1 (msLeft x)) t
/-- A time left that the rule gives the named value none beside (R127, R161). -/
def timeOrNone (t : Timer) : List Byte := namedBytes (fun x => n2 (msLeft x)) t

/-- The fields of a tap in the order of R109: the settings of R97, then the trim in force, the reference gain and
the tracking flags, then the source validity. The trim, a setting too, is given once, in the second place (log entry
63, DESIGN CHOICE). -/
def tapBytes (t : Tap) : List Byte :=
  tapSourceBytes t.source ++ flagByte t.tracking ++ busSetByte t.listen ++ flagByte t.dim ++
    i1 t.dimDepth ++ safeModeBytes t.safe ++ n1 (resumeModeCode t.resume) ++ n2 t.fade ++
    flagByte t.panicFollow ++ i1 t.trim ++ n1 t.refGain ++ setByte [t.unknown, t.limit] ++ flagByte t.valid

def outBytes (o : OutRec) (reported : ReportedCause) (len : Nat) : List Byte :=
  n1 (outStateCode o.state) ++ causeSetByte o.causes ++ n1 (reportedCode reported) ++ n2 o.pos ++
    n2 o.fallback ++ n2 len ++ n1 (resumeStageCode o.stage) ++ timeOrNone o.hold

/-- A key record (R128, R145). The press timer is given as the whole ms elapsed, in 4 bytes, rounded down, a
virtual key's settle time is given like a physical key's, and the two levels of a physical key are flags, 1 for
PRESSED, the filtered one (R128) before the raw one, which R145 names the other way round (log entry 72, DESIGN
CHOICE). -/
def keyRecBytes (i : Nat) (k : KeyRec) : List Byte :=
  flagByte k.enabled ++ n1 (busCode k.bus) ++ n1 k.source ++ n1 k.priority ++ n1 (keyModeCode k.mode) ++
    n1 k.settleMs ++ n2 k.tapMs ++ n1 (keyStateCode k.state) ++ flagByte k.latched ++
    optBytes (fun x => n4 (x.since / Config.ticksPerMs)) k.press ++ timeBytes k.answer ++
    flagByte k.releaseOwed ++
    (if i < 8 then flagByte k.pressed ++ flagByte k.raw ++ settleBytes k.settle else [])

def claimBytes (c : Claim) : List Byte := talkerBytes c.talker ++ n1 c.priority

def busRecBytes (r : BusRec) : List Byte :=
  optBytes claimBytes r.decided ++ listBytes claimBytes r.stack ++ n2 r.serial.toNat ++
    optBytes talkerBytes r.inForce ++ flagByte r.owed

def flightBytes (f : SlotChange × Serial) : List Byte := changeBytes f.1 ++ n2 f.2.toNat

def endedBytes (o : EndedOp) : List Byte :=
  [o.tag] ++ n1 (opKindCode o.kind) ++ n1 (verdictCode o.outcome) ++ resultBytes o.result

/-- A table entry (R187 and the rules it names). Every entry begins with its index, the bus for TALK, also where the
rule lists no index among its contents (log entry 72, DESIGN CHOICE). -/
def tableEntryBytes : TableEntry → List Byte
  | .allot slot e master => n1 slot ++ entryBytes e ++ (match master with
    | some (f, u) => optBytes flightBytes f ++ flagByte u
    | none => [])
  | .tap n t program talk heard out reported len =>
    n1 n ++ tapBytes t ++ latencyBytes program ++
      listBytes (fun (b, l) => n1 (busCode b) ++ latencyBytes l) talk ++ busSetByte heard ++
      outBytes out reported len
  | .gain i e =>
    n1 i ++ settingBytes e.applied ++ n1 e.serial.toNat ++ n1 e.issued.toNat ++
      optBytes (fun f => settingBytes f.setting ++ n1 f.serial.toNat) e.inFlight ++ timeOrNone e.mute
  | .cache slot e => n1 slot ++ namedBytes (fun (g, serial) => settingBytes g ++ n1 serial.toNat) e
  | .key i k => n1 i ++ keyRecBytes i k
  | .talk b v r =>
    n1 (busCode b) ++ optBytes (fun x => n2 x.toNat) v.serial ++
      namedBytes (fun (n, k) => nodeByte n ++ namedBytes (fun k => n1 (keyCode k)) k) v.talker ++
      (match r with
      | some r => busRecBytes r
      | none => [])
  | .map e => mapEntryBytes e
  | .link i e =>
    n1 i ++ optBytes (fun s => n1 (linkStateCode s)) e.state ++ flagByte e.marginal ++
      optBytes nodeByte e.partner ++ optBytes groupBytes e.group ++ flagByte e.wrapped ++
      timeBytes e.heal
  | .operation i o =>
    n1 i ++ [o.tag] ++ n1 (opKindCode o.kind) ++ n1 (stageCode o.stage) ++ timeBytes o.answer
  | .ended i o => n1 i ++ endedBytes o

def countersBytes (c : PortCounters) : List Byte :=
  n4 c.good ++ n4 c.bad ++ n4 c.alignLosses ++ n4 c.relockFailures ++ n4 c.marginalEntries ++ n4 c.drills

/-- READ_PORT's report in the order of R36. A drill's start frame and its time left are absent or present together,
and one presence byte stands before the two (log entry 77, DESIGN CHOICE). -/
def portReportBytes (r : PortReport) : List Byte :=
  n1 (portStateCode r.state) ++ portFlagSet r.flags ++ i2 r.light ++ optBytes fieldBytes r.partner ++
    optBytes n2 r.linkDelay ++ countersBytes r.counters ++ i2 r.loss ++ i2 r.marginalAt ++ n1 r.hyst.toNat ++
    n2 r.settleMs ++ optBytes (fun (f, t) => n4 f.toNat ++ n2 (msLeft t)) r.drill

/-- The slot arbitration part of STATUS (R94, R186); one presence byte stands before a collection's serial and the
number of its pieces together (log entry 77, DESIGN CHOICE). -/
def allotStatusBytes : AllotStatus → List Byte
  | .copy current last c =>
    flagByte current ++ optBytes (fun x => n2 x.toNat) last ++
      optBytes (fun (x, n) => n2 x.toNat ++ n1 n) c
  | .master issued applied running pending reqs =>
    n2 issued.toNat ++ n2 applied.toNat ++ flagByte running ++ flagByte pending ++
      reqs.flatMap (optBytes fun x => n2 x.toNat)

def superBytes (r : SuperRec) : List Byte :=
  n2 r.periodMs ++ timeBytes r.timer ++ flagByte r.silent ++ framesOpt r.since ++ n4 r.span

/-- STATUS in the order of R186, the loop record in that of R43. One presence byte stands before the contents that are
absent only together: a former own group's rank and epoch, a STAGE node's gain snapshot contents (log entry 77, DESIGN
CHOICE). -/
def statusBytes (r : StatusReport) : List Byte :=
  n1 (resetCauseCode r.cause) ++ strapSampleBytes r.straps ++ flagByte r.held ++ nodeByte r.id ++
    n1 (funcCode r.func) ++ n1 (roleCode r.role) ++
    n1 (loopModeCode r.loop.mode) ++ n1 (originRoleCode r.loop.role) ++ optBytes groupBytes r.loop.group ++
    flagByte r.following ++ n2 r.loop.epoch.toNat ++ n4 r.count.toNat ++ wrapBytes r.loop.wrapA ++
    wrapBytes r.loop.wrapB ++ n1 r.timeout ++ flagByte r.takeoverRunning ++ optBytes n4 r.circuit ++
    optBytes (fun c => n1 (conflictCode c)) r.conflict ++
    optBytes (fun (k, e) => n1 (rankCode k) ++ n2 e.toNat) r.formerOwn ++
    r.ports.flatMap (fun (st, f, u) => n1 (portStateCode st) ++ portFlagSet f ++ flagByte u) ++
    optBytes (fun x => n2 x.toNat) r.mapSerial ++ nodeSet r.members ++
    allotStatusBytes r.allot ++
    optBytes (fun (run, mark, ms) => flagByte run ++ flagByte mark ++ n2 ms) r.gainSnap ++
    n1 r.lockLevel ++ flagByte r.noteOwed ++ optBytes n1 r.loopLevel ++ r.lockView.flatMap (optBytes n1) ++
    superBytes r.supervision ++
    flagByte r.panicOn ++ flagByte r.panicRaw ++ n1 r.filterMs ++ n2 r.holdMs ++
    outputSet r.outUnused ++ outputSet r.outLive ++ outputSet r.outFadingOut ++ outputSet r.outSafe ++
    outputSet r.outFadingIn ++
    n1 r.operations ++ n1 r.notices ++ flagByte r.lost

def dataBytes : Data → List Byte
  | .status r => statusBytes r
  | .table entries next => listBytes tableEntryBytes entries ++ namedBytes n1 next
  | .port r => portReportBytes r
  | .pairs l => listBytes pairResultBytes l
  | .resumed yes no => outputSet yes ++ outputSet no

/-- A reply's status number and body (R181). -/
def replyParts : Reply → Nat × List Byte
  | .ok => (1, [])
  | .data d => (2, dataBytes d)
  | .started => (3, [])
  | .busy => (4, [])
  | .refused r => (5, n1 (reasonCode r))
  | .unknown => (6, [])
  | .damaged => (7, [])

def replyFrame (e : InboxEntry) : List Byte :=
  let (kind, body) := replyParts e.reply
  lineFrame 2 e.tag kind body

/-! ### Parsing request bodies (11.6, 11.7, R180) -/

/-- A parser: a value and the bytes that are left, or none where the bytes do not fit. -/
abbrev Parse (α : Type) := List Byte → Option (α × List Byte)

def pNum : Nat → Parse Nat
  | 0, l => some (0, l)
  | _ + 1, [] => none
  | k + 1, b :: l => (pNum k l).map fun (n, r) => (b.toNat * 256 ^ k + n, r)

def pMap {α β : Type} (f : α → β) (p : Parse α) : Parse β := fun l => (p l).map fun (x, r) => (f x, r)
def pBind {α β : Type} (p : Parse α) (f : α → Parse β) : Parse β := fun l =>
  match p l with
  | some (x, r) => f x r
  | none => none
def pPure {α : Type} (x : α) : Parse α := fun l => some (x, l)
def pOf {α : Type} (f : Nat → Option α) : Parse α := fun l =>
  match l with
  | [] => none
  | b :: r => (f b.toNat).map fun x => (x, r)

/-- A signed number of `k` bytes. -/
def pInt (k : Nat) : Parse Int := pMap (fun n => (BitVec.ofNat (8 * k) n).toInt) (pNum k)

/-- A named value, numbered from 1 in the order of its list. -/
def pName {α : Type} (l : List α) : Parse α := pOf fun n => if n = 0 then none else l[n - 1]?

def pFlag : Parse Bool := pOf fun n => if n = 0 then some false else if n = 1 then some true else none

/-- An optional field. -/
def pOpt {α : Type} (p : Parse α) : Parse (Option α) :=
  pBind (pOf fun n => if n = 0 then some false else if n = 1 then some true else none) fun b =>
    if b then pMap some p else pPure none

/-- A number or list beside a named value: 1 and the number, or 2 for the name. -/
def pOr {α : Type} (p : Parse α) : Parse (Option α) :=
  pBind (pOf fun n => if n = 1 then some true else if n = 2 then some false else none) fun b =>
    if b then pMap some p else pPure none

/-- A counted run of entries. -/
def pTimes {α : Type} (p : Parse α) : Nat → Parse (List α)
  | 0 => pPure []
  | n + 1 => pBind p fun x => pMap (x :: ·) (pTimes p n)

def pList {α : Type} (p : Parse α) : Parse (List α) := pBind (pNum 1) fun n => pTimes p n

def pPort : Parse PortId := pName [.a, .b]
def pKey : Parse KeyName := pName allKeys
def pBus : Parse Bus := pName allBuses
def pBusSet : Parse BusSet := pOf fun n =>
  if n < 16 then some ⟨n.testBit 0, n.testBit 1, n.testBit 2, n.testBit 3⟩ else none
def pSource : Parse TapSource := pBind (pNum 1) fun n =>
  match n with
  | 1 => pPure .unused
  | 2 => pMap .slot (pNum 1)
  | 3 => pMap .loc (pNum 1)
  | 4 => pPure .talkOnly
  | _ => fun _ => none
def pSafe : Parse SafeMode := pBind (pNum 1) fun n =>
  match n with
  | 1 => pPure .mute
  | 2 => pMap .fallback (pNum 1)
  | _ => fun _ => none
def pOutputs : Parse OutputSel := pMap (fun o => match o with
  | some l => .list l
  | none => .all) (pOr (pList (pNum 1)))
def pPair : Parse ClaimPair := pBind (pOr (pNum 1)) fun slot => pMap (fun i => ⟨slot, i⟩) (pNum 1)

def pThresholds : Parse ThresholdFields :=
  pBind (pOpt (pInt 2)) fun loss => pBind (pOpt (pInt 2)) fun marginal =>
  pBind (pOpt (pMap Int.ofNat (pNum 1))) fun hyst =>
  pMap (fun settle => ⟨loss, marginal, hyst, settle⟩) (pOpt (pNum 2))
def pRecovery : Parse RecoveryFields :=
  pBind (pOpt (pName [.auto, .onCommand])) fun policy => pBind (pOpt (pNum 2)) fun delay =>
  pBind (pOpt (pNum 2)) fun takeover => pMap (fun pre => ⟨policy, delay, takeover, pre⟩) (pOpt pFlag)
def pTap : Parse TapFields :=
  pBind (pOpt pSource) fun source => pBind (pOpt pFlag) fun tracking => pBind (pOpt (pInt 1)) fun trim =>
  pBind (pOpt pBusSet) fun listen => pBind (pOpt pFlag) fun dim => pBind (pOpt (pInt 1)) fun depth =>
  pBind (pOpt pSafe) fun safe => pBind (pOpt (pName [.auto, .manual])) fun resume =>
  pBind (pOpt (pNum 2)) fun fade =>
  pMap (fun follow => ⟨source, tracking, trim, listen, dim, depth, safe, resume, fade, follow⟩) (pOpt pFlag)
def pGain : Parse GainFields :=
  pBind (pOpt (pNum 1)) fun gain => pBind (pOpt pFlag) fun pad =>
  pMap (fun phantom => ⟨gain, pad, phantom⟩) (pOpt pFlag)
def pKeyFields : Parse KeyFields :=
  pBind (pOpt pFlag) fun enabled => pBind (pOpt pBus) fun bus => pBind (pOpt (pNum 1)) fun source =>
  pBind (pOpt (pNum 1)) fun priority => pBind (pOpt (pName [.auto, .momentary, .latch])) fun mode =>
  pBind (pOpt (pNum 1)) fun settle =>
  pMap (fun tap => ⟨enabled, bus, source, priority, mode, settle, tap⟩) (pOpt (pNum 2))
def pTable : Parse TableName :=
  pName [.allot, .taps, .gain, .gainCache, .keys, .talk, .map, .links, .operations]
def pHeal : Parse HealTarget := pMap (fun o => match o with
  | some (n, p) => .linkEnd n p
  | none => .any) (pOr (pBind (pNum 1) fun n => pMap (fun p => (n, p)) pPort))

/-- The parser of a request's body by its number in the catalogue, for a tag; `none` for a kind that the
catalogue does not name. -/
def requestParser (t : Byte) (kind : Nat) : Option (Parse Instr) :=
  match kind with
  | 1 => some (pPure (.status t))
  | 2 => some (pBind pTable fun name => pMap (.readTable t name) (pNum 1))
  | 3 => some (pMap (.readPort t) pPort)
  | 4 => some (pBind (pOpt (pNum 1)) fun id => pBind (pOpt (pName [.stage, .desk])) fun f =>
      pMap (.setNode t id f) (pOpt (pName [.master, .deputy, .member])))
  | 5 => some (pMap (.setRate t) (pName [.k48, .k96]))
  | 6 => some (pMap (.setLoopName t) (pNum 2))
  | 7 => some (pPure (.go t))
  | 8 => some (pPure (.resetPart t))
  | 9 => some (pBind (pName [.a, .b, .both]) fun sel => pMap (.setThresholds t sel) pThresholds)
  | 10 => some (pBind pPort fun p => pMap (.drill t p) (pNum 2))
  | 11 => some (pMap (.setRecovery t) pRecovery)
  | 12 => some (pMap (.setSwitchLead t) (pNum 2))
  | 13 => some (pMap (.heal t) pHeal)
  | 14 => some (pPure (.loopReset t))
  | 15 => some (pMap (.claimSlot t) (pList pPair))
  | 16 => some (pBind (pList (pNum 1)) fun l => pMap (.releaseSlot t l) pFlag)
  | 17 => some (pBind (pNum 1) fun n => pMap (.setTap t n) pTap)
  | 18 => some (pBind (pNum 1) fun n => pMap (.setTrackRef t n) (pNum 1))
  | 19 => some (pBind (pOpt (pNum 1)) fun node => pBind (pNum 1) fun i => pBind pGain fun f =>
      pMap (.setGain t node i f) pFlag)
  | 20 => some (pBind (pNum 1) fun node => pBind (pNum 1) fun i => pMap (.claimGain t node i) pFlag)
  | 21 => some (pBind (pNum 1) fun node => pMap (.yieldGain t node) (pNum 1))
  | 22 => some (pMap (.setPhantomMute t) (pNum 2))
  | 23 => some (pBind pKey fun k => pMap (.setKey t k) pKeyFields)
  | 24 => some (pMap (.talkPress t) pKey)
  | 25 => some (pMap (.talkLift t) pKey)
  | 26 => some (pMap (.resume t) pOutputs)
  | 27 => some (pBind pOutputs fun l => pMap (.forceSafe t l) pFlag)
  | 28 => some (pBind (pOpt (pNum 2)) fun hold => pMap (.setSafety t hold) (pOpt (pNum 1)))
  | 29 => some (pMap (.setLock t) (pNum 1))
  | 30 => some (pMap (.setSupervision t) (pNum 2))
  | _ => none

/-- What a request frame's kind and body stand for. -/
inductive Parsed
  | request (i : Instr)
  | unfit
  | unknown
  deriving DecidableEq, Repr

/-- The request of a good frame (R180): unfit where the body does not fit its kind. -/
def parseRequest (tag : Byte) (kind : Byte) (body : List Byte) : Parsed :=
  match requestParser tag kind.toNat with
  | none => .unknown
  | some p =>
    match p body with
    | some (i, []) => .request i
    | some (_, _ :: _) => .unfit
    | none => .unfit

/-- What the bytes of one host frame amount to (R178, R180). -/
inductive LineInput
  | silent
  | damaged
  | good (tag : Byte) (kind : Byte) (body : List Byte)
  deriving DecidableEq, Repr

/-- A stream of bytes judged as a request frame (R178, R180); bytes after the frame are passed over. -/
def judgeBytes (l : List Byte) : LineInput :=
  match l with
  | start :: cls :: tag :: kind :: len :: rest =>
    if start ≠ 0xA5 then .silent
    else
      let n := len.toNat
      let body := rest.take n
      let tail := (rest.drop n).take 2
      if cls ≠ 1 || Config.bodyMax < n || tail.length < 2 then .damaged
      else if tail ≠ n2 (lineCheck ([cls, tag, kind, len] ++ body)).toNat then .damaged
      else .good tag kind body
  | start :: _ => if start ≠ 0xA5 then .silent else .damaged
  | [] => .silent

end Sys2Proof.Machine
end

