-- ==== Sys2Proof/Machine/Visit.lean ====
section
/-! DEFINITION. Frames at the Loop Engine: acting on cells, confirmation, the cell written, first visits,
relay, dispatch, circuit end, origination (Sections 1 and 3). -/

namespace Sys2Proof.Machine

open Sys2Proof

/-! ### Acting on loop messages (R11, R19) -/

/-- A switch-bearing message acted on is entered under its sender; an entry of another epoch than the
node's is not made (R18; log entry 35). -/
def enterReceived (owner : NodeId) (h : Header) (item : SwitchItem) (frame : FrameNo) (s : State) : State :=
  if h.origin.epoch = s.loop.epoch then
    enterSwitch ⟨owner, item, frame, s.loop.epoch, none, false, .loc⟩ s
  else s

/-- The switch frame a message carries. -/
def switchOf (m : Message) (s : State) : FrameNo := m.switch.getD s.loop.count

/-- The reference serial of an ALLOT (R78): the one held pending from its sender, else the last
applied. -/
def referenceSerial (s : State) (owner : NodeId) : Option Serial :=
  match pendingOf s owner with
  | some ⟨_, .msg (.allot serial _), _, _, _, _, _⟩ => some serial
  | some _ => s.slots.lastApplied
  | none => s.slots.lastApplied

/-- An ALLOT has been missed (R78). -/
def allotGap (s : State) (owner : NodeId) (serial : Serial) : Bool :=
  s.slots.current && match referenceSerial s owner with
    | none => false
    | some r => newer16 serial r && serial != r + 1

/-- A node not configured MASTER acts on an ALLOT (R78). At a gap the copy stops being current and the SNAP_REQ is
queued before an entry still held of the sender is applied (log entry 52, DESIGN CHOICE). -/
def takeAllot (owner : NodeId) (h : Header) (m : Message) (serial : Serial) (s : State) : State :=
  if s.isMaster then s
  else
    let s1 := if allotGap s owner serial then retryCheck (rejudge (pushSnapReq (loseCurrency s))) else s
    enterReceived owner h (.msg m.body) (switchOf m s) s1

/-- A newer collection supersedes one whose entry waits for its switch frame: entry and collection are discarded
without other effect (R90, R91). -/
def supersede (owner : NodeId) (s : State) : State :=
  match pendingOf s owner with
  | none => s
  | some p =>
    match p.item with
    | .snapshot _ =>
      if reached s.loop.count p.frame then s
      else
        let s' := dropPending owner s
        { s' with slots := { s'.slots with collection := none } }
    | .msg _ => s

/-- A node not configured MASTER acts on a SNAP piece (R90). -/
def takeSnap (owner : NodeId) (h : Header) (m : Message) (serial : Serial) (piece : Nat)
    (entries : List SlotEntry) (s : State) : State :=
  if s.isMaster || h.origin.epoch ≠ s.loop.epoch then s
  else if sameCollection s serial (switchOf m s) then storePiece piece entries s
  else
    beginCollection serial (switchOf m s) piece entries
      (enterReceived owner h (.snapshot serial) (switchOf m s) (supersede owner s))

/-- A SLOT_ANSWER ends the AWAITING operation of its tag (R87, R184; log entry 23). -/
def takeSlotAnswer (tag : Byte) (results : List PairResult) (s : State) : State :=
  if s.isMaster then s
  else match findOp tag s with
    | none => s
    | some o =>
      match o.kind, o.stage with
      | .claimSlot, .awaiting | .releaseSlot, .awaiting => endOp tag .ok (.pairs results) s
      | _, _ => s

/-- A node acts on the RESTART: it performs a LOOP reset (R73, R168). -/
def takeRestart (epoch : Epoch) (s : State) : State :=
  match s.loop.group with
  | none => s
  | some g =>
    if s.isOrigin then s
    else
      let s1 := supervisionLoopReset (emptyQueue s)
      afterLoop .restart s (epochChange { g with epoch := epoch } .follower s1)

/-- A message acted on is handed to the block that acts on its kind (R19). -/
def actOn (owner : NodeId) (h : Header) (m : Message) (s : State) : State :=
  match m.body with
  | .map serial entries => takeMap serial entries s
  | .allot serial _ => takeAllot owner h m serial s
  | .snap serial piece entries => takeSnap owner h m serial piece entries s
  | .snapReq last => takeSnapReq owner last s
  | .slotClaim tag pairs => takeSlotAsk owner tag m.num (.claim pairs) s
  | .slotRelease tag slots => takeSlotAsk owner tag m.num (.release slots false) s
  | .slotAnswer tag results => takeSlotAnswer tag results s
  | .gainSet tag i g p ph => takeGainAsk owner tag m.num i (.set g p ph) s
  | .gainClaim tag i force => takeGainAsk owner tag m.num i (.claim force) s
  | .gainYield tag i => takeGainAsk owner tag m.num i .yld s
  | .gainAnswer tag v => takeGainAnswer tag v s
  | .gainNote _ _ _ => enterReceived owner h (.msg m.body) (switchOf m s) s
  | .gainSnap piece entries => takeGainSnap owner piece entries s
  | .talkClaim b k prio => takeTalkClaim b ⟨⟨owner, k⟩, prio⟩ s
  | .talkRelease b k => takeTalkRelease b ⟨owner, k⟩ s
  | .talkGrant _ t _ _ =>
    if owner = h.origin.id then
      enterReceived owner h (.msg m.body) (switchOf m s) (grantHeard t s)
    else s
  | .talkRefuse b n k r => if owner = h.origin.id then applyRefuse b n k r s else s
  | .linkNote p st marginal partner g => takeLinkNote owner p st marginal partner g s
  | .wrapPlan _ => enterReceived owner h (.msg m.body) (switchOf m s) s
  | .unwrapPlan _ => enterReceived owner h (.msg m.body) (switchOf m s) s
  | .restart e => takeRestart e s
  | .lockNote level => setLockView owner (some level) s

/-- A message is for this node: addressed to it or to ALL (R11). -/
def addressed (s : State) (m : Message) : Bool :=
  match m.dest with
  | none => true
  | some n => n == s.start.id

/-- One cell is read (R11): a repeat is passed over, anything else recorded and acted on. -/
def readCell (h : Header) (s : State) (owner : NodeId) (c : Option Message) : State :=
  match c with
  | none => s
  | some m =>
    if owner = s.start.id || !addressed s m then s
    else if s.loop.lastActed.getD owner.val none = some m.num then s
    else
      actOn owner h m
        { s with loop := { s.loop with lastActed := s.loop.lastActed.set owner.val (some m.num) } }

/-- The eight cells are read in ascending order (R11). -/
def readCells (f : Frame) (s : State) : State :=
  allNodes.foldl (fun a n => readCell f.header a n (f.cells.getD n.val none)) s

/-! ### Confirmation and drops (R12, R13) -/

/-- The item written at the previous first visit is confirmed (R12). -/
def isConfirmed (w : WrittenItem) (f : Frame) (s : State) : Bool :=
  decide (f.header.count = w.count + 1) && decide (s.loop.epoch = w.epoch) &&
    decide (f.header.origin.epoch = w.epoch) &&
    match f.cells.getD s.start.id.val none with
    | some m => decide (m.num = w.msg.num) && decide (msgKind m.body = msgKind w.msg.body)
    | none => false

/-- The snapshot sender moves on from its current piece (R15). -/
def advancePiece (s : State) : State :=
  match s.snap.run with
  | none => s
  | some r =>
    let count := match r.kind with
      | .allot => pieceCount s.start.rate
      | .gain => 16
    if count ≤ r.piece + 1 then snapshotStart { s with snap := { s.snap with run := none } }
    else { s with snap := { s.snap with run := some { r with piece := r.piece + 1, sends := 0, msg := none } } }

/-- The operation of a confirmed message advances (R183). -/
def confirmOp (o : Operation) : Operation :=
  match o.kind with
  | .heal => { o with stage := .running }
  | .claimSlot | .releaseSlot | .setGain | .claimGain | .yieldGain =>
    { o with stage := .awaiting, answer := some (ticksOf Config.answerMs) }
  | .go | .drill => o

/-- The operation table is told of a confirmation by this frame, before the cells are read, so that an answer in
the same frame finds its operation AWAITING (R12, R183, R184; log entry 23). -/
def tellConfirmed (f : Frame) (s : State) : State :=
  match s.queue.written, s.queue.items with
  | some w, i :: _ =>
    match i.op with
    | some t => if !w.piece && isConfirmed w f s then modifyOp t confirmOp s else s
    | none => s
  | _, _ => s

/-- A confirmed queued message leaves the queue (R12, R86). -/
def confirmHead (s : State) : State :=
  match s.queue.items with
  | [] => s
  | i :: rest =>
    let s1 := { s with queue := { s.queue with items := rest } }
    match i.body with
    | .allot serial changes =>
      let mark (p : PendingSwitch) : PendingSwitch :=
        if ownEntryOf s.start.id i.body p then { p with confirmed := true } else p
      allotConfirmed serial changes { s1 with switches := s1.switches.map mark }
    | _ => s1

/-- Step 3's assessment (R12). -/
def assess (f : Frame) (s : State) : State :=
  match s.queue.written with
  | none => s
  | some w =>
    let s1 := { s with queue := { s.queue with written := none } }
    if isConfirmed w f s then if w.piece then advancePiece s1 else confirmHead s1
    else s1

/-- What the drop of a queued message means to its owner (R13, R85, R117, R134, R139, R166). An ALLOT or a GAIN_NOTE
whose pending entry an epoch change discarded while it stood in the queue, and which is dropped before it is sent
again, leaves its change in flight, neither applied nor lost (log entry 65, DESIGN CHOICE). -/
def dropEffect (i : QItem) (s : State) : State :=
  let s := loseOp i.op s
  match i.body with
  | .allot _ changes => allotDropped changes s
  | .gainNote _ _ _ => needGainSnap s
  | .talkClaim _ k _ => claimDropped k s
  | .talkRelease _ k => oweRelease k s
  | .talkGrant b _ _ _ => setBusRec b { busAt s b with owed := true } s
  | .lockNote _ => { s with lock := { s.lock with noteOwed := true } }
  | _ => s

/-- The head of the queue has been sent 4 times and is not confirmed (R13). -/
def headSpent (s : State) : Bool :=
  match s.queue.items with
  | [] => false
  | i :: _ => decide (Config.sendMax ≤ i.sends)

/-- The current piece has been sent 4 times and is not confirmed (R13). -/
def pieceSpent (s : State) : Bool :=
  match s.snap.run with
  | none => false
  | some r => decide (Config.sendMax ≤ r.sends)

/-- The unconfirmed items are examined before the choice (R13). -/
def dropSpent (s : State) : State :=
  let s1 := if headSpent s then
      match s.queue.items with
      | [] => s
      | i :: rest => dropEffect i { s with queue := { s.queue with items := rest } }
    else s
  if pieceSpent s1 then advancePiece s1 else s1

/-- A TALK_GRANT or TALK_REFUSE of an earlier epoch: decided under another group than the present one, as after
a yield to a group whose epoch has the same number (R139; log entry 54). -/
def staleTalk (s : State) (i : QItem) : Bool :=
  match i.body with
  | .talkGrant _ _ _ _ => i.group != s.loop.group
  | .talkRefuse _ _ _ _ => i.group != s.loop.group
  | _ => false

/-- Stale grants and refusals that reach the head are dropped without a send (R139). -/
def dropStale (s : State) : State :=
  { s with queue := { s.queue with items := s.queue.items.dropWhile (staleTalk s) } }

/-! ### Owed messages (R14) -/

/-- The owed UNWRAP_PLANs in the order of R70. -/
def unwrapInOrder (s : State) : List Link :=
  (List.range 16).flatMap fun i => s.loop.unwrapOwed.filter fun l => decide (lowerIndex l = i)

/-- An owed MAP enters the queue (R14, R59). -/
def admitMap (s : State) : State :=
  if s.loop.mapOwed && queueRoom s then
    publishMap { s with loop := { s.loop with mapOwed := false } }
  else s

/-- Owed LINK_NOTEs enter the queue (R14, R54). -/
def admitNotes (s : State) : State :=
  let s1 := if s.loop.noteOwedA && queueRoom s then
      pushLinkNote .a { s with loop := { s.loop with noteOwedA := false } }
    else s
  if s1.loop.noteOwedB && queueRoom s1 then
    pushLinkNote .b { s1 with loop := { s1.loop with noteOwedB := false } }
  else s1

/-- One owed UNWRAP_PLAN enters the queue (R14, R70). -/
def admitUnwrap (s : State) (l : Link) : State :=
  if queueRoom s then
    let owed := s.loop.unwrapOwed.filter fun x => decide (x ≠ l)
    sendUnwrap l { s with loop := { s.loop with unwrapOwed := owed } }
  else s

/-- Owed messages are admitted in the order of R14. -/
def admitOwed (s : State) : State :=
  let s1 := allBuses.foldl admitGrant s
  let s2 := allKeys.foldl admitRelease s1
  let s3 := admitNotes (admitMap s2)
  let s4 := (unwrapInOrder s3).foldl admitUnwrap s3
  admitLockNote s4

/-! ### Writing the cell (R13, R15 to R17) -/

/-- Another item than this queued message is outstanding (R17): a message sent before is outstanding itself until
its stamped frame is passed, and another may be from then on. -/
def otherOutstanding (s : State) (i : QItem) : Bool :=
  outstanding s && s.queue.outstanding != i.stamp

/-- The head of the queue is ready: it is not held back by the one-outstanding rule (R13, R17). -/
def headReady (s : State) : Bool :=
  match s.queue.items with
  | [] => false
  | i :: _ => !(bearsSwitch i.body && otherOutstanding s i)

/-- The snapshot sender has a piece ready (R15, R17). An allotment snapshot that has started keeps running where a
switch-bearing message is sent before its first piece: the piece is held back till the message is no longer
outstanding (log entry 56, DESIGN CHOICE). -/
def pieceReady (s : State) : Bool :=
  match s.snap.run with
  | none => false
  | some r =>
    match r.kind with
    | .gain => true
    | .allot => r.stamp.isSome || !outstanding s

/-- Which of the two the cell carries (R15; log entry 17). -/
def cellTurn (s : State) : Wrote :=
  match headReady s, pieceReady s with
  | false, false => .neither
  | true, false => .queue
  | false, true => .piece
  | true, true => match s.queue.last with
    | .queue => .piece
    | .piece | .neither => .queue

/-- The destination of a queued message in a frame (R19). -/
def resolveDest (h : Header) (d : QDest) : Option NodeId :=
  match d with
  | .all => none
  | .node n => some n
  | .origin => some h.origin.id

/-- What the first send of a message does beside the stamp (R134, R183). -/
def firstSend (i : QItem) (s : State) : State :=
  let s1 := match i.op with
    | some t => modifyOp t (fun o => { o with stage := .sent }) s
    | none => s
  match i.body with
  | .talkClaim _ k _ => claimSent k s1
  | _ => s1

/-- A switch-bearing head is stamped at its send and entered in the node's own list (R16, R18). -/
def stampHead (i : QItem) (s : State) : QItem × State :=
  if bearsSwitch i.body && i.stamp.isNone then
    let frame := s.loop.count + BitVec.ofNat 32 s.queue.lead
    let s1 := { s with queue := { s.queue with outstanding := some frame } }
    ({ i with stamp := some frame },
      enterSwitch ⟨s.start.id, .msg i.body, frame, s.loop.epoch, i.op, false, i.cause⟩ s1)
  else (i, s)

/-- Replace the head of the queue. -/
def setHead (i : QItem) (s : State) : State :=
  { s with queue := { s.queue with items := i :: s.queue.items.tail } }

/-- The head of the queue is written: one send (R13). -/
def sendHead (h : Header) (s : State) : State × Option Message :=
  match s.queue.items with
  | [] => (s, none)
  | i :: _ =>
    let (i1, s1) := stampHead i s
    let s2 := if i.sends = 0 then firstSend i s1 else s1
    let s3 := match i.body with
      | .snapReq _ => retryRestart s2
      | _ => s2
    let msg : Message := ⟨resolveDest h i.dest, i.num, i.body, i1.stamp⟩
    let s4 := setHead { i1 with sends := i.sends + 1 } s3
    ({ s4 with queue := { s4.queue with
        written := some ⟨false, msg, h.count, h.origin.epoch⟩, last := .queue } }, some msg)

/-- The body of a piece at its first send (R15, R89, R120). -/
def pieceBody (r : SnapRun) (s : State) : LoopMsg :=
  match r.kind with
  | .allot => .snap r.serial r.piece (pieceEntries s r.piece)
  | .gain => .gainSnap r.piece (gainPiece s r.piece)

/-- An allotment snapshot is stamped once, at the first send of its first piece, and entered in the
master's own list (R16, R18, R89). -/
def stampSnap (r : SnapRun) (s : State) : SnapRun × State :=
  match r.kind, r.stamp with
  | .allot, none =>
    let frame := s.loop.count + BitVec.ofNat 32 (s.queue.lead + 2 * pieceCount s.start.rate)
    let s1 := { s with queue := { s.queue with outstanding := some frame } }
    ({ r with stamp := some frame, serial := s.slots.applied },
      enterSwitch ⟨s.start.id, .snapshot s.slots.applied, frame, s.loop.epoch, none, false, .loc⟩ s1)
  | .allot, some _ => (r, s)
  | .gain, _ => (r, s)

/-- The current piece is written: one send; its number and entries are taken at the first (R11, R15). -/
def sendPiece (h : Header) (s : State) : State × Option Message :=
  match s.snap.run with
  | none => (s, none)
  | some r =>
    let (r1, s1) := stampSnap r s
    let (num, body, s2) := match r1.msg with
      | some (n, b) => (n, b, s1)
      | none =>
        (s1.queue.nextNum, pieceBody r1 s1,
          { s1 with queue := { s1.queue with nextNum := s1.queue.nextNum + 1 } })
    let msg : Message := ⟨none, num, body, r1.stamp⟩
    ({ s2 with
        snap := { s2.snap with run := some { r1 with sends := r.sends + 1, msg := some (num, body) } }
        queue := { s2.queue with
          written := some ⟨true, msg, h.count, h.origin.epoch⟩, last := .piece } }, some msg)

/-- The RESTART in place of any other item; it is not repeated (R73). -/
def sendRestart (e : Epoch) (s : State) : State × Option Message :=
  ({ s with
      loop := { s.loop with restart := .written e }
      queue := { s.queue with nextNum := s.queue.nextNum + 1, written := none, last := .neither } },
    some ⟨none, s.queue.nextNum, .restart e, none⟩)

/-- The choice of the cell's item and its writing (R13, R15, R73). -/
def chooseCell (h : Header) (s : State) : State × Option Message :=
  match s.loop.restart with
  | .prepared e => if s.isOrigin then sendRestart e s else (s, none)
  | .idle | .written _ =>
    match cellTurn s with
    | .queue => sendHead h s
    | .piece => sendPiece h s
    | .neither => ({ s with queue := { s.queue with written := none, last := .neither } }, none)

/-- Step 4 for the service cell, in the cell-writing modes; in any other mode no cell is written (R13,
R14). Owed messages are admitted before an item sent 4 times is dropped (log entry 44, DESIGN CHOICE); a RESTART
prepared at a master that becomes ISOLATED stays prepared until it originates in a cell-writing mode (log entry 51,
DESIGN CHOICE). -/
def writeCell (f : Frame) (s : State) : State × List (Option Message) :=
  let s1 := admitOwed s
  if writesCells (loopMode s1) then
    let (s2, c) := chooseCell f.header (dropStale (dropSpent (dropStale s1)))
    (s2, f.cells.set s.start.id.val c)
  else ({ s1 with queue := { s1.queue with last := .neither } }, f.cells)

/-! ### First visits (R9) -/

/-- Step 1: the count, the due entries, and what a first visit tells the lock (R2, R9, R15, R165,
R167). -/
def visitStart (h : Header) (s : State) : State :=
  lockVisit h (snapshotStart (applyDue (setCount h.count s)))

/-- Steps 2 and 3: taps, cells, confirmation (R9). -/
def visitRead (f : Frame) (s : State) : State :=
  assess f (readCells f (tellConfirmed f (visitSamples (f.slots.getD []) s)))

/-- Steps 4 and 5: slots, talk slots, cell, visited set and hop list (R9). -/
def visitWrite (f : Frame) (dir : Direction) (s : State) : State × Frame :=
  let slots := f.slots.map fun l => writeTalk s (writeSlots s l)
  let (s1, cells) := writeCell f s
  let h := f.header
  (s1, { f with
    slots := slots
    cells := cells
    header := { h with
      visited := h.visited ++ [s.start.id]
      hops := h.hops ++ [⟨s.start.id, dir⟩] } })

/-- The visit is noted (R2, R9, R12). -/
def noteVisit (h : Header) (s : State) : State :=
  { s with loop := { s.loop with
      lastVisit := some (h.count, h.origin.epoch)
      visits := h.count :: s.loop.visits
      visited := true } }

/-- A first visit (R9). -/
def firstVisit (f : Frame) (dir : Direction) (s : State) : State × Frame :=
  let s1 := visitRead f (visitStart f.header s)
  let (s2, f2) := visitWrite f dir s1
  (noteVisit f.header s2, f2)

/-! ### Relay and dispatch (R47 to R49) -/

/-- The port a frame leaves on, or none where it is discarded (R47). -/
def relayPort (s : State) (p : PortId) : Option PortId :=
  match s.loop.wrapA, s.loop.wrapB, p with
  | .none, .none, _ => some (portOther p)
  | .none, _, .a => some .a
  | .none, _, .b => none
  | _, _, .a => none
  | _, _, .b => some .b

/-- The frame is routed to a port, or ends where the port is not usable (R47). -/
def route (p : PortId) (f : Frame) (s : State) : State :=
  if s.usable p then s.setPort p { s.port p with routed := some f } else s

/-- Relay by R47. -/
def relay (p : PortId) (f : Frame) (s : State) : State :=
  match relayPort s p with
  | some q => route q f s
  | none => s

/-- The direction of a first visit by its arrival port (R9). -/
def arrivalDir : PortId → Direction
  | .a => .forward
  | .b => .ret

/-- The origin timeout sees the arrival (R51). -/
def hearFollowed (p : PortId) (s : State) : State :=
  if s.usable p then { s with loop := { s.loop with timeout := 0, heard := true } } else s

/-- A frame of the followed origin: first visit or relay untouched, or the duplicate-id condition (R9,
R67). Counts wrap (R2), so a visited count tells of an earlier visit only while it has not aged (`ageVisits`, log entry
22, DEDUCED). -/
def takeFrame (p : PortId) (f : Frame) (s : State) : State :=
  let s1 := hearFollowed p s
  if f.header.visited.contains s.start.id then
    if s.loop.visits.contains f.header.count then relay p f s1
    else relay p f (enterConflict .duplicateId s1)
  else
    let (s2, f2) := firstVisit f (arrivalDir p) s1
    relay p f2 s2

/-- The port at which the origin's circuits end (R48). -/
def circuitPort (s : State) : PortId := if s.loop.wrapA = .none then .a else .b

/-- The circuit end of the origin's own frame (R8, R48, R58). -/
def circuitEnd (f : Frame) (now : Nanos) (s : State) : State :=
  if s.loop.orig.last = some f.header.count && !s.loop.orig.inTime then
    circuitMap f.header.hops { s with loop := { s.loop with
      orig := { s.loop.orig with returned := some f, inTime := true }
      circuit := some (now - s.loop.orig.sentAt).toNat } }
  else s

/-- Case 3 of R49. -/
def ownIdFrame (p : PortId) (f : Frame) (now : Nanos) (s : State) : State :=
  let g := f.header.origin
  if s.isOrigin && s.loop.group = some g then
    if p = circuitPort s then circuitEnd f now s else relay p f s
  else if s.loop.formerOwn = some (g.rank, g.epoch) then s
  else relay p f (enterConflict .duplicateId s)

/-- Case 7 of R49 (R65, R66). -/
def otherOrigin (p : PortId) (f : Frame) (s : State) : State :=
  let g := f.header.origin
  match followedGroup s with
  | none => s
  | some own =>
    if !groupWins g own then s
    else if !s.isOrigin then takeFrame p f (switchTo g true s)
    else match own.rank with
      | .deputy => takeFrame p f (yieldTo g s)
      | .master => relay p f (enterConflict .masterMet s)

/-- Cases 4 to 7 of R49. -/
def dispatchOrigin (p : PortId) (f : Frame) (s : State) : State :=
  let g := f.header.origin
  match followedGroup s with
  | some own =>
    if own = g then takeFrame p f s
    else if own.id = g.id && own.rank = g.rank then
      if newer16 g.epoch own.epoch then takeFrame p f (switchTo g false s) else relay p f s
    else otherOrigin p f s
  | none =>
    match loopMode s with
    | .seeking | .orphan => takeFrame p f (adopt g s)
    | .held | .closed | .wrappedA | .wrappedB | .isolated | .conflict => s

/-- Cases 3 to 7 of R49. -/
def dispatchRest (p : PortId) (f : Frame) (now : Nanos) (s : State) : State :=
  if f.header.origin.id = s.start.id then ownIdFrame p f now s else dispatchOrigin p f s

/-- A pending UNWRAP_PLAN that names this node's port and is reached by a frame (R49 case 2). -/
def unwrapDue (s : State) (p : PortId) (f : Frame) : Option PendingSwitch :=
  s.switches.find? fun e =>
    match e.item with
    | .msg (.unwrapPlan l) =>
      decide (linkPortOf l s.start.id = some p) && reached f.header.count e.frame
    | .msg _ | .snapshot _ => false

/-- A frame releases the wrap at its arrival port for a merge (R72). -/
def mergeDue (s : State) (p : PortId) (f : Frame) : Bool :=
  s.usable p && match followedGroup s with
    | none => true
    | some own => groupWins f.header.origin own

/-- Case 2 of R49: arrival at a port that holds a PLANNED wrap. -/
def wrappedArrival (p : PortId) (f : Frame) (now : Nanos) (s : State) : State :=
  match unwrapDue s p f with
  | some e =>
    if followedGroup s = some f.header.origin then dispatchOrigin p f (applyPending e.sender s)
    else if mergeDue s p f then dispatchRest p f now (mergeRelease p s) else s
  | none => if mergeDue s p f then dispatchRest p f now (mergeRelease p s) else s

/-- A loop frame handed over by a port is dispatched (R1, R49): in HELD and in CONFLICT it is relayed by R47 without
processing (R49 case 1, R68, R174). -/
def dispatch (p : PortId) (f : Frame) (now : Nanos) (s : State) : State :=
  if f.header.rate ≠ s.start.rate then s
  else match loopMode s with
    | .held | .conflict => relay p f s
    | .seeking | .closed | .wrappedA | .wrappedB | .isolated | .orphan =>
      match s.wrapAt p with
      | .none => dispatchRest p f now s
      | .loss => s
      | .planned _ => wrappedArrival p f now s

/-! ### A frame at a port -/

/-- The frame passes its check (R5). -/
def passesCheck (a : Arrival) : Bool := frameCheck a.frame == a.check

/-- The port has seen a frame at this time; a good one tells the rate of the line (R25). A port in DRILL ignores
its receiver (R40). -/
def markArrived (p : PortId) (a : Arrival) (s : State) : State :=
  let r := s.port p
  if r.state = .drill then s.setPort p { r with time := a.now }
  else s.setPort p { r with
    arrived := r.arrived + 1
    lineRate := if passesCheck a then a.frame.header.rate else r.lineRate
    time := a.now }

/-- A frame at a port (R25 to R37): the port's rules, then the handover of a loop frame at a port that
is UP before and after them (log entry 21). -/
def receive (p : PortId) (a : Arrival) (s : State) : State :=
  let s1 := markArrived p a s
  if passesCheck a then
    let s2 := goodFrame p a.frame.link a.now s1
    if (s.port p).state = .up && (s2.port p).state = .up && a.frame.slots.isSome then
      dispatch p a.frame a.now s2
    else s2
  else failedFrame p s1

/-! ### Origination (R8, R48, R73) -/

/-- The RESTART's epoch is taken at the origination after its writing (R73). -/
def takeEpoch (s : State) : State :=
  match s.loop.restart, s.loop.group with
  | .written e, some g =>
    afterLoop .restart s (epochChange { g with epoch := e } .origin (supervisionLoopReset s))
  | .written _, none => s
  | .idle, _ => s
  | .prepared _, _ => s

/-- The service area of the frame to originate: carried over from a frame returned in time, with the
cells of absent nodes emptied; else empty (R8). -/
def nextCells (s : State) : List (Option Message) :=
  match s.loop.orig.returned with
  | some f =>
    if s.loop.orig.inTime then
      f.cells.zipIdx.map fun (c, i) =>
        if f.header.visited.any fun n => decide (n.val = i) then c else none
    else List.replicate 8 none
  | none => List.replicate 8 none

/-- The slot area of the frame to originate: carried over from the most recent returned frame; else
silence (R8). -/
def nextSlots (s : State) : List Sample :=
  match s.loop.orig.returned with
  | some f => f.slots.getD (List.replicate (slotCount s.start.rate) 0)
  | none => List.replicate (slotCount s.start.rate) 0

/-- The frame an origin builds (R3, R7, R8). -/
def buildFrame (g : OriginGroup) (s : State) : Frame where
  header := ⟨s.loop.count, g, s.start.loopName, s.start.rate, s.lock.level, [], []⟩
  link := none
  cells := nextCells s
  slots := some (zeroSlots s (nextSlots s))

/-- The port an origin sends on (R48). -/
def originPort (s : State) : PortId := if s.loop.wrapB = .none then .b else .a

/-- The direction of an origin's own entry (R9; log entry 31 for an ISOLATED origin). -/
def originDir (s : State) : Direction :=
  match originPort s with
  | .b => .forward
  | .a => .ret

/-- The origin's own entry of the hop list says by which port its frame leaves, wraps applied at this visit
included (R9, R48). -/
def ownHop (s : State) (f : Frame) : Frame :=
  { f with header := { f.header with hops := [⟨s.start.id, originDir s⟩] } }

/-- The originated frame leaves, or ends its circuit at once at an ISOLATED origin (R48). With its origination port not
usable while the other is, the frame goes nowhere and the port sends standby (R21; log entry 78, DESIGN CHOICE). -/
def sendOriginated (f : Frame) (now : Nanos) (s : State) : State :=
  let s1 := { s with loop := { s.loop with
    orig := { s.loop.orig with last := some f.header.count, inTime := false, sentAt := now } } }
  if s1.usable .a || s1.usable .b then route (originPort s1) f s1 else circuitEnd f now s1

/-- The node originates frames: ORIGIN, neither HELD nor in CONFLICT. -/
def originates (s : State) : Bool := s.isOrigin && !s.start.held && s.loop.conflict.isNone

/-- An acting origin originates one frame (R2, R8, R48). -/
def originate (now : Nanos) (s : State) : State :=
  let s1 := takeEpoch (setCount (s.loop.count + 1) s)
  match s1.loop.group with
  | none => s1
  | some g =>
    let (s2, f) := firstVisit (buildFrame g s1) .forward s1
    sendOriginated (ownHop s2 f) now s2

/-! ### Transmission (R6, R21) -/

/-- The standby frame of a node (R6). -/
def standby (s : State) : Frame where
  header :=
    ⟨s.loop.count, (followedGroup s).getD ⟨s.start.id, .master, 0⟩, s.start.loopName, s.start.rate,
      s.lock.level, [], []⟩
  link := none
  cells := List.replicate 8 none
  slots := none

/-- A port transmits the routed loop frame or a standby frame, with its link field and check (R5, R6,
R21, R27). -/
def transmit (now : Nanos) (s : State) (p : PortId) : State :=
  let r := s.port p
  if r.txOn then
    let f := { r.routed.getD (standby s) with link := some (linkFieldOf p now s) }
    s.setPort p { r with routed := none, txLine := some (f, frameCheck f) }
  else s.setPort p { r with routed := none, txLine := none }

end Sys2Proof.Machine
end

