-- ==== Sys2Proof/Machine/Start.lean ====
section
/-! DEFINITION. Events (what closes every command), and Reset and Start (Section 10): resets, start
sequence, leaving HELD. -/

namespace Sys2Proof.Machine

open Sys2Proof

/-! ### Closing an event -/

/-- A takeover timer runs in ORPHAN only (R63). -/
def stopTakeover (s : State) : State :=
  if loopMode s = .orphan then s else { s with loop := { s.loop with takeover := none } }

/-- What the loop mode rules out: a takeover timer outside ORPHAN (R63), a current copy in the modes of
R77. -/
def modeCheck (s : State) : State := stopTakeover (if modeLosesCopy s then loseCurrency s else s)

/-- What is derived anew when anything changed: source validity with its causes, and the currency retry
timer (R92, R102, R147), beside what the loop mode rules out. -/
def settle (s : State) : State := retryCheck (rejudge (modeCheck s))

/-- One event: its effect, what is derived from it, and OUTPUT_CHANGE for the outputs it changed
(R160). -/
def event (f : State → State) (s : State) : State := reportOutputs s.safety.outs (settle (f s))

/-- The frame the part would send next (R182): the older of the oldest inbox reply and the overflow
reply, else the head notice. A notice cut short is chosen again behind a reply made meanwhile (log entry 75, DESIGN
CHOICE). -/
def nextChoice (s : State) : Option Chosen :=
  let c := s.ctl
  match c.inbox.head?, c.overflow with
  | some e, some o =>
    if e.made < o.made then some ⟨.inbox e.made, replyFrame e⟩ else some ⟨.overflow o.made, replyFrame o⟩
  | some e, none => some ⟨.inbox e.made, replyFrame e⟩
  | none, some o => some ⟨.overflow o.made, replyFrame o⟩
  | none, none => c.notices.head?.map fun n => ⟨.notice, noticeFrame c.lost n⟩

/-- A frame is chosen: discards of notices count from here (R178, R185). -/
def choose (c : Option Chosen) (s : State) : State :=
  { s with ctl := { s.ctl with chosen := c, discarded := false } }

/-- In UART mode the part transmits whatever waits, one frame after another (R179). -/
def pickUart (s : State) : State :=
  if s.start.line = .uart && s.ctl.chosen.isNone && !s.inReset then choose (nextChoice s) s else s

/-- The outcome of a command whose effect gave `t`: the next state, with the queue as it stood. -/
def finish (s t : State) : Host.Outcome State Fault Refusal := .next { pickUart t with pending := s.pending }

/-- The outcome of a command that is one event; while a POWER or PIN reset is held nothing is taken
(R171). -/
def done (f : State → State) (s : State) : Host.Outcome State Fault Refusal :=
  finish s (if s.inReset then s else event f s)

/-! ### Leaving HELD (R176) -/

/-- The ports' part of leaving HELD: what is usable now has been usable since (R52). -/
def restartUsable (r : PortRec) : PortRec := { r with everUsable := portUsable r }

/-- The node leaves HELD and starts by its configured role (R176). -/
def leaveHeld (s : State) : State :=
  let s1 := { s with
    start := { s.start with held := false }
    portA := restartUsable s.portA
    portB := restartUsable s.portB }
  match s.start.role with
  | .master =>
    if s.loop.conflict.isSome then afterLoop .start s s1
    else
      let s2 := epochChange ⟨s.start.id, .master, s.loop.epoch + 1⟩ .origin s1
      goDone .origin (afterLoop .start s s2)
  | .deputy | .member => afterLoop .start s s1

/-! ### The start sequence (R172, R173) -/

def startReport (s : State) : StartReport where
  cause := s.start.cause
  tag := s.start.softTag
  straps := s.start.straps
  strapsRead := s.start.strapsRead
  id := s.start.id
  func := s.start.func
  role := s.start.role
  roleInvalid := s.start.roleInvalid
  held := s.start.held
  rate := s.start.rate
  loopName := s.start.loopName
  lock := s.lock.level

/-- Step 3 of the start sequence: HOLDN is sampled at every release, and stands among the strap samples (R172). -/
def sampleHold (r : StartRec) : StartRec :=
  { r with
    straps := r.straps.map fun t => { t with holdn := r.holdn }
    held := !r.holdn }

/-- Steps 3 and 4 of the start sequence: `s` has everything at its value after the reset (R172, R173). -/
def startSequence (s : State) : State :=
  let s1 := { s with start := sampleHold s.start }
  let s2 := notify (.startReport (startReport s1)) s1
  let s3 := { s2 with start := { s2.start with held := true } }
  if s1.start.held then notifyLoop .start (dropKeys .held s3) else leaveHeld s3

/-! ### POWER and PIN resets (R171) -/

/-- Every block at its value after a POWER or PIN reset, with the pins' levels as they stand. The node's
identity is read at the release; until then it stands as in the state after reset (log entry 1). -/
def clearAll (s : State) : State :=
  let raw := s.talk.keys.map fun k => { KeyRec.power with raw := k.raw, pressed := k.raw }
  { State.reset with
    start := { StartRec.power with
      cause := s.start.cause
      straps := s.start.straps
      holdn := s.start.holdn
      powerHeld := s.start.powerHeld
      pinHeld := s.start.pinHeld
      fell := s.start.fell
      below := s.start.below }
    talk := { TalkRec.power with keys := raw }
    safety := { SafetyRec.power with panicRaw := s.safety.panicRaw, panicOn := s.safety.panicRaw }
    pending := s.pending }

/-- POWER_RESET: the supply falls below its threshold (R171). -/
def beginPower (s : State) : State :=
  clearAll { s with start := { s.start with powerHeld := true, fell := true } }
/-- PIN_RESET: RESETN goes active (R171). -/
def beginPin (s : State) : State := clearAll { s with start := { s.start with pinHeld := true } }

/-- The recorded cause of a release (R171). -/
def causeOf (r : StartRec) : ResetCause :=
  if r.fell then if r.below then .powerOn else .supplyLow else .pin

/-- The start record after the straps are read (R172). -/
def readStraps (t : Straps) (r : StartRec) : StartRec :=
  { r with
    cause := causeOf r
    straps := some t
    strapsRead := true
    id := t.nid
    func := t.func
    role := t.role.getD .member
    roleInvalid := t.role.isNone
    line := t.portsel
    holdn := t.holdn
    fell := false
    below := false
    softTag := none }

/-- The release of a POWER or PIN reset (R21, R111, R130, R157, R172). -/
def release (t : Straps) (s : State) : State :=
  let f := t.func
  let r := t.role.getD .member
  let g := GainRec.power f
  startSequence { s with
    start := readStraps t s.start
    portA := { s.portA with txOn := true }
    portB := { s.portB with txOn := true }
    loop := .power t.nid f r
    gain := { g with records := recordsOf g.table }
    talk := { s.talk with keys := freshKeys s.talk.keys }
    safety := { (setPanic s.safety.panicRaw s).safety with panicRaw := s.safety.panicRaw }
    lock := .power t.nid }

/-- A held reset ends; the node is released when no other is held (R171). -/
def endReset (t : Straps) (s : State) : State := if s.inReset then s else release t s

/-- POWER_RESET_RELEASE (R171). Of two POWER resets inside one held PIN reset, one that came from below the lower
level decides: the cause is POWER_ON (log entry 73, DESIGN CHOICE). -/
def endPower (fromBelow : Bool) (t : Straps) (s : State) : State :=
  if s.start.powerHeld then
    endReset t { s with start := { s.start with
      powerHeld := false, fell := true, below := s.start.below || fromBelow } }
  else s
/-- PIN_RESET_RELEASE (R171). -/
def endPin (t : Straps) (s : State) : State :=
  if s.start.pinHeld then endReset t { s with start := { s.start with pinHeld := false } } else s

/-! ### SOFT reset (R171 and the blocks' rules) -/

/-- A port at a SOFT reset: its four settings kept, the transmitter on (R20, R21). A loop frame routed for its next
transmission is dropped, and a standby frame goes out in its place (log entry 74, DESIGN CHOICE). -/
def softPort (r : PortRec) : PortRec :=
  { PortRec.fresh r.loss r.marginalAt r.hyst r.settleMs true with time := r.time }

/-- The loop record at a SOFT reset (R43, R44). -/
def softLoop (s : State) : LoopRec :=
  { LoopRec.power s.start.id s.start.func s.start.role with
    epoch := s.loop.epoch
    formerOwn := formerAfter s
    policy := s.loop.policy
    healDelay := s.loop.healDelay
    takeoverMs := s.loop.takeoverMs
    preempt := s.loop.preempt }

/-- The Slot Router at a SOFT reset (R74 to R76). -/
def softSlots (s : State) : SlotRec :=
  let r := (clearTalkEntries s).slots
  { r with
    inFlight := r.inFlight.map fun _ => none
    issued := r.applied
    answers := List.replicate 8 none
    requests := List.replicate 8 none
    current := false
    lastApplied := none
    collection := none
    retry := none }

/-- An output's state at a SOFT reset before its causes are rebuilt: FORCED kept (R146). -/
def softOut (t : Tap) (panic : Bool) (r : OutRec) : OutRec :=
  { OutRec.power with
    causes := { CauseSet.empty with forced := r.causes.forced, panic := panic && t.panicFollow }
    fbInput := match t.safe with
      | .fallback i => i
      | .mute => r.fbInput }

/-- The outputs take their states after a SOFT reset: UNUSED by their tap, else SAFE, whose resume begins
at once when no cause is present (R146, R152). -/
def rebuildOuts (s : State) : State :=
  mapOuts (fun _ t r =>
    if t.source = .unused then r
    else becomeSafe (outCtx s t) { r with causes := derivedCauses s t r.causes }) (rejudge s)

/-- RESET_PART takes effect (R171, R172); a STAGE node's own entries of the gain cache are known again where its
table still counts as current (R76, R121). -/
def softReset (tag : Byte) (s : State) : State :=
  let c := clearCache s
  refreshOwnCache (rebuildOuts (startSequence { s with
    start := { s.start with cause := .soft, strapsRead := false, softTag := some tag }
    portA := softPort s.portA
    portB := softPort s.portB
    loop := softLoop s
    queue := .fresh s.queue.lead
    snap := .idle
    switches := []
    slots := softSlots s
    lanes := { c.lanes with heldTalk := List.replicate 4 0 }
    gain := softGain s
    talk := { TalkRec.power with keys := freshKeys s.talk.keys }
    safety := { s.safety with
      outs := s.safety.outs.zipIdx.map fun (r, i) => softOut (tapAt s i) s.safety.panicRaw r
      panicOn := s.safety.panicRaw
      panicT := none }
    lock := ⟨s.lock.level, false, none, viewAlone s.start.id s.lock.level⟩
    supervision := { s.supervision with
      silent := false
      since := none
      timer := silenceTimer s.supervision.periodMs }
    ctl := .clear }))

end Sys2Proof.Machine
end

