-- ==== Sys2Proof/Machine/Requests.lean ====
section
/-! DEFINITION. The host requests (11.6): how each is judged, what it does and what it is answered. -/

namespace Sys2Proof.Machine

open Sys2Proof

/-- The outcome of judging a request: its reply (none for a RESET_PART that passes) and the state. -/
abbrev Judged := Option Reply × State

def refuse (r : Reason) (s : State) : Judged := (some (.refused r), s)
def busy (s : State) : Judged := (some .busy, s)
def ok (s : State) : Judged := (some .ok, s)
def started (s : State) : Judged := (some .started, s)
def data (d : Data) (s : State) : Judged := (some (.data d), s)

/-! ### The inbox (R181) -/

/-- A reply for the overflow place replaces the one that stands there (R181). -/
def overflowReply (tag : Byte) (r : Reply) (s : State) : State :=
  { s with ctl := { s.ctl with overflow := some ⟨tag, r, s.ctl.made⟩, made := s.ctl.made + 1 } }

/-- A reply joins the inbox that stood before the judging. -/
def inboxReply (tag : Byte) (r : Reply) (old s : State) : State :=
  { s with ctl := { s.ctl with
      inbox := old.ctl.inbox ++ [⟨tag, r, old.ctl.made⟩]
      made := old.ctl.made + 1 } }

/-- A good request: it ends a silence, finds room in the inbox or BUSY, is judged and answered (R168,
R170, R181). -/
def takeRequest (tag : Byte) (judge : State → Judged) (s : State) : State :=
  let s1 := goodRequest s
  if Config.inboxMax ≤ s1.ctl.inbox.length then overflowReply tag .busy s1
  else match judge s1 with
    | (some r, s2) => inboxReply tag r s1 s2
    | (none, s2) => s2

/-! ### Admission of long requests (R183) -/

/-- The admission checks in order; `queues` says whether the request would queue a loop message. -/
def admission (tag : Byte) (queues : Bool) (s : State) : Option Reply :=
  if Config.opMax ≤ opCount s then some .busy
  else if (findOp tag s).isSome then some (.refused .state)
  else if queues && !hostRoom s then some .busy
  else none

/-- A long request that passes its own checks meets admission, and then enters the table (R183). -/
def admitLong (o : Operation) (queues : Bool) (effect : State → State) (s : State) : Judged :=
  match admission o.tag queues s with
  | some r => (some r, s)
  | none => started (effect (addOp o s))

/-- An operation whose loop message is queued. -/
def queuedOp (tag : Byte) (k : OpKind) (gain : Option (NodeId × Nat)) : Operation :=
  ⟨tag, k, .queued, none, none, gain⟩

/-! ### Reading: STATUS, READ_TABLE, READ_PORT (R36, R94, R109, R186, R187) -/

/-- The allotment part of STATUS (R94). -/
def allotStatus (s : State) : AllotStatus :=
  if s.isMaster then
    .master s.slots.issued s.slots.applied
      (match s.snap.run with
        | some r => r.kind == .allot
        | none => false)
      s.snap.pendAllot s.slots.requests
  else
    .copy s.slots.current s.slots.lastApplied
      (s.slots.collection.map fun c => (c.serial, (c.pieces.filter Option.isSome).length))

/-- The gain part of STATUS, at a STAGE node (R127). -/
def gainStatus (s : State) : Option (Bool × Bool × Nat) :=
  if s.isStage then
    some (match s.snap.run with
      | some r => r.kind == .gain
      | none => false, s.snap.pendGain, s.gain.muteMs)
  else none

/-- STATUS's report (R186). -/
def statusReport (s : State) : StatusReport where
  cause := s.start.cause
  straps := s.start.straps
  held := s.start.held
  id := s.start.id
  func := s.start.func
  role := s.start.role
  loop := loopView s
  following := s.loop.following
  count := s.loop.count
  timeout := s.loop.timeout
  takeoverRunning := s.loop.takeover.isSome
  circuit := s.loop.circuit
  conflict := s.loop.conflict
  formerOwn := s.loop.formerOwn
  ports := [(s.portA.state, s.portA.flags, s.usable .a), (s.portB.state, s.portB.flags, s.usable .b)]
  mapSerial := s.loop.copy.serial
  members := s.loop.copy.entries.map (·.id)
  allot := allotStatus s
  gainSnap := gainStatus s
  lockLevel := s.lock.level
  noteOwed := s.lock.noteOwed
  loopLevel := s.lock.loopLevel
  lockView := s.lock.view
  supervision := s.supervision
  panicOn := s.safety.panicOn
  panicRaw := s.safety.panicRaw
  filterMs := s.safety.filterMs
  holdMs := s.safety.holdMs
  outUnused := outsIn .unused s
  outLive := outsIn .live s
  outFadingOut := outsIn .fadingOut s
  outSafe := outsIn .safe s
  outFadingIn := outsIn .fadingIn s
  operations := opCount s
  notices := s.ctl.notices.length
  lost := s.ctl.lost

def judgeStatus (s : State) : Judged := data (.status (statusReport s)) s

/-- A tap's entry (R109, R161). -/
def tapEntry (s : State) (n : Nat) : TableEntry :=
  let t := tapAt s n
  let o := outAt s n
  let on := heardOf s t
  .tap n t (programLatency s t) (talkLatencies s t)
    ⟨on.contains .tb1, on.contains .tb2, on.contains .tb3, on.contains .tb4⟩ o (reportedCause o.causes)
    (fadeLen s.start.rate t)

/-- The present entries of a table with their indexes, in ascending order (R187). -/
def tableEntries (s : State) (t : TableName) : List (Nat × TableEntry) :=
  match t with
  | .allot => (List.range (slotCount s.start.rate)).map fun i =>
      (i, .allot i (entryAt s i)
        (if s.isMaster then some (s.slots.inFlight.getD i none, s.slots.unsettled.getD i false) else none))
  | .taps => (List.range 64).map fun i => (i, tapEntry s i)
  | .gain => s.gain.table.zipIdx.map fun (e, i) => (i, .gain i e)
  | .gainCache => (List.range (slotCount s.start.rate)).map fun i => (i, .cache i (cacheAt s i))
  | .keys => s.talk.keys.zipIdx.map fun (k, i) => (i, .key i k)
  | .talk => allBuses.map fun b =>
      (busIndex b + 1, .talk b (viewAt s b) (if s.isOrigin then some (busAt s b) else none))
  | .map => allNodes.filterMap fun n =>
      (s.loop.copy.entries.find? fun e => decide (e.id = n)).map fun e => (n.val, .map e)
  | .links => s.loop.links.zipIdx.filterMap fun (e, i) => e.map fun e => (i, .link i e)
  | .operations =>
      (s.ctl.ops.zipIdx.filterMap fun (o, i) => o.map fun o => (i, .operation i o)) ++
        s.ctl.ended.zipIdx.map fun (o, i) => (i + 8, .ended (i + 8) o)

/-- The highest index of a table (R187). -/
def topIndex (r : Rate) (t : TableName) : Nat :=
  match t with
  | .allot | .gainCache => slotCount r - 1
  | .taps | .gain => 63
  | .keys => 11
  | .talk => 4
  | .map => 7
  | .links | .operations => 15

/-- The longest run of entries within a number of bytes and of entries. -/
def takeFit : Nat → Nat → List (Nat × TableEntry) → List (Nat × TableEntry)
  | 0, _, _ => []
  | _ + 1, _, [] => []
  | k + 1, room, e :: l =>
    let n := (tableEntryBytes e.2).length
    if n ≤ room then e :: takeFit k (room - n) l else []

/-- The run of entries a read returns and the index to go on from (R187): the list's length byte and the
index stand beside the entries, and END takes one byte less than an index. -/
def tableRun (l : List (Nat × TableEntry)) : List TableEntry × Option Nat :=
  let all := takeFit 16 248 l
  let run := if all.length = l.length then all else takeFit 16 247 l
  (run.map (·.2), (l.drop run.length).head?.map fun _ => (run.getLast?.map (·.1 + 1)).getD 0)

/-- The node holds the table (R187). -/
def holdsTable (s : State) (t : TableName) : Bool :=
  match t with
  | .gain => s.isStage
  | .links => s.isMaster
  | .allot | .taps | .gainCache | .keys | .talk | .map | .operations => true

/-- READ_TABLE (R187). A cursor above the highest index of a table the node does not hold is refused RANGE (log
entry 76, DESIGN CHOICE). -/
def judgeReadTable (t : TableName) (cursor : Nat) (s : State) : Judged :=
  if topIndex s.start.rate t < cursor then refuse .range s
  else if !holdsTable s t then refuse .state s
  else
    let (run, next) := tableRun ((tableEntries s t).filter fun e => decide (cursor ≤ e.1))
    data (.table run next) s

/-- READ_PORT: the record, and the six counters restart from 0 (R36). -/
def judgeReadPort (p : PortId) (s : State) : Judged :=
  data (.port (portReport (s.port p))) (s.setPort p { s.port p with counters := .zero })

/-! ### Held-only requests (R175) -/

/-- R175's order of checks, range apart. -/
def heldOnly (effect : State → State) (s : State) : Judged :=
  if !s.start.held then refuse .heldOnly s
  else if locked 1 s then refuse .locked s
  else ok (effect s)

/-- A change of configured role (R175). -/
def changeRole (r : Role) (s : State) : State :=
  if r = s.start.role then s
  else clearCache { s with
    start := { s.start with role := r, roleInvalid := false }
    slots := .power s.start.rate
    loop := { s.loop with links := List.replicate 16 none, plan := none, unwrapOwed := [] } }

/-- A change of function (R110, R111, R175). A phantom mute that ends with the gain table ends at once: the lane
samples are delivered from this event on (R95; log entry 64, DESIGN CHOICE). -/
def changeFunc (f : Func) (s : State) : State :=
  if f = s.start.func then s
  else
    let table := gainTableOf f
    let s1 := clearCache { s with
      start := { s.start with func := f }
      gain := { s.gain with
        table := table
        answers := List.replicate 8 none
        records := recordsOf table
        lane := none } }
    refreshOwnCache s1

/-- A change of node id (R175); the slots whose entries are a STAGE node's own follow it (R121). -/
def changeId (id : NodeId) (s : State) : State :=
  if id = s.start.id then s
  else
    let old := s.start.id
    let s1 := { s with
      start := { s.start with id := id }
      loop := { s.loop with lastActed := List.replicate 8 none }
      lock := { s.lock with view := s.lock.view.set id.val (some s.lock.level) } }
    refreshOwnCache (setLockView old none s1)

/-- SET_NODE's effect (R175). -/
def changeNode (id : Option NodeId) (f : Option Func) (r : Option Role) (s : State) : State :=
  let s1 := changeRole (r.getD s.start.role) s
  let s2 := changeFunc (f.getD s1.start.func) s1
  let s3 := changeId (id.getD s2.start.id) s2
  if s3.start = s.start then s3
  else { s3 with loop := { s3.loop with copy := .alone s3.start.id s3.start.func s3.start.role } }

def judgeSetNode (id : Option Nat) (f : Option Func) (r : Option Role) (s : State) : Judged :=
  match id with
  | none => heldOnly (changeNode none f r) s
  | some n =>
    match nodeOf n with
    | none => refuse .range s
    | some id => heldOnly (changeNode (some id) f r) s

/-- A tap that a new rate mode leaves without its slot (R99). -/
def rateLosesTap (r : Rate) (t : Tap) : Bool :=
  match t.source with
  | .slot n => decide (firstTalk r ≤ n)
  | .unused | .loc _ | .talkOnly => false

/-- A tap at a change of rate mode (R99): its held sample is that of the new source. -/
def rateTap (r : Rate) (t : Tap) : Tap :=
  if rateLosesTap r t then
    { t with source := .unused, tracking := false, unknown := false, limit := false, held := 0 }
  else t

/-- SET_RATE's effect (R1, R74, R99, R150, R175). R74 and R175 reset the table's content; the model clears the
changes in flight and the unsettled marks with it, and keeps serials, answers and requests (log entry 55, DESIGN
CHOICE). -/
def changeRate (r : Rate) (s : State) : State :=
  if r = s.start.rate then s
  else
    let old := s.start.rate
    let taps := s.lanes.taps
    let c := clearCache s
    let s1 := { s with
      start := { s.start with rate := r }
      portA := { s.portA with routed := none }
      portB := { s.portB with routed := none }
      slots := { s.slots with
        table := freshTable r
        inFlight := List.replicate (slotCount r) none
        unsettled := List.replicate (slotCount r) false }
      lanes := { s.lanes with
        taps := c.lanes.taps.map (rateTap r)
        cache := List.replicate (slotCount r) none } }
    mapOuts (fun i t o =>
      let o1 := rescale (fadeLen old t) (outCtx s1 t) o
      if rateLosesTap r (taps.getD i .power) then toUnused o1 else o1) (rejudge s1)

def judgeSetRate (r : Rate) (s : State) : Judged := heldOnly (changeRate r) s

/-- SET_LOOP_NAME's effect (R175). -/
def changeName (n : Nat) (s : State) : State :=
  { s with start := { s.start with loopName := BitVec.ofNat 16 n } }

def judgeSetLoopName (n : Nat) (s : State) : Judged :=
  if 65535 < n then refuse .range s else heldOnly (changeName n) s

/-! ### GO and RESET_PART (R171, R177) -/

/-- GO (R177). -/
def judgeGo (tag : Byte) (s : State) : Judged :=
  match admission tag false s with
  | some r => (some r, s)
  | none =>
    if !s.start.held then refuse .state s
    else started (leaveHeld (addOp ⟨tag, .go, .running, none, some (ticksOf Config.goMs), none⟩ s))

/-- RESET_PART: no reply when it passes (R171). -/
def judgeResetPart (tag : Byte) (s : State) : Judged :=
  if locked 3 s then refuse .locked s else (none, softReset tag s)

/-! ### Ports (R23, R39) -/

/-- A port's settings after SET_THRESHOLDS (R23). -/
def withThresholds (f : ThresholdFields) (r : PortRec) : PortRec :=
  { r with
    loss := f.loss.getD r.loss
    marginalAt := f.marginal.getD r.marginalAt
    hyst := f.hyst.getD r.hyst
    settleMs := f.settle.getD r.settleMs }

def inRange (lo hi x : Int) : Bool := decide (lo ≤ x) && decide (x ≤ hi)

/-- R23's tests of the result at one port. -/
def thresholdsFit (f : ThresholdFields) (r : PortRec) : Bool :=
  let n := withThresholds f r
  f.loss.all (inRange (-400) (-100)) && f.marginal.all (inRange (-400) 0) && f.hyst.all (inRange 5 50) &&
    f.settle.all (fun x => decide (x ≤ 2000)) && decide (n.loss + n.hyst ≤ n.marginalAt) &&
    decide (n.loss + n.hyst ≤ 30)

def selPorts : PortSel → List PortId
  | .a => [.a]
  | .b => [.b]
  | .both => [.a, .b]

/-- SET_THRESHOLDS's effect (R23). -/
def storeThresholds (sel : PortSel) (f : ThresholdFields) (s : State) : State :=
  (selPorts sel).foldl (fun a p => a.setPort p (withThresholds f (a.port p))) s

def judgeSetThresholds (sel : PortSel) (f : ThresholdFields) (s : State) : Judged :=
  if !((selPorts sel).all fun p => thresholdsFit f (s.port p)) then refuse .range s
  else if locked 1 s then refuse .locked s
  else ok (storeThresholds sel f s)

/-- DRILL: admission, then R39's checks in order (R39, R183). -/
def judgeDrill (tag : Byte) (p : PortId) (ms : Nat) (s : State) : Judged :=
  match admission tag false s with
  | some r => (some r, s)
  | none =>
    if ms < 100 || 10000 < ms then refuse .range s
    else if locked 1 s then refuse .locked s
    else if s.portA.drill.isSome || s.portB.drill.isSome then refuse .state s
    else if loopMode s ≠ .closed then refuse .state s
    else if !s.usable (portOther p) then refuse .state s
    else started (startDrill p ms tag (addOp ⟨tag, .drill, .running, none, none, none⟩ s))

/-! ### Loop Engine (R16, R44, R70, R73) -/

/-- The ranges of R44. -/
def recoveryFits (f : RecoveryFields) : Bool :=
  f.healDelay.all (fun x => decide (5 ≤ x) && decide (x ≤ 300)) &&
    f.takeover.all (fun x => decide (10 ≤ x) && decide (x ≤ 2000))

/-- SET_RECOVERY's effect (R44). -/
def storeRecovery (f : RecoveryFields) (s : State) : State :=
  { s with loop := { s.loop with
      policy := f.policy.getD s.loop.policy
      healDelay := f.healDelay.getD s.loop.healDelay
      takeoverMs := f.takeover.getD s.loop.takeoverMs
      preempt := f.preempt.getD s.loop.preempt } }

def judgeSetRecovery (f : RecoveryFields) (s : State) : Judged :=
  if !recoveryFits f then refuse .range s
  else if locked 1 s then refuse .locked s
  else ok (storeRecovery f s)

/-- SET_SWITCH_LEAD's effect (R16). -/
def storeLead (n : Nat) (s : State) : State := { s with queue := { s.queue with lead := n } }

def judgeSetSwitchLead (n : Nat) (s : State) : Judged :=
  if n < 48 || 4800 < n then refuse .range s
  else if locked 1 s then refuse .locked s
  else ok (storeLead n s)

/-- The ready links of the table, each with its canonical end (R69). -/
def readyLinks (s : State) : List Link :=
  allEnds.filterMap fun (n, p) => (linkAt s n p).bind fun e => if e.ready then linkOf n p e else none

/-- The ready link that HEAL names: by one of its ends, or for ANY the first in R70's order. -/
def healLink (s : State) (t : HealTarget) : Option Link :=
  match t with
  | .any => (List.range 16).findSome? fun i => (readyLinks s).find? fun l => decide (lowerIndex l = i)
  | .linkEnd n p => (readyLinks s).find? fun l =>
      decide (l.node.val = n ∧ l.port = p) || decide (l.farNode.val = n ∧ l.farPort = p)

/-- HEAL's effect: the heal timer stops and the UNWRAP_PLAN is sent (R70). -/
def heal (tag : Byte) (l : Link) (s : State) : State :=
  clearPlan l (push .all (.unwrapPlan l) (some tag) .loc
    (modifyLink l.node l.port (fun e => { e with heal := none }) s))

/-- The HEAL target is in range. -/
def healInRange (t : HealTarget) : Bool :=
  match t with
  | .any => true
  | .linkEnd n _ => decide (n < 8)

def judgeHeal (tag : Byte) (t : HealTarget) (s : State) : Judged :=
  if !healInRange t then refuse .range s
  else if !s.isMaster then refuse .notMaster s
  else if locked 3 s then refuse .locked s
  else if !s.isOrigin then refuse .state s
  else match healLink s t with
    | none => refuse .state s
    | some l => admitLong (queuedOp tag .heal none) true (heal tag l) s

/-- LOOP_RESET's effect (R73). -/
def prepareRestart (s : State) : State :=
  let s1 := emptyQueue s
  { s1 with loop := { s1.loop with restart := .prepared (s1.loop.epoch + 1) } }

def judgeLoopReset (s : State) : Judged :=
  if !s.isMaster then refuse .notMaster s
  else if locked 1 s then refuse .locked s
  else if !s.isOrigin || loopMode s = .isolated || s.loop.restart ≠ .idle then refuse .state s
  else ok (prepareRestart s)

/-! ### Slots (R80, R81) -/

/-- The node is HELD or in CONFLICT. -/
def heldOrConflict (s : State) : Bool := s.start.held || s.loop.conflict.isSome

/-- The lock check of CLAIM_SLOT and RELEASE_SLOT at a node not configured MASTER (R165). -/
def loopLocked (s : State) : Bool := !s.isMaster && s.lock.loopLevel.any fun l => decide (1 ≤ l)

/-- The node is ORIGIN with rank DEPUTY (R80). -/
def isDeputyOrigin (s : State) : Bool := s.isOrigin && s.loop.group.any fun g => g.rank == .deputy

/-- A slot ask that passed its checks: decided at the master, carried to it elsewhere (R80, R81). -/
def slotRequest (tag : Byte) (k : OpKind) (a : SlotAsk) (msg : LoopMsg) (s : State) : Judged :=
  if s.isMaster then
    if !hostRoom s then busy s
    else
      let (res, ch) := arbitrate s s.start.id a
      data (.pairs res) (issueChanges ch s)
  else admitLong (queuedOp tag k none) true (push .origin msg (some tag) .loc) s

/-- The ranges of R80. -/
def claimFits (s : State) (pairs : List ClaimPair) : Bool :=
  decide (1 ≤ pairs.length) && decide (pairs.length ≤ 4) &&
    pairs.all fun p => decide (p.input < 64) && p.slot.all fun n => decide (n < slotCount s.start.rate)

def judgeClaimSlot (tag : Byte) (pairs : List ClaimPair) (s : State) : Judged :=
  if !claimFits s pairs then refuse .range s
  else if heldOrConflict s then refuse .state s
  else if loopLocked s then refuse .locked s
  else if isDeputyOrigin s then refuse .notMaster s
  else slotRequest tag .claimSlot (.claim pairs) (.slotClaim tag pairs) s

/-- The ranges of R81. -/
def releaseFits (s : State) (slots : List Nat) : Bool :=
  decide (1 ≤ slots.length) && decide (slots.length ≤ 4) &&
    slots.all fun n => decide (n < slotCount s.start.rate)

def judgeReleaseSlot (tag : Byte) (slots : List Nat) (force : Bool) (s : State) : Judged :=
  if !releaseFits s slots then refuse .range s
  else if heldOrConflict s then refuse .state s
  else if loopLocked s then refuse .locked s
  else if isDeputyOrigin s || (force && !s.isMaster) then refuse .notMaster s
  else slotRequest tag .releaseSlot (.release slots force) (.slotRelease tag slots) s

/-! ### Taps (R98, R125) -/

def sourceInRange (r : Rate) : TapSource → Bool
  | .unused | .talkOnly => true
  | .slot n => decide (n < slotCount r)
  | .loc i => decide (i < 64)

def safeInRange : SafeMode → Bool
  | .mute => true
  | .fallback i => decide (i < 64)

/-- Check 1 of R98. -/
def tapFits (r : Rate) (n : Nat) (f : TapFields) : Bool :=
  decide (n < 64) && f.source.all (sourceInRange r) && f.trim.all (inRange (-40) 40) &&
    f.dimDepth.all (inRange (-40) 0) && f.safe.all safeInRange && f.fade.all fun x => decide (x ≤ 500)

/-- A SLOT source naming a talk slot (R98). -/
def sourceReserved (r : Rate) (s : TapSource) : Bool :=
  match s with
  | .slot n => decide (firstTalk r ≤ n)
  | .unused | .loc _ | .talkOnly => false

def isSlotSource (s : TapSource) : Bool :=
  match s with
  | .slot _ => true
  | .unused | .loc _ | .talkOnly => false

/-- The tap the fields give, tracking's own consequences apart (R98). -/
def withTapFields (f : TapFields) (t : Tap) : Tap :=
  { t with
    source := f.source.getD t.source
    tracking := f.tracking.getD t.tracking
    trim := f.trim.getD t.trim
    listen := f.listen.getD t.listen
    dim := f.dim.getD t.dim
    dimDepth := f.dimDepth.getD t.dimDepth
    safe := f.safe.getD t.safe
    resume := f.resume.getD t.resume
    fade := f.fade.getD t.fade
    panicFollow := f.panicFollow.getD t.panicFollow
    held := if f.source.getD t.source = t.source then t.held else 0 }

/-- Check 3 of R98. -/
def tapState (f : TapFields) (t : Tap) : Bool :=
  let n := withTapFields f t
  n.tracking && (!isSlotSource n.source || f.trim.isSome)

/-- The fields frozen from level 1 on (R164). -/
def tapFrozen (f : TapFields) : Bool :=
  f.source.isSome || f.tracking.isSome || f.safe.isSome || f.resume.isSome || f.fade.isSome ||
    f.panicFollow.isSome

/-- The cache entry of a source. -/
def cacheOf (s : State) (src : TapSource) : CacheEntry :=
  match src with
  | .slot n => cacheAt s n
  | .unused | .loc _ | .talkOnly => none

/-- What turning tracking on or off, or a new slot while it stays on, does to the tap (R124, R125). -/
def retrack (s : State) (old new : Tap) : Tap :=
  if !new.tracking then
    if old.tracking then { new with unknown := false, limit := false } else new
  else if !old.tracking || old.source ≠ new.source then
    let e := cacheOf s new.source
    trackTap s.start.id e { new with
      trim := 0
      refGain := match e with
        | some (g, _) => g.gain
        | none => new.refGain }
  else new

/-- The fallback input of an output after a change of its tap's safe mode (R151). -/
def tapSafeMode (old new : Tap) (r : OutRec) : OutRec :=
  match old.safe, new.safe with
  | .fallback i, .fallback j => if i = j then r else { r with fallback := 0, fbInput := j }
  | .mute, .fallback j => { r with fbInput := j }
  | .fallback _, .mute => r
  | .mute, .mute => r

/-- An output goes to UNUSED with its tap's source, or leaves it (R150, R155). -/
def tapSource (c : OutCtx) (old new : Tap) (r : OutRec) : OutRec :=
  if old.source != .unused && new.source == .unused then toUnused r
  else if old.source == .unused && new.source != .unused then fromUnused c new.valid r
  else r

/-- The PANIC cause of an output after a change of its tap's PANIC follow (R147). -/
def tapPanic (c : OutCtx) (on : Bool) (old new : Tap) (r : OutRec) : OutRec :=
  if old.panicFollow = new.panicFollow then r
  else onCauses c { r.causes with panic := new.panicFollow && on } r

/-- The stage of a resume after a change of its tap's resume mode (R156). -/
def tapResume (c : OutCtx) (silent : Bool) (old new : Tap) (r : OutRec) : OutRec :=
  if old.resume = .auto && new.resume = .manual && !silent && r.state = .safe && r.hold.isSome then
    { r with hold := none, stage := .await }
  else if old.resume = .manual && new.resume = .auto && r.state = .safe && causesEmpty r.causes &&
      r.stage = .await then
    beginResume c r
  else r

/-- The output's part of a change of its tap by SET_TAP (R147, R150, R151, R155, R156); `s` holds the new tap.
Several fields act in this order: fade time, safe mode, source, panic follow, resume mode; the SOURCE_LOST of a
changed source follows last; each step, the fade time's with its positions, reads the new tap's safe and resume mode
(log entry 61, DESIGN CHOICE). -/
def tapOut (s : State) (old new : Tap) (r : OutRec) : OutRec :=
  let c := outCtx s new
  tapResume c s.supervision.silent old new (tapPanic c s.safety.panicOn old new
    (tapSource c old new (tapSafeMode old new (rescale (fadeLen s.start.rate old) c r))))

/-- SET_TAP's effect (R98; the order of the fields is that of `tapOut`, log entry 61). -/
def storeTap (n : Nat) (f : TapFields) (s : State) : State :=
  let old := tapAt s n
  let new := retrack s old (withTapFields f old)
  let judged := { new with valid := sourceValid s new.source }
  let s1 := { s with lanes := { s.lanes with taps := s.lanes.taps.set n judged } }
  modifyOut n (tapOut s1 old judged) s1

/-- SET_TAP's checks (R98, R164). One that carries no field is refused LOCKED from level 2 on (log entry 62, DESIGN
CHOICE). -/
def judgeSetTap (n : Nat) (f : TapFields) (s : State) : Judged :=
  if !tapFits s.start.rate n f then refuse .range s
  else if (f.source.any (sourceReserved s.start.rate)) then refuse .reserved s
  else if tapState f (tapAt s n) then refuse .state s
  else if locked (if tapFrozen f then 1 else 2) s then refuse .locked s
  else ok (storeTap n f s)

/-- SET_TRACK_REF's effect (R124, R125). -/
def storeTrackRef (n gain : Nat) (s : State) : State :=
  let old := tapAt s n
  let new := trackTap s.start.id (cacheOf s old.source) { old with refGain := gain }
  noticeLimit n old new { s with lanes := { s.lanes with taps := s.lanes.taps.set n new } }

def judgeSetTrackRef (n gain : Nat) (s : State) : Judged :=
  if 64 ≤ n || 60 < gain then refuse .range s
  else if !(tapAt s n).tracking then refuse .state s
  else if locked 2 s then refuse .locked s
  else ok (storeTrackRef n gain s)

/-! ### Preamp gain (R112, R113, R119) -/

/-- The decided setting a local SET_GAIN asks for (R113). -/
def localSetting (f : GainFields) (force : Bool) (d : GainSetting) : GainSetting :=
  let n := withFields d f.gain f.pad f.phantom
  if force then { n with owner := none } else n

/-- The ranges of check 1 of R112 and R113. -/
def gainFits (i : Nat) (f : GainFields) : Bool :=
  decide (i < 64) && f.gain.all (fun x => decide (x ≤ 60)) &&
    (f.gain.isSome || f.pad.isSome || f.phantom.isSome)

/-- A local SET_GAIN at a STAGE node (R113). -/
def judgeLocalGain (i : Nat) (f : GainFields) (force : Bool) (s : State) : Judged :=
  let d := decidedSetting (gainAt s i)
  let n := localSetting f force d
  if !gainFits i f then refuse .range s
  else if d.owner.isSome && !force then refuse .owned s
  else if d.owner.isSome && locked 2 s then refuse .locked s
  else if locked 2 s && (n.pad != d.pad || n.phantom != d.phantom) then refuse .locked s
  else if n = d then ok s
  else if writesCells (loopMode s) then
    if !hostRoom s then busy s else ok (decideGain i n .loc s)
  else ok (decideAtOnce i n s)

/-- The node's map copy shows a node with function DESK (R112). -/
def shownDesk (s : State) (n : NodeId) : Bool :=
  s.loop.copy.entries.any fun e => decide (e.id = n) && e.func == some .desk

/-- A gain request for another node that passed its ranges and forms (R112, R183). -/
def remoteGain (tag : Byte) (k : OpKind) (n : NodeId) (i : Nat) (lockCheck : Bool) (msg : LoopMsg)
    (s : State) : Judged :=
  if s.isStage || n = s.start.id || shownDesk s n then refuse .state s
  else if heldOrConflict s then refuse .state s
  else if lockCheck then refuse .locked s
  else admitLong (queuedOp tag k (some (n, i))) true (push (.node n) msg (some tag) .loc) s

def flagNat (b : Bool) : Nat := if b then 1 else 0

/-- SET_GAIN for another node (R112). -/
def judgeRemoteSet (tag : Byte) (n : NodeId) (i : Nat) (f : GainFields) (force : Bool) (s : State) :
    Judged :=
  if !gainFits i f then refuse .range s
  else if force then refuse .state s
  else remoteGain tag .setGain n i false
    (.gainSet tag i f.gain (f.pad.map flagNat) (f.phantom.map flagNat)) s

def judgeSetGain (tag : Byte) (node : Option Nat) (i : Nat) (f : GainFields) (force : Bool) (s : State) :
    Judged :=
  match node with
  | none => if s.isStage then judgeLocalGain i f force s else refuse .state s
  | some x =>
    match nodeOf x with
    | none => refuse .range s
    | some n =>
      if n = s.start.id then if s.isStage then judgeLocalGain i f force s else refuse .state s
      else judgeRemoteSet tag n i f force s

/-- The early refusal of a forced claim by the lock view (R167). -/
def viewLocked (s : State) (n : NodeId) : Bool :=
  (s.lock.view.getD n.val none).any fun l => decide (2 ≤ l)

def judgeClaimGain (tag : Byte) (node i : Nat) (force : Bool) (s : State) : Judged :=
  match nodeOf node with
  | none => refuse .range s
  | some n =>
    if 64 ≤ i then refuse .range s
    else remoteGain tag .claimGain n i (force && viewLocked s n) (.gainClaim tag i force) s

def judgeYieldGain (tag : Byte) (node i : Nat) (s : State) : Judged :=
  match nodeOf node with
  | none => refuse .range s
  | some n =>
    if 64 ≤ i then refuse .range s
    else remoteGain tag .yieldGain n i false (.gainYield tag i) s

/-- SET_PHANTOM_MUTE's effect (R119). -/
def storeMute (ms : Nat) (s : State) : State := { s with gain := { s.gain with muteMs := ms } }

def judgeSetPhantomMute (ms : Nat) (s : State) : Judged :=
  if 2000 < ms then refuse .range s
  else if locked 1 s then refuse .locked s
  else if !s.isStage then refuse .state s
  else ok (storeMute ms s)

/-! ### Keys (R129, R130) -/

/-- Check 1 of R129. -/
def keyFits (k : KeyName) (f : KeyFields) : Bool :=
  f.source.all (fun x => decide (x < 64)) && f.priority.all (fun x => decide (x ≤ 3)) &&
    f.settle.all (fun x => decide (x ≤ 50)) && !(keyVirtual k && f.settle.isSome) &&
    f.tap.all fun x => decide (100 ≤ x) && decide (x ≤ 1000)

def withKeyFields (f : KeyFields) (r : KeyRec) : KeyRec :=
  { r with
    enabled := f.enabled.getD r.enabled
    bus := f.bus.getD r.bus
    source := f.source.getD r.source
    priority := f.priority.getD r.priority
    mode := f.mode.getD r.mode
    settleMs := f.settle.getD r.settleMs
    tapMs := f.tap.getD r.tapMs }

/-- A change of bus, priority or mode while the key has a claim up (R129). -/
def keyBusy (f : KeyFields) (r : KeyRec) : Bool :=
  let n := withKeyFields f r
  keyActive r.state && (n.bus != r.bus || n.priority != r.priority || n.mode != r.mode)

/-- SET_KEY's effect: the fields stored, and a key turned off gives up its claim (R129). -/
def storeKey (k : KeyName) (f : KeyFields) (s : State) : State :=
  let r := keyAt s k
  let s1 := setKeyRec k (withKeyFields f r) s
  if r.enabled && !(withKeyFields f r).enabled then
    match r.state with
    | .claiming | .talking | .stacked => sendRelease k (endKey k .idle .disabled s1)
    | .refused | .dropped => endKey k .idle .disabled s1
    | .idle => s1
  else s1

def judgeSetKey (k : KeyName) (f : KeyFields) (s : State) : Judged :=
  if !keyFits k f then refuse .range s
  else if keyBusy f (keyAt s k) then refuse .state s
  else if locked 1 s then refuse .locked s
  else ok (storeKey k f s)

/-- A virtual key is pressed or lifted (R130). -/
def virtualTo (k : KeyName) (pressed : Bool) (s : State) : State :=
  filterTo k pressed (modifyKey k (fun r => { r with raw := pressed }) s)

def judgeTalkPress (k : KeyName) (s : State) : Judged :=
  if !keyVirtual k then refuse .range s
  else if (keyAt s k).pressed then refuse .state s
  else ok (virtualTo k true s)

def judgeTalkLift (k : KeyName) (s : State) : Judged :=
  if !keyVirtual k then refuse .range s
  else if !(keyAt s k).pressed then refuse .state s
  else ok (virtualTo k false s)

/-! ### Outputs (R153, R158, R159) -/

/-- The list of outputs fits (R153, R158). -/
def outputsFit (o : OutputSel) : Bool :=
  match o with
  | .all => true
  | .list l => decide (1 ≤ l.length) && decide (l.length ≤ 64) && l.all fun n => decide (n < 64)

def selects (o : OutputSel) (n : Nat) : Bool :=
  match o with
  | .all => true
  | .list l => l.contains n

/-- RESUME resumes an output: SAFE with an empty set (R153). -/
def resumes (r : OutRec) : Bool := r.state == .safe && causesEmpty r.causes

/-- The two sets of RESUME's reply (R153). -/
def resumedSets (o : OutputSel) (s : State) : List Nat × List Nat :=
  let all := List.range 64
  (all.filter fun n => selects o n && resumes (outAt s n),
    all.filter fun n => match o with
      | .all => (outAt s n).state == .safe && !causesEmpty (outAt s n).causes
      | .list l => l.contains n && !resumes (outAt s n))

/-- RESUME's effect (R153). -/
def resumeOuts (o : OutputSel) (s : State) : State :=
  mapOuts (fun i t r => if selects o i && resumes r then enterFadeIn (outCtx s t) r else r) s

def judgeResume (o : OutputSel) (s : State) : Judged :=
  if !outputsFit o then refuse .range s
  else data (.resumed (resumedSets o s).1 (resumedSets o s).2) (resumeOuts o s)

/-- FORCE_SAFE's effect (R158). -/
def forceOuts (o : OutputSel) (on : Bool) (s : State) : State :=
  mapOuts (fun i t r => if selects o i then onCauses (outCtx s t) { r.causes with forced := on } r else r) s

def judgeForceSafe (o : OutputSel) (on : Bool) (s : State) : Judged :=
  if !outputsFit o then refuse .range s else ok (forceOuts o on s)

/-- SET_SAFETY's effect (R159). -/
def storeSafety (hold filter : Option Nat) (s : State) : State :=
  { s with safety := { s.safety with
      holdMs := hold.getD s.safety.holdMs
      filterMs := filter.getD s.safety.filterMs } }

/-- SET_SAFETY (R159). One that carries neither field fits its kind, passes the same lock check and changes nothing
(log entry 82, DESIGN CHOICE). -/
def judgeSetSafety (hold filter : Option Nat) (s : State) : Judged :=
  if !(hold.all fun x => decide (x ≤ 2000)) || !(filter.all fun x => decide (x ≤ 20)) then refuse .range s
  else if locked 1 s then refuse .locked s
  else ok (storeSafety hold filter s)

/-! ### Lock and supervision (R163, R168) -/

def judgeSetLock (level : Nat) (s : State) : Judged :=
  if 3 < level then refuse .range s
  else if level < s.lock.level then refuse .locked s
  else if level = s.lock.level then ok s
  else ok (raiseLock level s)

/-- SET_SUPERVISION's effect (R168). -/
def storePeriod (ms : Nat) (s : State) : State :=
  { s with supervision := { s.supervision with periodMs := ms, timer := silenceTimer ms } }

def judgeSetSupervision (ms : Nat) (s : State) : Judged :=
  if ms ≠ 0 && (ms < 100 || 10000 < ms) then refuse .range s
  else if locked 2 s then refuse .locked s
  else ok (storePeriod ms s)

/-! ### A request by its command -/

def judgeUnknown (s : State) : Judged := (some .unknown, s)
def judgeUnfit (s : State) : Judged := refuse .range s

/-- The judge of a request that arrived as bytes. -/
def judgeOf (i : Instr) : State → Judged :=
  match i with
  | .status _ => judgeStatus
  | .readTable _ t c => judgeReadTable t c
  | .readPort _ p => judgeReadPort p
  | .setNode _ id f r => judgeSetNode id f r
  | .setRate _ r => judgeSetRate r
  | .setLoopName _ n => judgeSetLoopName n
  | .go tag => judgeGo tag
  | .resetPart tag => judgeResetPart tag
  | .setThresholds _ p f => judgeSetThresholds p f
  | .drill tag p ms => judgeDrill tag p ms
  | .setRecovery _ f => judgeSetRecovery f
  | .setSwitchLead _ n => judgeSetSwitchLead n
  | .heal tag t => judgeHeal tag t
  | .loopReset _ => judgeLoopReset
  | .claimSlot tag l => judgeClaimSlot tag l
  | .releaseSlot tag l force => judgeReleaseSlot tag l force
  | .setTap _ n f => judgeSetTap n f
  | .setTrackRef _ n g => judgeSetTrackRef n g
  | .setGain tag n i f force => judgeSetGain tag n i f force
  | .claimGain tag n i force => judgeClaimGain tag n i force
  | .yieldGain tag n i => judgeYieldGain tag n i
  | .setPhantomMute _ ms => judgeSetPhantomMute ms
  | .setKey _ k f => judgeSetKey k f
  | .talkPress _ k => judgeTalkPress k
  | .talkLift _ k => judgeTalkLift k
  | .resume _ o => judgeResume o
  | .forceSafe _ o on => judgeForceSafe o on
  | .setSafety _ h f => judgeSetSafety h f
  | .setLock _ n => judgeSetLock n
  | .setSupervision _ ms => judgeSetSupervision ms
  | _ => judgeUnknown

end Sys2Proof.Machine
end

