-- ==== Sys2Proof/Machine/Control.lean ====
section
/-! DEFINITION. The host line (11.1 to 11.3): delivery in SPI and UART mode, frames from the host. -/

namespace Sys2Proof.Machine

open Sys2Proof

/-! ### Frames from the host (R178 to R181) -/

/-- A damaged frame is answered DAMAGED with tag 0 in the overflow reply place (R180, R181). -/
def answerDamaged (s : State) : State := overflowReply 0 .damaged s

/-- The judge of a good frame's contents (R180). -/
def judgeParsed (p : Parsed) : State → Judged :=
  match p with
  | .request i => judgeOf i
  | .unfit => judgeUnfit
  | .unknown => judgeUnknown

/-- A host frame's bytes are taken (R178, R180). -/
def takeLine (l : List Byte) (s : State) : State :=
  match judgeBytes l with
  | .silent => s
  | .damaged => answerDamaged s
  | .good tag kind body => takeRequest tag (judgeParsed (parseRequest tag kind body)) s

/-! ### Delivery (R178, R179, R182, R185) -/

/-- The chosen item has been delivered: it leaves its place (R182); a delivered notice settles the lost
flag by the discards since its frame was chosen (R185). -/
def deliver (c : Chosen) (s : State) : State :=
  match c.item with
  | .empty => s
  | .inbox n =>
    { s with ctl := { s.ctl with inbox := s.ctl.inbox.filter fun e => decide (e.made ≠ n) } }
  | .overflow n =>
    { s with ctl := { s.ctl with overflow := s.ctl.overflow.filter fun e => decide (e.made ≠ n) } }
  | .notice =>
    { s with ctl := { s.ctl with notices := s.ctl.notices.tail, lost := s.ctl.discarded } }

/-- SPI_SELECT_FALL: the frame to send is chosen, an EMPTY frame when nothing waits (R178). -/
def selectFall (s : State) : State :=
  if s.start.line = .spi then
    choose (some ((nextChoice s).getD ⟨.empty, emptyFrame⟩)) s
  else s

/-- What CPDO carries while `n` bytes are clocked: the frame from its first byte, and FFh once the frame is done
(R178). -/
def clockedOut (c : Chosen) (n : Nat) : List Byte := c.bytes.take n ++ List.replicate (n - c.bytes.length) 0xFF

/-- What CPDO sent ends, and `l` is what it carried (R178, R179; log entry 87). -/
def endLine (l : List Byte) (s : State) : State := { s with ctl := { s.ctl with chosen := none, lineOut := l } }

/-- The end of a transaction on the outgoing side: what CPDO carried, and the delivery when every byte of the frame
was clocked out (R178). -/
def endChosen (clocked : Nat) (s : State) : State :=
  match s.ctl.chosen with
  | none => s
  | some c =>
    let s1 := endLine (clockedOut c clocked) s
    if c.bytes.length ≤ clocked then deliver c s1 else s1

/-- SPI_TRANSACTION_END (R178): the delivery, then the request, so that a delivery makes room for it (log entry 85,
DESIGN CHOICE). A transaction whose select fell before the release
has no frame chosen: what was open then is abandoned, the request with it (R179). -/
def transactionEnd (l : List Byte) (s : State) : State :=
  if s.start.line = .spi && s.ctl.chosen.isSome then takeLine l (endChosen l.length s) else s

/-- The open UART frame has its last byte, as set by its length byte (R179). -/
def frameComplete (l : List Byte) : Bool :=
  match l[4]? with
  | some n => decide (n.toNat + 7 ≤ l.length)
  | none => false

/-- A byte arrives on the UART line (R179). -/
def uartByte (b : Byte) (s : State) : State :=
  if s.start.line ≠ .uart then s
  else match s.ctl.openFrame with
    | none =>
      if b = 0xA5 then { s with ctl := { s.ctl with openFrame := some ⟨[b], 0⟩ } } else s
    | some o =>
      let l := o.bytes ++ [b]
      if frameComplete l then takeLine l { s with ctl := { s.ctl with openFrame := none } }
      else { s with ctl := { s.ctl with openFrame := some ⟨l, 0⟩ } }

/-- UART_FRAME_RECEIVE: the byte that closes the open frame (R179, R180). -/
def uartFrame (b : Byte) (s : State) : State :=
  match s.ctl.openFrame with
  | none => s
  | some o => if frameComplete (o.bytes ++ [b]) then uartByte b s else s

/-- More than 1 ms has passed since the last byte of the open frame (R179; log entry 32). -/
def gapDue (s : State) : Bool :=
  match s.ctl.openFrame with
  | none => false
  | some o => decide (Config.ticksPerMs ≤ o.gap)

/-- UART_GAP_TIMEOUT (R179, R180). -/
def uartGap (s : State) : State :=
  if s.start.line = .uart && gapDue s then
    answerDamaged { s with ctl := { s.ctl with openFrame := none } }
  else s

/-- UART_FRAME_SENT: the last byte has left CPDO, which carried the frame and nothing after it (R179). -/
def uartSent (s : State) : State :=
  if s.start.line = .uart then
    match s.ctl.chosen with
    | none => s
    | some c => deliver c (endLine c.bytes s)
  else s

/-! ### Operation timers (R177, R184) -/

/-- OPERATION_ANSWER_TIMEOUT (R184). -/
def answerTimeout (tag : Byte) (s : State) : State :=
  match findOp tag s with
  | none => s
  | some o => if isDue o.answer then endOp tag (.no .noAnswer) (bareResult o) s else s

/-- GO_TIMEOUT (R177). -/
def goTimeout (tag : Byte) (s : State) : State :=
  match findOp tag s with
  | none => s
  | some o =>
    if o.kind = .go && isDue o.limit then endOp tag (.no .noAnswer) .none s else s

/-- CURRENCY_RETRY_EXPIRY (R92). -/
def retryExpired (s : State) : State :=
  if isDue s.slots.retry then
    let s1 := pushSnapReq s
    { s1 with slots := { s1.slots with retry := some (ticksOf Config.retryMs) } }
  else s

/-! ### PANIC (R157) -/

/-- The PANIC input changes its raw level (R157). -/
def panicRaw (high : Bool) (s : State) : State :=
  let r := { s.safety with panicRaw := high }
  let s1 := { s with safety := r }
  if high = r.panicOn then { s with safety := { r with panicT := none } }
  else match r.panicT with
    | some _ => s1
    | none =>
      if r.filterMs = 0 then setPanic high s1
      else { s with safety := { r with panicT := some (ticksOf r.filterMs) } }

/-- PANIC_FILTER_EXPIRY (R157). -/
def panicSettled (s : State) : State :=
  if isDue s.safety.panicT then setPanic s.safety.panicRaw s else s

/-! ### Output timers (R150, R152) -/

/-- FADE_OUT_END at an output whose fade ends: every fade-out that ends in the frame period ends with it, as one
event (R150, R160; log entry 68). -/
def fadeOutEnds (i : Nat) (s : State) : State :=
  if (s.safety.outs[i]?).any fadeOutDue then mapOuts (fun _ t r => endFadeOut (outCtx s t) r) s else s
/-- FADE_IN_END at an output whose fade ends: every fade-in that ends in the frame period ends with it, as one
event (R150, R160; log entry 68). -/
def fadeInEnds (i : Nat) (s : State) : State :=
  if (s.safety.outs[i]?).any (fadeInDue (outCtx s (tapAt s i))) then
    mapOuts (fun _ t r => endFadeIn (outCtx s t) r) s
  else s
/-- RESUME_HOLD_EXPIRY of one output (R152). -/
def holdEnds (i : Nat) (s : State) : State := modifyOut i (endHold (outCtx s (tapAt s i))) s

/-- The same at every output whose end has come. -/
def allFadesEnd (s : State) : State :=
  mapOuts (fun _ t r => endFadeIn (outCtx s t) (endFadeOut (outCtx s t) r)) s
def allHoldsEnd (s : State) : State := mapOuts (fun _ t r => endHold (outCtx s t) r) s

end Sys2Proof.Machine
end

