-- ==== Sys2Proof/Machine/Period.lean ====
section
/-! DEFINITION. FRAME_PERIOD: the end of one frame period and the start of the next (R2 and the
per-period work of every block; log entry 7). -/

namespace Sys2Proof.Machine

open Sys2Proof

/-! ### The end of a period -/

/-- The frame positions of a port that end with this frame period, at the rate of its line (R25). -/
def positionsPast (rate : Rate) (r : PortRec) : Nat :=
  (r.position % frameTicks r.lineRate + frameTicks rate) / frameTicks r.lineRate

/-- A frame position at which nothing was found, the `k`-th beside those filled (R25). -/
def missingAt (p : PortId) (k : Nat) (s : State) : State :=
  if (s.port p).arrived + k < positionsPast s.start.rate (s.port p) then missingFrame p s else s

/-- The origin timeout's count at the end of a period without a followed frame (R51). -/
def countTimeout (s : State) : State :=
  if s.loop.following && !s.isOrigin && !s.loop.heard then
    let s1 := { s with loop := { s.loop with timeout := s.loop.timeout + 1 } }
    if Config.originFrames ≤ s1.loop.timeout then originLost s1 else s1
  else s

/-- The count and the due entries of a period without a first visit (R2, R15, R18). -/
def countAlone (s : State) : State :=
  if s.loop.visited then s
  else snapshotStart (applyDue (setCount (s.loop.count + 1) s))

/-- The heal timers that have run out. -/
def healsDue (s : State) : State := allEnds.foldl (fun a (n, p) => healExpired n p a) s
/-- The phantom mutes that have run out. -/
def mutesDue (s : State) : State := (List.range 64).foldl (fun a i => endMute i a) s
/-- The answer and GO timers that have run out. -/
def opsDue (s : State) : State :=
  s.ctl.ops.foldl (fun a o => match o with
    | some o => goTimeout o.tag (answerTimeout o.tag a)
    | none => a) s

/-- What falls due at the end of a period and was not taken by a command of its own, one event after
another. -/
def dueEvents : List (State → State) :=
  [missingAt .a 0, missingAt .a 1, missingAt .b 0, missingAt .b 1,
    settleExpired .a, settleExpired .b, offerExpired .a, offerExpired .b,
    relockExpired .a, relockExpired .b, windowEnded .a, windowEnded .b, drillExpired .a, drillExpired .b,
    countTimeout, takeoverExpired, retryExpired, healsDue, mutesDue,
    fun s => (List.range 8).foldl (fun a i => keySettled (allKeys.getD i .k0) a) s,
    fun s => allKeys.foldl (fun a k => answerExpired k a) s,
    panicSettled, allFadesEnd, allHoldsEnd, silenceExpired, opsDue, uartGap]

/-- A run of events (R160: each reports the outputs it changed). -/
def runEvents (l : List (State → State)) (s : State) : State := l.foldl (fun a f => event f a) s

/-- The end of a period: what is due, the free-running count with its due entries, the lane frame, which shows every
change of state of the period (R96, R150), and the preamp lane. -/
def closePeriod (s : State) : State := sendRecord (laneFrame (event countAlone (runEvents dueEvents s)))

/-! ### The start of a period -/

def tickGain (d : Nat) (e : GainEntry) : GainEntry := { e with mute := tick d e.mute }
def tickKey (d : Nat) (k : KeyRec) : KeyRec :=
  { k with press := k.press.map (fun t => { t with since := t.since + d }), answer := tick d k.answer, settle := tick d k.settle }
def tickOut (d : Nat) (r : OutRec) : OutRec := { r with hold := tick d r.hold }
def tickOp (d : Nat) (o : Operation) : Operation :=
  { o with answer := tick d o.answer, limit := tick d o.limit }
def tickLink (d : Nat) (e : LinkEntry) : LinkEntry := { e with heal := tick d e.heal }

/-- Every running timer counts one frame period (0.5). -/
def tickAll (d : Nat) (s : State) : State :=
  { s with
    portA := tickPort d s.portA
    portB := tickPort d s.portB
    loop := { s.loop with
      takeover := tick d s.loop.takeover
      links := s.loop.links.map (Option.map (tickLink d)) }
    slots := { s.slots with retry := tick d s.slots.retry }
    gain := { s.gain with table := s.gain.table.map (tickGain d) }
    talk := { s.talk with keys := s.talk.keys.map (tickKey d) }
    safety := { s.safety with
      outs := s.safety.outs.map (tickOut d)
      panicT := tick d s.safety.panicT }
    supervision := spanTick d { s.supervision with timer := tick d s.supervision.timer }
    ctl := { s.ctl with
      ops := s.ctl.ops.map (Option.map (tickOp d))
      openFrame := s.ctl.openFrame.map fun o => { o with gap := o.gap + d } } }

/-- The frame positions of a port move on (R25). -/
def nextPosition (rate : Rate) (r : PortRec) : PortRec :=
  { r with
    position := (r.position + frameTicks rate) % frameTicks r.lineRate
    arrived := if positionsPast rate r = 0 then r.arrived else 0 }

/-- The marks of a period: no first visit but an early origination, nothing heard, the next frame positions,
no record sent (R2, R25, R51, R111). -/
def clearMarks (s : State) : State :=
  { s with
    loop := { s.loop with visited := s.loop.originated, heard := false }
    portA := nextPosition s.start.rate s.portA
    portB := nextPosition s.start.rate s.portB
    gain := { s.gain with laneUsed := false } }

/-- The input lanes' samples of the period, by local input (R95). -/
def takeLanes (l : List Sample) (s : State) : State :=
  { s with lanes := { s.lanes with present := (List.range 64).map fun i => l.getD i 0 } }

/-- The pins and the nanosecond time at the boundary (R34, R172). -/
def takePins (inp : PeriodInput) (s : State) : State :=
  { s with
    start := { s.start with holdn := inp.holdn }
    portA := { s.portA with time := inp.now }
    portB := { s.portB with time := inp.now } }

/-- The fades of every output move (R150). -/
def fadesMove (s : State) : State := mapOuts (fun _ t r => moveFades (outCtx s t) r) s

/-- The origination of the period, unless a RESTART row has made it already (R8; log entry 6). -/
def originateOnce (now : Nanos) (s : State) : State :=
  if s.loop.originated then { s with loop := { s.loop with originated := false } }
  else if originates s then originate now s else s

/-- The start of a period: time, samples, fades, origination. -/
def openPeriod (inp : PeriodInput) (s : State) : State :=
  let s1 := clearMarks (tickAll (frameTicks s.start.rate) (takePins inp s))
  event (originateOnce inp.now) (fadesMove (periodSamples (takeLanes inp.lanes s1)))

/-- FRAME_PERIOD: the old period ends, the new one starts, and both ports transmit (R2, R21). -/
def framePeriod (inp : PeriodInput) (s : State) : State :=
  let s1 := openPeriod inp (closePeriod s)
  transmit inp.now (transmit inp.now s1 .a) .b

end Sys2Proof.Machine
end

