-- ==== Sys2Proof/Machine/HostCommands.lean ====
section
/-! DEFINITION. The meanings of the host request rows. Each takes its request by R181: the good request
ends a silence, finds room in the inbox, is judged and answered. -/

namespace Sys2Proof.Machine

open Sys2Proof

/-- The outcome of a command. -/
abbrev Result := Host.Outcome State Fault Refusal

/-- STATUS: the start, loop, port, map, allotment, lock, supervision, output and queue state (R186). -/
def execStatus (tag : Byte) (s : State) : Result := done (takeRequest tag judgeStatus) s

/-- READ_TABLE (R187). -/
def execReadTable (tag : Byte) (table : TableName) (cursor : Nat) (s : State) : Result :=
  done (takeRequest tag (judgeReadTable table cursor)) s

/-- READ_PORT: the port's record, its counters restarted (R36). -/
def execReadPort (tag : Byte) (port : PortId) (s : State) : Result :=
  done (takeRequest tag (judgeReadPort port)) s

/-- SET_NODE (R175). -/
def execSetNode (tag : Byte) (id : Option Nat) (f : Option Func) (r : Option Role)
    (s : State) : Result :=
  done (takeRequest tag (judgeSetNode id f r)) s

/-- SET_RATE (R1, R175). -/
def execSetRate (tag : Byte) (rate : Rate) (s : State) : Result :=
  done (takeRequest tag (judgeSetRate rate)) s

/-- SET_LOOP_NAME (R175). -/
def execSetLoopName (tag : Byte) (name : Nat) (s : State) : Result :=
  done (takeRequest tag (judgeSetLoopName name)) s

/-- GO (R177). -/
def execGo (tag : Byte) (s : State) : Result := done (takeRequest tag (judgeGo tag)) s

/-- RESET_PART: a SOFT reset without a reply (R171). -/
def execResetPart (tag : Byte) (s : State) : Result := done (takeRequest tag (judgeResetPart tag)) s

/-- SET_THRESHOLDS (R23). -/
def execSetThresholds (tag : Byte) (ports : PortSel) (f : ThresholdFields) (s : State) : Result :=
  done (takeRequest tag (judgeSetThresholds ports f)) s

/-- DRILL (R39). -/
def execDrill (tag : Byte) (port : PortId) (ms : Nat) (s : State) : Result :=
  done (takeRequest tag (judgeDrill tag port ms)) s

/-- SET_RECOVERY (R44). -/
def execSetRecovery (tag : Byte) (f : RecoveryFields) (s : State) : Result :=
  done (takeRequest tag (judgeSetRecovery f)) s

/-- SET_SWITCH_LEAD (R16). -/
def execSetSwitchLead (tag : Byte) (frames : Nat) (s : State) : Result :=
  done (takeRequest tag (judgeSetSwitchLead frames)) s

/-- HEAL (R70). -/
def execHeal (tag : Byte) (target : HealTarget) (s : State) : Result :=
  done (takeRequest tag (judgeHeal tag target)) s

/-- LOOP_RESET (R73). -/
def execLoopReset (tag : Byte) (s : State) : Result := done (takeRequest tag judgeLoopReset) s

/-- CLAIM_SLOT (R80). -/
def execClaimSlot (tag : Byte) (pairs : List ClaimPair) (s : State) : Result :=
  done (takeRequest tag (judgeClaimSlot tag pairs)) s

/-- RELEASE_SLOT (R81). -/
def execReleaseSlot (tag : Byte) (slots : List Nat) (force : Bool) (s : State) : Result :=
  done (takeRequest tag (judgeReleaseSlot tag slots force)) s

/-- SET_TAP (R98). -/
def execSetTap (tag : Byte) (tap : Nat) (f : TapFields) (s : State) : Result :=
  done (takeRequest tag (judgeSetTap tap f)) s

/-- SET_TRACK_REF (R125). -/
def execSetTrackRef (tag : Byte) (tap : Nat) (gain : Nat) (s : State) : Result :=
  done (takeRequest tag (judgeSetTrackRef tap gain)) s

/-- SET_GAIN (R112, R113). -/
def execSetGain (tag : Byte) (node : Option Nat) (input : Nat) (f : GainFields) (force : Bool)
    (s : State) : Result :=
  done (takeRequest tag (judgeSetGain tag node input f force)) s

/-- CLAIM_GAIN (R112). -/
def execClaimGain (tag : Byte) (node : Nat) (input : Nat) (force : Bool) (s : State) : Result :=
  done (takeRequest tag (judgeClaimGain tag node input force)) s

/-- YIELD_GAIN (R112). -/
def execYieldGain (tag : Byte) (node : Nat) (input : Nat) (s : State) : Result :=
  done (takeRequest tag (judgeYieldGain tag node input)) s

/-- SET_PHANTOM_MUTE (R119). -/
def execSetPhantomMute (tag : Byte) (ms : Nat) (s : State) : Result :=
  done (takeRequest tag (judgeSetPhantomMute ms)) s

/-- SET_KEY (R129). -/
def execSetKey (tag : Byte) (key : KeyName) (f : KeyFields) (s : State) : Result :=
  done (takeRequest tag (judgeSetKey key f)) s

/-- TALK_PRESS (R130). -/
def execTalkPress (tag : Byte) (key : KeyName) (s : State) : Result :=
  done (takeRequest tag (judgeTalkPress key)) s

/-- TALK_LIFT (R130). -/
def execTalkLift (tag : Byte) (key : KeyName) (s : State) : Result :=
  done (takeRequest tag (judgeTalkLift key)) s

/-- RESUME (R153). -/
def execResume (tag : Byte) (outs : OutputSel) (s : State) : Result :=
  done (takeRequest tag (judgeResume outs)) s

/-- FORCE_SAFE (R158). -/
def execForceSafe (tag : Byte) (outs : OutputSel) (on : Bool) (s : State) : Result :=
  done (takeRequest tag (judgeForceSafe outs on)) s

/-- SET_SAFETY (R159). -/
def execSetSafety (tag : Byte) (hold : Option Nat) (filter : Option Nat) (s : State) : Result :=
  done (takeRequest tag (judgeSetSafety hold filter)) s

/-- SET_LOCK (R163). -/
def execSetLock (tag : Byte) (level : Nat) (s : State) : Result :=
  done (takeRequest tag (judgeSetLock level)) s

/-- SET_SUPERVISION (R168). -/
def execSetSupervision (tag : Byte) (ms : Nat) (s : State) : Result :=
  done (takeRequest tag (judgeSetSupervision ms)) s

/-- UNKNOWN_REQUEST: a good request whose kind byte names no request (R180). -/
def execUnknownRequest (tag : Byte) (_kind : Byte) (s : State) : Result :=
  done (takeRequest tag judgeUnknown) s

end Sys2Proof.Machine
end

