-- ==== Sys2Proof/Machine/LineCommands.lean ====
section
/-! DEFINITION. The meanings of the host line's rows, of the resets and of FRAME_PERIOD. -/

namespace Sys2Proof.Machine

open Sys2Proof

/-! ### The host line (R178, R179) -/

/-- SPI_SELECT_FALL (R178). -/
def execSpiSelectFall (s : State) : Result := done selectFall s

/-- SPI_TRANSACTION_END: the delivery if complete, then the incoming bytes (R178). -/
def execSpiTransactionEnd (bytes : List Byte) (s : State) : Result := done (transactionEnd bytes) s

/-- UART_FRAME_RECEIVE: the byte that completes the open frame (R179). -/
def execUartFrameReceive (byte : Byte) (s : State) : Result := done (uartFrame byte) s

/-- UART_GAP_TIMEOUT (R179). -/
def execUartGapTimeout (s : State) : Result := done uartGap s

/-- UART_FRAME_SENT (R179). -/
def execUartFrameSent (s : State) : Result := done uartSent s

/-- UART_BYTE_ARRIVAL (R179). -/
def execUartByteArrival (byte : Byte) (s : State) : Result := done (uartByte byte) s

/-! ### Resets (R171) -/

/-- What is derived at a release; the outputs' causes stand as the conditions give them and raise no
OUTPUT_CHANGE (R146). -/
def afterRelease (s : State) : State := if s.inReset then s else settle s

/-- POWER_RESET: every block takes its values at once and stays so until the release (R171). -/
def execPowerReset (s : State) : Result := finish s (beginPower s)

/-- POWER_RESET_RELEASE (R171, R172). -/
def execPowerResetRelease (fromBelow : Bool) (straps : Straps) (s : State) : Result :=
  finish s (if s.start.powerHeld then afterRelease (endPower fromBelow straps s) else s)

/-- PIN_RESET (R171). -/
def execPinReset (s : State) : Result := finish s (beginPin s)

/-- PIN_RESET_RELEASE (R171, R172). -/
def execPinResetRelease (straps : Straps) (s : State) : Result :=
  finish s (if s.start.pinHeld then afterRelease (endPin straps s) else s)

/-! ### The frame period (R2) -/

/-- FRAME_PERIOD; while a reset is held only the HOLDN level is seen (R171, R172). -/
def execFramePeriod (inp : PeriodInput) (s : State) : Result :=
  finish s (if s.inReset then { s with start := { s.start with holdn := inp.holdn } }
    else framePeriod inp s)

end Sys2Proof.Machine
end

