-- ==== Sys2Proof/Machine/PortCommands.lean ====
section
/-! DEFINITION. The meanings of the port rows. A row that singles out one consequence of a frame or of a
bad frame is that frame with all its effects, and acts only where it has that consequence (log
entry 4). -/

namespace Sys2Proof.Machine

open Sys2Proof

/-- An effect taken only where it has the consequence asked for. -/
def onlyIf (cond : State → State → Bool) (f : State → State) (s : State) : State :=
  let t := f s
  if cond s t then t else s

/-- A bad frame at an aligned port: the frame position is filled by it (R25). -/
def badFrameAt (p : PortId) (s : State) : State :=
  missingFrame p (s.setPort p { s.port p with arrived := (s.port p).arrived + 1 })

/-- LIGHT_MEASUREMENT (R22, R24). -/
def execLightMeasurement (port : PortId) (milliDbm : Option Int) (s : State) : Result :=
  done (lightMeasured port milliDbm) s

/-- PORT_FRAME_RECEIVE (R25). -/
def execPortFrameReceive (port : PortId) (arr : Arrival) (s : State) : Result :=
  done (receive port arr) s

/-- The port goes from SEEK to SETTLE. -/
def alignsAt (p : PortId) (s t : State) : Bool := (s.port p).state == .seek && (t.port p).state == .settle

/-- ALIGNED: the frame that aligns the port (R25). -/
def execAligned (port : PortId) (arr : Arrival) (s : State) : Result :=
  done (onlyIf (alignsAt port) (receive port arr)) s

/-- The port leaves alignment for SEEK. -/
def losesAlignment (p : PortId) (s t : State) : Bool :=
  isAligned (s.port p).state && (t.port p).state == .seek

/-- ALIGN_LOST: the bad frame that loses alignment (R25). -/
def execAlignLost (port : PortId) (s : State) : Result :=
  done (onlyIf (losesAlignment port) (badFrameAt port)) s

/-- The port goes from OFFER to UP. -/
def joinsAt (p : PortId) (s t : State) : Bool := (s.port p).state == .offer && (t.port p).state == .up

/-- JOINED: the frame whose offer completes the agreement run (R28). -/
def execJoined (port : PortId) (arr : Arrival) (s : State) : Result :=
  done (onlyIf (joinsAt port) (receive port arr)) s

/-- REMOTE_FAULT goes from clear to set. -/
def faultSetAt (p : PortId) (s t : State) : Bool :=
  !(s.port p).flags.remoteFault && (t.port p).flags.remoteFault

/-- REMOTE_FAULT_SET: the frame that completes the hear-you-clear run (R31). -/
def execRemoteFaultSet (port : PortId) (arr : Arrival) (s : State) : Result :=
  done (onlyIf (faultSetAt port) (receive port arr)) s

/-- MARGINAL goes from clear to set. -/
def marginalSetAt (p : PortId) (s t : State) : Bool :=
  !(s.port p).flags.marginal && (t.port p).flags.marginal

/-- MARGINAL_SET: the bad frame that meets the error condition (R33). -/
def execMarginalSet (port : PortId) (s : State) : Result :=
  done (onlyIf (marginalSetAt port) (badFrameAt port)) s

/-- SETTLE_TIMER_EXPIRY (R26). -/
def execSettleTimerExpiry (port : PortId) (s : State) : Result := done (settleExpired port) s

/-- OFFER_TIMER_EXPIRY (R29). -/
def execOfferTimerExpiry (port : PortId) (s : State) : Result := done (offerExpired port) s

/-- RELOCK_TIMER_EXPIRY (R35). -/
def execRelockTimerExpiry (port : PortId) (s : State) : Result := done (relockExpired port) s

/-- ERROR_WINDOW_END (R33). -/
def execErrorWindowEnd (port : PortId) (s : State) : Result := done (windowEnded port) s

/-- DRILL_TIMER_EXPIRY (R41). -/
def execDrillTimerExpiry (port : PortId) (s : State) : Result := done (drillExpired port) s

end Sys2Proof.Machine
end

