-- ==== Sys2Proof/Machine/LoopCommands.lean ====
section
/-! DEFINITION. The meanings of the Loop Engine's rows. -/

namespace Sys2Proof.Machine

open Sys2Proof

/-- A node leaves the origin's map by its absence count. -/
def leavesMap (s t : State) : Bool :=
  s.isOrigin && t.isOrigin && s.loop.group == t.loop.group &&
    s.loop.ownMap.any fun e => !(t.loop.ownMap.any fun x => decide (x.id = e.id))

/-- MAP_ABSENCE_LIMIT: the returned frame at which a node's third consecutive absence is counted (R58). -/
def execMapAbsenceLimit (port : PortId) (arr : Arrival) (s : State) : Result :=
  done (onlyIf leavesMap (receive port arr)) s

/-- The last period without a followed frame before the count reaches 48 (R51). -/
def timeoutDue (s : State) : Bool :=
  s.loop.following && !s.isOrigin && !s.loop.heard && decide (Config.originFrames ≤ s.loop.timeout + 1)

/-- The origin timeout reaches 48 (R51). -/
def reachTimeout (s : State) : State :=
  if timeoutDue s then originLost { s with loop := { s.loop with timeout := Config.originFrames } } else s

/-- ORIGIN_TIMEOUT (R51). -/
def execOriginTimeout (s : State) : Result := done reachTimeout s

/-- TAKEOVER_TIMER_EXPIRY (R63). -/
def execTakeoverTimerExpiry (s : State) : Result := done takeoverExpired s

/-- An item that has been sent 4 times is not awaiting the assessment of its last send (R13); a stale grant or
refusal at the head is dropped before it, without effect (R139). -/
def dropAssessed (s : State) : State :=
  if s.queue.written.isNone && writesCells (loopMode s) then
    let t := dropStale s
    if headSpent t || pieceSpent t then dropSpent t else s
  else s

/-- ITEM_DROP (R13). -/
def execItemDrop (s : State) : Result := done dropAssessed s

/-- OWED_ADMIT (R14). -/
def execOwedAdmit (s : State) : Result := done admitOwed s

/-- SNAPSHOT_START (R15). -/
def execSnapshotStart (s : State) : Result := done snapshotStart s

/-- An entry whose switch frame is reached, in a period without a first visit (R18). -/
def applyReached (n : NodeId) (s : State) : State :=
  match pendingOf s n with
  | none => s
  | some p => if reached s.loop.count p.frame && !s.loop.visited then applyPending n s else s

/-- SWITCH_APPLY (R18). -/
def execSwitchApply (sender : NodeId) (s : State) : Result := done (applyReached sender) s

/-- CURRENCY_RETRY_EXPIRY (R92). -/
def execCurrencyRetryExpiry (s : State) : Result := done retryExpired s

/-- HEAL_TIMER_EXPIRY, named by the link's canonical end (R69). -/
def execHealTimerExpiry (node : NodeId) (port : PortId) (s : State) : Result :=
  done (healExpired node port) s

/-- The origination of the next period, made by the row of its own (log entry 6). -/
def originateEarly (now : Nanos) (s : State) : State :=
  let t := originate now s
  { t with loop := { t.loop with originated := true } }

/-- The next origination writes the prepared RESTART (R73). -/
def restartReady (s : State) : Bool :=
  originates s && !s.loop.originated && writesCells (loopMode s) &&
    match s.loop.restart with
    | .prepared _ => true
    | .idle | .written _ => false

/-- RESTART_WRITE: the origination that writes the RESTART (R73). -/
def execRestartWrite (now : Nanos) (s : State) : Result :=
  done (fun s => if restartReady s then originateEarly now s else s) s

/-- The next origination takes the new epoch (R73). -/
def epochReady (s : State) : Bool :=
  originates s && !s.loop.originated &&
    match s.loop.restart with
    | .written _ => true
    | .idle | .prepared _ => false

/-- RESTART_EPOCH_TAKE: the origination that takes the new epoch (R73). -/
def execRestartEpochTake (now : Nanos) (s : State) : Result :=
  done (fun s => if epochReady s then originateEarly now s else s) s

end Sys2Proof.Machine
end

