-- ==== Sys2Proof/Machine/UnitCommands.lean ====
section
/-! DEFINITION. The meanings of the rows of the preamp lane, the keys, PANIC, the outputs, supervision
and the operation timers. -/

namespace Sys2Proof.Machine

open Sys2Proof

/-- PREAMP_RECORD_SEND (R111). -/
def execPreampRecordSend (s : State) : Result := done sendRecord s

/-- PHANTOM_MUTE_EXPIRY (R119). -/
def execPhantomMuteExpiry (input : Nat) (s : State) : Result := done (endMute input) s

/-- KEY_INPUT_CHANGE: the filter sees the raw level; while a reset is held only the pin is seen (R130). The change is
taken as a sample at once, so two of one input within a frame period are both seen (log entry 80, DESIGN CHOICE). -/
def execKeyInputChange (key : Fin 8) (high : Bool) (s : State) : Result :=
  if s.inReset then finish s (modifyKey (keyOfInput key) (fun r => { r with raw := high }) s)
  else done (keyRaw (keyOfInput key) high) s

/-- KEY_SETTLE_EXPIRY (R130). -/
def execKeySettleExpiry (key : Fin 8) (s : State) : Result := done (keySettled (keyOfInput key)) s

/-- KEY_ANSWER_TIMEOUT (R134). -/
def execKeyAnswerTimeout (key : KeyName) (s : State) : Result := done (answerExpired key) s

/-- PANIC_INPUT_CHANGE: the filter sees the raw level; while a reset is held only the pin is seen
(R157). It is taken at once like a key's change (log entry 80, DESIGN CHOICE). -/
def execPanicInputChange (high : Bool) (s : State) : Result :=
  if s.inReset then finish s { s with safety := { s.safety with panicRaw := high } }
  else done (panicRaw high) s

/-- PANIC_FILTER_EXPIRY (R157). -/
def execPanicFilterExpiry (s : State) : Result := done panicSettled s

/-- FADE_OUT_END (R150, R160). -/
def execFadeOutEnd (out : Nat) (s : State) : Result := done (fadeOutEnds out) s

/-- FADE_IN_END (R150, R160). -/
def execFadeInEnd (out : Nat) (s : State) : Result := done (fadeInEnds out) s

/-- RESUME_HOLD_EXPIRY (R152). -/
def execResumeHoldExpiry (out : Nat) (s : State) : Result := done (holdEnds out) s

/-- SILENCE_TIMER_EXPIRY (R169). -/
def execSilenceTimerExpiry (s : State) : Result := done silenceExpired s

/-- OPERATION_ANSWER_TIMEOUT (R184). -/
def execOperationAnswerTimeout (tag : Byte) (s : State) : Result := done (answerTimeout tag) s

/-- GO_TIMEOUT (R177). -/
def execGoTimeout (tag : Byte) (s : State) : Result := done (goTimeout tag) s

end Sys2Proof.Machine
end

