-- ==== Sys2Proof/Machine/Dispatch.lean ====
section
/-! DEFINITION. The dispatch of a command to its meaning, one arm per row of the opcode table. -/

namespace Sys2Proof.Machine

open Sys2Proof

def exec (i : Instr) (s : State) : Host.Outcome State Fault Refusal :=
  match i with
  | .status tag => Sys2Proof.Machine.execStatus tag s
  | .readTable tag table cursor => Sys2Proof.Machine.execReadTable tag table cursor s
  | .readPort tag port => Sys2Proof.Machine.execReadPort tag port s
  | .setNode tag id func role => Sys2Proof.Machine.execSetNode tag id func role s
  | .setRate tag rate => Sys2Proof.Machine.execSetRate tag rate s
  | .setLoopName tag name => Sys2Proof.Machine.execSetLoopName tag name s
  | .go tag => Sys2Proof.Machine.execGo tag s
  | .resetPart tag => Sys2Proof.Machine.execResetPart tag s
  | .setThresholds tag ports f => Sys2Proof.Machine.execSetThresholds tag ports f s
  | .drill tag port ms => Sys2Proof.Machine.execDrill tag port ms s
  | .setRecovery tag f => Sys2Proof.Machine.execSetRecovery tag f s
  | .setSwitchLead tag frames => Sys2Proof.Machine.execSetSwitchLead tag frames s
  | .heal tag target => Sys2Proof.Machine.execHeal tag target s
  | .loopReset tag => Sys2Proof.Machine.execLoopReset tag s
  | .claimSlot tag pairs => Sys2Proof.Machine.execClaimSlot tag pairs s
  | .releaseSlot tag slots force => Sys2Proof.Machine.execReleaseSlot tag slots force s
  | .setTap tag tap f => Sys2Proof.Machine.execSetTap tag tap f s
  | .setTrackRef tag tap gain => Sys2Proof.Machine.execSetTrackRef tag tap gain s
  | .setGain tag node input f force => Sys2Proof.Machine.execSetGain tag node input f force s
  | .claimGain tag node input force => Sys2Proof.Machine.execClaimGain tag node input force s
  | .yieldGain tag node input => Sys2Proof.Machine.execYieldGain tag node input s
  | .setPhantomMute tag ms => Sys2Proof.Machine.execSetPhantomMute tag ms s
  | .setKey tag key f => Sys2Proof.Machine.execSetKey tag key f s
  | .talkPress tag key => Sys2Proof.Machine.execTalkPress tag key s
  | .talkLift tag key => Sys2Proof.Machine.execTalkLift tag key s
  | .resume tag outs => Sys2Proof.Machine.execResume tag outs s
  | .forceSafe tag outs on => Sys2Proof.Machine.execForceSafe tag outs on s
  | .setSafety tag hold filter => Sys2Proof.Machine.execSetSafety tag hold filter s
  | .setLock tag level => Sys2Proof.Machine.execSetLock tag level s
  | .setSupervision tag ms => Sys2Proof.Machine.execSetSupervision tag ms s
  | .unknownRequest tag kind => Sys2Proof.Machine.execUnknownRequest tag kind s
  | .spiSelectFall => Sys2Proof.Machine.execSpiSelectFall s
  | .spiTransactionEnd bytes => Sys2Proof.Machine.execSpiTransactionEnd bytes s
  | .uartFrameReceive byte => Sys2Proof.Machine.execUartFrameReceive byte s
  | .uartGapTimeout => Sys2Proof.Machine.execUartGapTimeout s
  | .uartFrameSent => Sys2Proof.Machine.execUartFrameSent s
  | .powerReset => Sys2Proof.Machine.execPowerReset s
  | .powerResetRelease fromBelow straps => Sys2Proof.Machine.execPowerResetRelease fromBelow straps s
  | .pinReset => Sys2Proof.Machine.execPinReset s
  | .pinResetRelease straps => Sys2Proof.Machine.execPinResetRelease straps s
  | .framePeriod inp => Sys2Proof.Machine.execFramePeriod inp s
  | .preampRecordSend => Sys2Proof.Machine.execPreampRecordSend s
  | .lightMeasurement port milliDbm => Sys2Proof.Machine.execLightMeasurement port milliDbm s
  | .portFrameReceive port arr => Sys2Proof.Machine.execPortFrameReceive port arr s
  | .aligned port arr => Sys2Proof.Machine.execAligned port arr s
  | .alignLost port => Sys2Proof.Machine.execAlignLost port s
  | .joined port arr => Sys2Proof.Machine.execJoined port arr s
  | .remoteFaultSet port arr => Sys2Proof.Machine.execRemoteFaultSet port arr s
  | .marginalSet port => Sys2Proof.Machine.execMarginalSet port s
  | .settleTimerExpiry port => Sys2Proof.Machine.execSettleTimerExpiry port s
  | .offerTimerExpiry port => Sys2Proof.Machine.execOfferTimerExpiry port s
  | .relockTimerExpiry port => Sys2Proof.Machine.execRelockTimerExpiry port s
  | .errorWindowEnd port => Sys2Proof.Machine.execErrorWindowEnd port s
  | .drillTimerExpiry port => Sys2Proof.Machine.execDrillTimerExpiry port s
  | .mapAbsenceLimit port arr => Sys2Proof.Machine.execMapAbsenceLimit port arr s
  | .originTimeout => Sys2Proof.Machine.execOriginTimeout s
  | .takeoverTimerExpiry => Sys2Proof.Machine.execTakeoverTimerExpiry s
  | .itemDrop => Sys2Proof.Machine.execItemDrop s
  | .owedAdmit => Sys2Proof.Machine.execOwedAdmit s
  | .snapshotStart => Sys2Proof.Machine.execSnapshotStart s
  | .switchApply sender => Sys2Proof.Machine.execSwitchApply sender s
  | .currencyRetryExpiry => Sys2Proof.Machine.execCurrencyRetryExpiry s
  | .phantomMuteExpiry input => Sys2Proof.Machine.execPhantomMuteExpiry input s
  | .healTimerExpiry node port => Sys2Proof.Machine.execHealTimerExpiry node port s
  | .restartWrite now => Sys2Proof.Machine.execRestartWrite now s
  | .restartEpochTake now => Sys2Proof.Machine.execRestartEpochTake now s
  | .keyInputChange key high => Sys2Proof.Machine.execKeyInputChange key high s
  | .keySettleExpiry key => Sys2Proof.Machine.execKeySettleExpiry key s
  | .keyAnswerTimeout key => Sys2Proof.Machine.execKeyAnswerTimeout key s
  | .panicInputChange high => Sys2Proof.Machine.execPanicInputChange high s
  | .panicFilterExpiry => Sys2Proof.Machine.execPanicFilterExpiry s
  | .fadeOutEnd out => Sys2Proof.Machine.execFadeOutEnd out s
  | .fadeInEnd out => Sys2Proof.Machine.execFadeInEnd out s
  | .resumeHoldExpiry out => Sys2Proof.Machine.execResumeHoldExpiry out s
  | .silenceTimerExpiry => Sys2Proof.Machine.execSilenceTimerExpiry s
  | .operationAnswerTimeout tag => Sys2Proof.Machine.execOperationAnswerTimeout tag s
  | .goTimeout tag => Sys2Proof.Machine.execGoTimeout tag s
  | .uartByteArrival byte => Sys2Proof.Machine.execUartByteArrival byte s

end Sys2Proof.Machine
end

