-- ==== Sys2Proof/Safety.lean ====
section
/-! DEFINITION. What it means for a state of the block to be in order: the invariants the rules name, each
a property of one state. The obligations say that every step keeps them. -/

namespace Sys2Proof.Machine

open Sys2Proof

/-- An output may be heard, or may come to be heard by its hold timer alone, only under an empty safe
cause set (R149, R152): LIVE and FADING_IN need an empty set, a hold timer runs only in SAFE under one. -/
def OutClean (r : OutRec) : Prop :=
  ((r.state = .live ∨ r.state = .fadingIn) → causesEmpty r.causes = true) ∧
    (r.hold.isSome = true → r.state = .safe ∧ causesEmpty r.causes = true)

/-- Every output is clean (R149). -/
def OutputsSafe (s : State) : Prop := ∀ r ∈ s.safety.outs, OutClean r

/-- The places of the part are not overfilled: 32 notices (R185), 16 queued messages (R14), 4 inbox
entries (R181), 8 places of the operation table (R183), 8 ended operations (R184). -/
structure WithinRoom (s : State) : Prop where
  notices : s.ctl.notices.length ≤ Config.noticeMax
  queue : s.queue.items.length ≤ Config.queueMax
  inbox : s.ctl.inbox.length ≤ Config.inboxMax
  ops : s.ctl.ops.length = Config.opMax
  ended : s.ctl.ended.length ≤ Config.opMax

/-- The pending switch list holds at most one entry per sender, and none of another epoch (R18). -/
structure PendingInOrder (s : State) : Prop where
  senders : (s.switches.map (·.sender)).Nodup
  epochs : ∀ p ∈ s.switches, p.epoch = s.loop.epoch

/-- A wrap stands at one port at most; a PLANNED wrap at a usable port, a LOSS wrap at a port that is not
usable beside one that is (R43, R52, R53). -/
structure WrapsInOrder (s : State) : Prop where
  one : s.loop.wrapA = .none ∨ s.loop.wrapB = .none
  planned : ∀ p, isPlanned (s.wrapAt p) = true → s.usable p = true
  loss : ∀ p, s.wrapAt p = .loss → s.usable p = false ∧ s.usable (portOther p) = true

/-- While a POWER or PIN reset is held, the blocks stand at their values after the reset (R171): all but the
start record's other fields and the levels of the key and PANIC inputs, which show the pins. -/
structure ResetClear (s : State) : Prop where
  portA : s.portA = PortRec.power
  portB : s.portB = PortRec.power
  loop : s.loop = LoopRec.power 0 .stage .member
  queue : s.queue = QueueRec.fresh 240
  snap : s.snap = SnapRec.idle
  switches : s.switches = []
  slots : s.slots = SlotRec.power .k48
  lanes : s.lanes = LaneRec.power .k48
  gain : s.gain = GainRec.power .stage
  keys : ∀ k ∈ s.talk.keys, k = { KeyRec.power with raw := k.raw, pressed := k.pressed }
  views : s.talk.views = List.replicate 4 BusView.clear
  records : s.talk.records = List.replicate 4 BusRec.empty
  outs : s.safety.outs = List.replicate 64 OutRec.power
  panicT : s.safety.panicT = none
  holdMs : s.safety.holdMs = 100
  filterMs : s.safety.filterMs = 2
  lock : s.lock = LockRec.power 0
  supervision : s.supervision = SuperRec.power
  ctl : s.ctl = ControlRec.clear
  rate : s.start.rate = .k48
  loopName : s.start.loopName = 0

/-- What the blocks derive stands as the rest of the state gives it: each tap's source validity (R102),
the held talk samples of buses not heard (R104), the causes ORPHAN and SOURCE_LOST of each output (R147),
the currency retry timer (R92); a takeover timer runs in ORPHAN only (R63), and no copy is current in the
modes of R77. -/
structure Settled (s : State) : Prop where
  taps : ∀ t ∈ s.lanes.taps, t.valid = sourceValid s t.source
  talk : s.lanes.heldTalk =
    allBuses.map fun b => if heard s b then s.lanes.heldTalk.getD (busIndex b) 0 else 0
  causes : ∀ i r, s.safety.outs[i]? = some r →
    r.causes.orphan = orphanMode (loopMode s) ∧
      r.causes.sourceLost = ((tapAt s i).source != .unused && !(tapAt s i).valid)
  retry : s.slots.retry.isSome = retryCond s
  takeover : s.loop.takeover.isSome = true → loopMode s = .orphan
  copy : modeLosesCopy s = true → s.isMaster = true ∨ s.slots.current = false

/-! ### What a statement says of a state before and after a command -/

/-- A request is taken: no reset is held and the inbox has a free place (R171, R181). -/
structure Taken (s : State) : Prop where
  running : s.inReset = false
  room : s.ctl.inbox.length < Config.inboxMax

/-- The notices `l` were offered to the queue one after another: those that find room join its tail, and the
lost flag is set where one does not (R185). -/
structure Raised (l : List Notice) (s t : State) : Prop where
  notices : t.ctl.notices = s.ctl.notices ++ l.take (Config.noticeMax - s.ctl.notices.length)
  lost : t.ctl.lost = (s.ctl.lost || decide (Config.noticeMax - s.ctl.notices.length < l.length))

/-- The OUTPUT_CHANGE notices of the outputs changed between two lists of records (R160). -/
def outputNotices (old new : List OutRec) : List Notice :=
  (changedGroups old new).map fun (l, r) =>
    .outputChange l r.state (reportedCause r.causes) r.causes r.stage

/-- A reply joined the inbox that stood before the request, in the order of making (R181, R182). -/
structure Replied (tag : Byte) (r : Reply) (s t : State) : Prop where
  inbox : t.ctl.inbox = s.ctl.inbox ++ [⟨tag, r, s.ctl.made⟩]
  made : t.ctl.made = s.ctl.made + 1

/-- The two states hold the same in every block, the Control Port's inbox, notice queue, delivery and order
counter apart. -/
structure SameBlocks (s t : State) : Prop where
  start : t.start = s.start
  portA : t.portA = s.portA
  portB : t.portB = s.portB
  loop : t.loop = s.loop
  queue : t.queue = s.queue
  snap : t.snap = s.snap
  switches : t.switches = s.switches
  slots : t.slots = s.slots
  lanes : t.lanes = s.lanes
  gain : t.gain = s.gain
  talk : t.talk = s.talk
  safety : t.safety = s.safety
  lock : t.lock = s.lock
  supervision : t.supervision = s.supervision
  overflow : t.ctl.overflow = s.ctl.overflow
  ops : t.ctl.ops = s.ctl.ops
  ended : t.ctl.ended = s.ctl.ended
  openFrame : t.ctl.openFrame = s.ctl.openFrame
  lineOut : t.ctl.lineOut = s.ctl.lineOut

/-- What a request left: its reply in the inbox, the notices `l` and those of the outputs it changed raised after
those of a silence it ended, OUTPUT_CHANGE last in its event (log entry 16, the model's choice), every block as in
`u`, the delivery in SPI mode and the waiting commands as they stood. -/
structure Answered (tag : Byte) (r : Reply) (l : List Notice) (s u t : State) : Prop where
  reply : Replied tag r s t
  notices : Raised (l ++ outputNotices s.safety.outs u.safety.outs) (goodRequest s) t
  blocks : SameBlocks u t
  delivery : s.start.line = .spi → t.ctl.chosen = s.ctl.chosen
  waiting : t.pending = s.pending

/-- What another event left: the notices `l` and those of the outputs it changed raised, OUTPUT_CHANGE last in its
event (log entry 16, the model's choice), every block as in `u`, the inbox, the delivery in SPI mode and the waiting
commands as they stood. -/
structure Happened (l : List Notice) (s u t : State) : Prop where
  notices : Raised (l ++ outputNotices s.safety.outs u.safety.outs) s t
  blocks : SameBlocks u t
  inbox : t.ctl.inbox = s.ctl.inbox
  made : t.ctl.made = s.ctl.made
  delivery : s.start.line = .spi → t.ctl.chosen = s.ctl.chosen
  waiting : t.pending = s.pending

/-- The tag of a host request (R180). -/
def requestTag : Instr → Option Byte
  | .status tag | .readTable tag _ _ | .readPort tag _ | .setNode tag _ _ _ | .setRate tag _
  | .setLoopName tag _ | .go tag | .resetPart tag | .setThresholds tag _ _ | .drill tag _ _
  | .setRecovery tag _ | .setSwitchLead tag _ | .heal tag _ | .loopReset tag | .claimSlot tag _
  | .releaseSlot tag _ _ | .setTap tag _ _ | .setTrackRef tag _ _ | .setGain tag _ _ _ _
  | .claimGain tag _ _ _ | .yieldGain tag _ _ | .setPhantomMute tag _ | .setKey tag _ _
  | .talkPress tag _ | .talkLift tag _ | .resume tag _ | .forceSafe tag _ _ | .setSafety tag _ _
  | .setLock tag _ | .setSupervision tag _ | .unknownRequest tag _ => some tag
  | _ => none

/-- The commands that act while a POWER or PIN reset is held: the resets and their releases, the frame period
and the inputs, whose pins are seen (R130, R157, R171, R172). -/
def actsInReset : Instr → Bool
  | .powerReset | .powerResetRelease _ _ | .pinReset | .pinResetRelease _ | .framePeriod _
  | .keyInputChange _ _ | .panicInputChange _ => true
  | _ => false

/-- What the release of a POWER or PIN reset leaves: the straps read, the start sequence done, START_REPORT
first in the notice queue, the blocks at their values after the reset (R21, R111, R130, R157, R172, R173,
R176). -/
structure Released (p : Straps) (c : ResetCause) (s t : State) : Prop where
  ended : t.inReset = false
  start : t.start = { s.start with
    cause := c, straps := some p, strapsRead := true, held := !p.holdn
    id := p.nid, func := p.func, role := p.role.getD .member, roleInvalid := p.role.isNone
    rate := .k48, loopName := 0, line := p.portsel, holdn := p.holdn
    powerHeld := false, pinHeld := false, fell := false, below := false, softTag := none }
  report : t.ctl.notices.head? = some (.startReport ⟨c, none, some p, true, p.nid, p.func,
    p.role.getD .member, p.role.isNone, !p.holdn, .k48, 0, 0⟩)
  attn : attn t = false
  portA : t.portA = { PortRec.power with txOn := true }
  portB : t.portB = { PortRec.power with txOn := true }
  keys : ∀ (i : Nat) (k : KeyRec), s.talk.keys[i]? = some k →
    t.talk.keys[i]? = some { KeyRec.power with
      raw := k.raw && decide (i < 8), pressed := k.raw && decide (i < 8) }
  panic : t.safety.panicOn = s.safety.panicRaw
  inputs : t.gain.table = gainTableOf p.func
  records : t.gain.records = recordsOf (gainTableOf p.func)
  held : p.holdn = false → loopMode t = .held ∧ t.loop.role = .follower ∧ t.loop.group = none
  master : p.holdn = true → p.role = some .master → t.loop.role = .origin ∧ t.loop.following = true ∧
    t.loop.group = some ⟨p.nid, .master, 1⟩
  other : p.holdn = true → p.role ≠ some .master → loopMode t = .seeking ∧ t.loop.role = .follower ∧
    t.loop.group = none

/-- What a port keeps and loses when it leaves alignment for `st`: flags empty, partner record absent, link
delay unknown, runs and window discarded, the settings and the drill kept, the relock timer started where the
port was UP (R20, R24, R25, R33, R34, R35). -/
structure Unaligned (st : PortState) (r r' : PortRec) : Prop where
  state : r'.state = st
  flags : r'.flags = ⟨false, false, false⟩
  partner : r'.partner = none
  delay : r'.linkDelay = none
  runs : r'.alignRun = 0 ∧ r'.agreeRun = 0 ∧ r'.clearRun = 0 ∧ r'.badRun = 0
  timers : r'.settle = none ∧ r'.offerT = none ∧ r'.window = none
  relock : r'.relock = if r.state = .up then some (2000 * 96) else r.relock
  drill : r'.drill = r.drill ∧ r'.drillT = r.drillT ∧ r'.txOn = r.txOn
  settings : r'.loss = r.loss ∧ r'.marginalAt = r.marginalAt ∧ r'.hyst = r.hyst ∧ r'.settleMs = r.settleMs

/-- The blocks that no port event touches. -/
structure PortEventFrame (s t : State) : Prop where
  start : t.start = s.start
  snap : t.snap = s.snap
  gain : t.gain = s.gain
  lock : t.lock = s.lock
  supervision : t.supervision = s.supervision
  waiting : t.pending = s.pending

/-- A usable port of a node not configured MASTER took a change that leaves it usable and that a LINK_NOTE
reports (R14, R54): the note is queued, or owed where 16 messages stand. -/
def portNoted (p : PortId) (r : PortRec) (s : State) : State :=
  let s1 := s.setPort p { r with everUsable := r.everUsable || !s.start.held }
  if s.queue.items.length < 16 then
    { s1 with queue := { s.queue with
        items := s.queue.items ++ [⟨s.queue.nextNum, .all, .linkNote p (.port .up) r.flags.marginal
          (r.partner.map (·.sender)) (r.partner.bind (·.offer.origin)), 0, none, none, s.loop.group, .loc⟩]
        nextNum := s.queue.nextNum + 1 } }
  else match p with
    | .a => { s1 with loop := { s.loop with noteOwedA := true } }
    | .b => { s1 with loop := { s.loop with noteOwedB := true } }

/-- The same change at any node: beside the note, the master acts on its own port event as on a LINK_NOTE (R54 to R56). -/
def portReported (p : PortId) (r : PortRec) (s : State) : State :=
  takeLinkNote s.start.id p (.port .up) r.flags.marginal (r.partner.map (·.sender))
    (r.partner.bind (·.offer.origin)) (portNoted p r s)

/-- A message joins the tail of the queue with the next message number (R11, R14). -/
def queued (dest : QDest) (body : LoopMsg) (op : Option Byte) (cause : GainCause) (s : State) : QueueRec :=
  { s.queue with
    items := s.queue.items ++ [⟨s.queue.nextNum, dest, body, 0, none, op, s.loop.group, cause⟩]
    nextNum := s.queue.nextNum + 1 }

/-- The Control Port after an operation has left the table for the ended list (R184). -/
def opEnded (o : EndedOp) (c : ControlRec) : ControlRec :=
  { c with
    ops := c.ops.map fun x => x.filter fun y => decide (y.tag ≠ o.tag)
    ended := (o :: c.ended).take 8 }

/-- What the release of a key's claim on a bus leaves, `r` the key's record after its event (R133, R137): a message to the
origin, a release owed where 16 messages stand, or at an ORIGIN its own decision. -/
structure ReleaseLeaves (k : KeyName) (b : Bus) (r : KeyRec) (s u : State) : Prop where
  sends : s.loop.role = .follower → s.queue.items.length < 16 →
    u = { setKeyRec k r s with queue := queued .origin (.talkRelease b k) none .loc s }
  owes : s.loop.role = .follower → 16 ≤ s.queue.items.length → u = setKeyRec k { r with releaseOwed := true } s
  grants : s.loop.role = .origin → s.loop.conflict = none →
    (decideRelease ⟨s.start.id, k⟩ (busAt s b)).2 = .grant →
    u = issueGrant b (setBusRec b (decideRelease ⟨s.start.id, k⟩ (busAt s b)).1 (setKeyRec k r s))
  passes : s.loop.role = .origin → s.loop.conflict = none →
    (decideRelease ⟨s.start.id, k⟩ (busAt s b)).2 = .nothing →
    u = setBusRec b (decideRelease ⟨s.start.id, k⟩ (busAt s b)).1 (setKeyRec k r s)

/-- What the claim of a key leaves, the key CLAIMING with its press timer at 0 (R131, R133, R136, R142): a message to the
origin, the key DROPPED with a release owed where 16 messages stand, or at an ORIGIN its own decision, a refusal applied
at once. -/
structure ClaimLeaves (k : KeyName) (s : State) (l : List Notice) (u : State) : Prop where
  sends : s.isOrigin = false → s.queue.items.length < 16 →
    l = [.keyChange k (keyAt s k).bus .claiming (keyAt s k).latched .press] ∧
      u = { setKeyRec k { keyAt s k with state := .claiming, press := some ⟨0, (keyAt s k).tapMs⟩ } s with
        queue := queued .origin (.talkClaim (keyAt s k).bus k (keyAt s k).priority) none .loc s }
  drops : s.isOrigin = false → 16 ≤ s.queue.items.length →
    l = [.keyChange k (keyAt s k).bus .claiming (keyAt s k).latched .press,
        .loopChange (loopView s) (.queueFull 14), .keyChange k (keyAt s k).bus .dropped false .lost] ∧
      u = setKeyRec k { keyAt s k with
        state := .dropped, latched := false, press := none, answer := none, releaseOwed := true } s
  grants : s.isOrigin = true → s.loop.conflict = none →
    (decideClaim ⟨⟨s.start.id, k⟩, (keyAt s k).priority⟩ (busAt s (keyAt s k).bus)).2 = .grant →
    l = [.keyChange k (keyAt s k).bus .claiming (keyAt s k).latched .press] ∧
      u = issueGrant (keyAt s k).bus (setBusRec (keyAt s k).bus
        (decideClaim ⟨⟨s.start.id, k⟩, (keyAt s k).priority⟩ (busAt s (keyAt s k).bus)).1
        (setKeyRec k { keyAt s k with state := .claiming, press := some ⟨0, (keyAt s k).tapMs⟩ } s))
  refuses : ∀ why, s.isOrigin = true → s.loop.conflict = none →
    (decideClaim ⟨⟨s.start.id, k⟩, (keyAt s k).priority⟩ (busAt s (keyAt s k).bus)).2 = .refuse why →
    l = [.keyChange k (keyAt s k).bus .claiming (keyAt s k).latched .press,
        .keyChange k (keyAt s k).bus .refused false (match why with
          | .lower => .lower
          | .full => .full)] ∧
      u = setKeyRec k { keyAt s k with state := .refused, latched := false, press := none, answer := none }
        (setBusRec (keyAt s k).bus
          (decideClaim ⟨⟨s.start.id, k⟩, (keyAt s k).priority⟩ (busAt s (keyAt s k).bus)).1 s)

/-- What the press of a key leaves; `s` holds the filtered level PRESSED (R131, R133, R145). A key at a node
that is not ORIGIN sends its claim or release to the origin; at an ORIGIN its key record moves and the origin
decides. -/
structure PressLeaves (k : KeyName) (s : State) (l : List Notice) (u : State) : Prop where
  passed : (keyAt s k).enabled = false ∨ (keyAt s k).state = .refused ∨ (keyAt s k).state = .dropped ∨
    (keyActive (keyAt s k).state = true ∧ (keyAt s k).latched = false) → l = [] ∧ u = s
  noOrigin : (keyAt s k).enabled = true → (keyAt s k).state = .idle → s.isOrigin = false →
    s.loop.following = false ∨ writesCells (loopMode s) = false →
    l = [.keyChange k (keyAt s k).bus .dropped false .noOrigin] ∧
      u = setKeyRec k { keyAt s k with state := .dropped, latched := false, press := none, answer := none } s
  claims : (keyAt s k).enabled = true → (keyAt s k).state = .idle →
    s.isOrigin = true ∨ (s.loop.following = true ∧ writesCells (loopMode s) = true) → ClaimLeaves k s l u
  unlatches : (keyAt s k).enabled = true → keyActive (keyAt s k).state = true → (keyAt s k).latched = true →
    l = [.keyChange k (keyAt s k).bus .idle false .lift] ∧ ReleaseLeaves k (keyAt s k).bus
      { keyAt s k with state := .idle, latched := false, press := none, answer := none } s u

/-- What the lift of a key leaves; `s` holds the filtered level LIFTED (R132, R133, R145). -/
structure LiftLeaves (k : KeyName) (s : State) (l : List Notice) (u : State) : Prop where
  passed : (keyAt s k).enabled = false ∨ (keyAt s k).state = .idle ∨
    (keyActive (keyAt s k).state = true ∧ (keyAt s k).latched = true) → l = [] ∧ u = s
  latch : (keyAt s k).enabled = true → keyActive (keyAt s k).state = true → (keyAt s k).latched = false →
    (keyAt s k).mode = .latch ∨ ((keyAt s k).mode = .auto ∧
      ∃ x, (keyAt s k).press = some x ∧ x.since < x.tapMs * 96) →
    l = [.keyChange k (keyAt s k).bus (keyAt s k).state true .latch] ∧
      u = setKeyRec k { keyAt s k with latched := true, press := none } s
  lifts : (keyAt s k).enabled = true → keyActive (keyAt s k).state = true → (keyAt s k).latched = false →
    (keyAt s k).mode = .momentary ∨ ((keyAt s k).mode = .auto ∧
      ∀ x, (keyAt s k).press = some x → x.tapMs * 96 ≤ x.since) →
    l = [.keyChange k (keyAt s k).bus .idle false .lift] ∧ ReleaseLeaves k (keyAt s k).bus
      { keyAt s k with state := .idle, latched := false, press := none, answer := none } s u
  rests : (keyAt s k).enabled = true → (keyAt s k).state = .refused ∨ (keyAt s k).state = .dropped →
    l = [.keyChange k (keyAt s k).bus .idle false .lift] ∧
      u = setKeyRec k { keyAt s k with state := .idle, latched := false, press := none, answer := none } s

/-- A change of the filtered level of a key, with its press or lift event (R130). -/
def FilterLeaves (k : KeyName) (pressed : Bool) (s : State) (l : List Notice) (u : State) : Prop :=
  let s1 := setKeyRec k { keyAt s k with pressed := pressed, settle := none } s
  (pressed = true → PressLeaves k s1 l u) ∧ (pressed = false → LiftLeaves k s1 l u)

end Sys2Proof.Machine
end

