-- ==== Sys2Proof/Certificates/Slice0/Obligations.lean ====
section
/-! DEFINITION. The statements about the model, for the provers. A statement about a request speaks of
`goodRequest s`, the state in which the request is judged (the silence it may have ended); `Answered` and
`Happened` say what the next state holds in every block, so that each statement carries its frame. -/

open Sys2Proof Sys2Proof.Machine

/-! ### The queue of commands -/

/-- A step runs the command at the front of the queue, on the state with the rest of the queue; with no command
waiting the block idles (log entry 2, the model's choice). -/
def Obligations.StepTakesFront : Prop :=
  (∀ (c : Instr) (l : List Instr) (s : State), s.pending = c :: l → step s = exec c { s with pending := l }) ∧
  (∀ s : State, s.pending = [] → step s = .next s)

/-- Every command answers a next state in every state, with the waiting commands as they stood. That an event which
cannot occur, or which comes while a reset is held, leaves the state as it is rather than stopping is the model's
choice (log entry 5). -/
def Obligations.EveryCommandCompletes : Prop :=
  ∀ (c : Instr) (s : State), ∃ t, exec c s = .next t ∧ t.pending = s.pending

/-! ### Resets (Section 10) -/

/-- The values the spec gives for a POWER reset, block by block: the ports (R20), the loop record and what the Loop
Engine keeps (R43, R44, R55, R60), queue, snapshot sender and switch list (R14 to R18), slots (R74 to R76, R90),
lanes and taps (R96, R97, R121), gain (R110, R111, R119), keys, views and bus records (R128, R135, R140),
outputs (R146, R159), lock and supervision (R162, R168), rate and loop name (R175), Control Port (R181 to R185).
That the preamp record queue is empty while the reset is held is log entry 1, and that the preamp lane carries
no record is log entry 25, the model's choices. -/
def Obligations.ResetValues : Prop :=
  (∀ p, (State.reset.port p).state = .dark ∧ (State.reset.port p).flags = ⟨false, false, false⟩ ∧
    (State.reset.port p).light = -400 ∧ (State.reset.port p).partner = none ∧
    (State.reset.port p).linkDelay = none ∧ (State.reset.port p).counters = ⟨0, 0, 0, 0, 0, 0⟩ ∧
    (State.reset.port p).loss = -280 ∧ (State.reset.port p).marginalAt = -240 ∧
    (State.reset.port p).hyst = 10 ∧ (State.reset.port p).settleMs = 200 ∧
    (State.reset.port p).alignRun = 0 ∧ (State.reset.port p).agreeRun = 0 ∧
    (State.reset.port p).clearRun = 0 ∧ (State.reset.port p).winFrames = 0 ∧
    (State.reset.port p).winBad = 0 ∧ (State.reset.port p).settle = none ∧
    (State.reset.port p).offerT = none ∧ (State.reset.port p).relock = none ∧
    (State.reset.port p).drillT = none ∧ (State.reset.port p).drill = none ∧
    (State.reset.port p).txOn = false) ∧
  (State.reset.loop.role = .follower ∧ State.reset.loop.group = none ∧ State.reset.loop.following = false ∧
    State.reset.loop.epoch = 0 ∧ State.reset.loop.count = 0 ∧ State.reset.loop.wrapA = .none ∧
    State.reset.loop.wrapB = .none ∧ State.reset.loop.timeout = 0 ∧ State.reset.loop.takeover = none ∧
    State.reset.loop.circuit = none ∧ State.reset.loop.conflict = none ∧ State.reset.loop.formerOwn = none ∧
    State.reset.loop.policy = .auto ∧ State.reset.loop.healDelay = 20 ∧
    State.reset.loop.takeoverMs = 100 ∧ State.reset.loop.preempt = false ∧
    State.reset.loop.links = List.replicate 16 none ∧ State.reset.loop.plan = none ∧
    State.reset.loop.copy.serial = none ∧
    (∀ e ∈ State.reset.loop.copy.entries, e.id = State.reset.start.id ∧ e.pos = none) ∧
    State.reset.loop.lastActed = List.replicate 8 none ∧ State.reset.loop.restart = .idle) ∧
  (State.reset.queue.items = [] ∧ State.reset.queue.outstanding = none ∧ State.reset.queue.lead = 240 ∧
    State.reset.snap.run = none ∧ State.reset.snap.pendAllot = false ∧ State.reset.snap.pendGain = false ∧
    State.reset.switches = []) ∧
  (State.reset.slots.table =
      List.replicate 252 ⟨.free, none, none, none⟩ ++ List.replicate 4 ⟨.talk, none, none, none⟩ ∧
    State.reset.slots.inFlight = List.replicate 256 none ∧
    State.reset.slots.unsettled = List.replicate 256 false ∧ State.reset.slots.issued = 0 ∧
    State.reset.slots.applied = 0 ∧ State.reset.slots.answers = List.replicate 8 none ∧
    State.reset.slots.requests = List.replicate 8 none ∧ State.reset.slots.current = false ∧
    State.reset.slots.lastApplied = none ∧ State.reset.slots.collection = none ∧
    State.reset.slots.retry = none) ∧
  (State.reset.lanes.taps.length = 64 ∧ (∀ t ∈ State.reset.lanes.taps, t.source = .unused ∧
      t.tracking = false ∧ t.refGain = 0 ∧ t.trim = 0 ∧ t.unknown = false ∧ t.limit = false ∧
      t.listen = ⟨false, false, false, false⟩ ∧ t.dim = false ∧ t.dimDepth = -20 ∧ t.safe = .mute ∧
      t.resume = .auto ∧ t.fade = 20 ∧ t.panicFollow = true ∧ t.held = 0) ∧
    State.reset.lanes.heldTalk = List.replicate 4 0 ∧ State.reset.lanes.cache = List.replicate 256 none ∧
    State.reset.lanes.out = none) ∧
  (State.reset.gain.muteMs = 300 ∧ State.reset.gain.answers = List.replicate 8 none ∧
    State.reset.gain.lane = none ∧ State.reset.gain.records = [] ∧
    ∀ e ∈ State.reset.gain.table, e.applied = ⟨0, false, false, none⟩ ∧ e.serial = 0 ∧ e.issued = 0 ∧
      e.inFlight = none ∧ e.mute = none) ∧
  (State.reset.talk.keys.length = 12 ∧ (∀ k ∈ State.reset.talk.keys, k.enabled = false ∧ k.bus = .tb1 ∧
      k.source = 0 ∧ k.priority = 0 ∧ k.mode = .auto ∧ k.settleMs = 10 ∧ k.tapMs = 400 ∧ k.state = .idle ∧
      k.latched = false ∧ k.press = none ∧ k.answer = none ∧ k.releaseOwed = false ∧ k.settle = none) ∧
    State.reset.talk.views = List.replicate 4 ⟨none, none⟩ ∧
    State.reset.talk.records = List.replicate 4 ⟨none, [], 0, none, false⟩) ∧
  (State.reset.safety.outs.length = 64 ∧ (∀ r ∈ State.reset.safety.outs, r.state = .unused ∧
      r.causes = ⟨false, false, false, false⟩ ∧ r.pos = 0 ∧ r.fallback = 0 ∧ r.hold = none ∧
      r.stage = .none) ∧
    State.reset.safety.holdMs = 100 ∧ State.reset.safety.filterMs = 2) ∧
  (State.reset.lock.level = 0 ∧ State.reset.lock.noteOwed = false ∧ State.reset.lock.loopLevel = none ∧
    State.reset.lock.view = (List.replicate 8 none).set State.reset.start.id.val (some 0) ∧
    State.reset.supervision.periodMs = 0 ∧ State.reset.supervision.timer = none ∧
    State.reset.supervision.silent = false ∧ State.reset.supervision.since = none ∧
    State.reset.supervision.span = 0) ∧
  (State.reset.start.rate = .k48 ∧ State.reset.start.loopName = 0 ∧ attn State.reset = true) ∧
  (State.reset.ctl.inbox = [] ∧ State.reset.ctl.overflow = none ∧
    State.reset.ctl.ops = List.replicate 8 none ∧ State.reset.ctl.ended = [] ∧
    State.reset.ctl.notices = [] ∧ State.reset.ctl.lost = false ∧ State.reset.pending = [])

/-- POWER_RESET and PIN_RESET put every block at its value after the reset at once; ATTN is high, and the
levels of the key and PANIC inputs stand. The identity that stands while the reset is held (node id 0, STAGE, MEMBER,
with the gain table and the empty preamp queue that go with it) is the model's choice (log entry 1). -/
def Obligations.ResetsClear : Prop :=
  ∀ s : State, (∀ c, c = Instr.powerReset ∨ c = Instr.pinReset → ∃ t, exec c s = .next t ∧ ResetClear t ∧
    t.inReset = true ∧ attn t = true ∧
    t.start.powerHeld = (s.start.powerHeld || c == Instr.powerReset) ∧
    t.start.pinHeld = (s.start.pinHeld || c == Instr.pinReset) ∧
    t.talk.keys.map (·.raw) = s.talk.keys.map (·.raw) ∧ t.safety.panicRaw = s.safety.panicRaw ∧
    t.pending = s.pending)

/-- While a POWER or PIN reset is held, the block takes nothing (R171): of the other commands none has an
effect, FRAME_PERIOD shows the level of HOLDN, and the inputs show their raw levels (log entry 5, the model's
choice). -/
def Obligations.HeldResetTakesNothing : Prop :=
  ∀ s : State, s.inReset = true →
    (∀ c, actsInReset c = false → exec c s = .next s) ∧
    (∀ inp, exec (.framePeriod inp) s = .next { s with start := { s.start with holdn := inp.holdn } }) ∧
    (∀ i high, exec (.keyInputChange i high) s =
      .next (modifyKey (keyOfInput i) (fun r => { r with raw := high }) s)) ∧
    (∀ high, exec (.panicInputChange high) s = .next { s with safety := { s.safety with panicRaw := high } })

/-- POWER_RESET_RELEASE and PIN_RESET_RELEASE (R171, R172, R173, R176): the release of the last reset held
starts the node; a release beside another reset held ends its own reset only. Where two POWER resets end in one held
PIN reset, one from below the lower level makes the cause POWER_ON (log entry 73, the model's choice). -/
def Obligations.ReleasesStart : Prop :=
  ∀ (p : Straps) (s : State), ResetClear s →
    (∀ below, s.start.powerHeld = true → s.start.pinHeld = false →
      ∃ t, exec (.powerResetRelease below p) s = .next t ∧
        Released p (if s.start.below || below then .powerOn else .supplyLow) s t) ∧
    (s.start.powerHeld = false → s.start.pinHeld = true →
      ∃ t, exec (.pinResetRelease p) s = .next t ∧
        Released p (if s.start.fell then if s.start.below then .powerOn else .supplyLow else .pin) s t) ∧
    (∀ below, s.start.powerHeld = true → s.start.pinHeld = true →
      exec (.powerResetRelease below p) s = .next { s with start := { s.start with
        powerHeld := false, fell := true, below := s.start.below || below } }) ∧
    (s.start.powerHeld = true → s.start.pinHeld = true →
      exec (.pinResetRelease p) s = .next { s with start := { s.start with pinHeld := false } })

/-- RESET_PART (R164, R171): at lock level 3 it is refused LOCKED; below, the SOFT reset takes effect in the event
and receives no reply. The identity, the settings named here and the lock level are kept, the Control Port is
emptied, and START_REPORT, which carries the request's tag and the strap samples with HOLDN as it reads now, is
the first notice. With HOLDN low the node is HELD, its loop epoch stands and its queue is empty; with it high
the master originates under the next epoch, and any other node seeks (R176). The serials of the slots go back to
the applied one, nothing is in flight (R75); a gain change whose note was sent is applied, without a notice, and
one whose note was not is lost, beside an older one that is applied too (R118); every output is rebuilt: UNUSED, or SAFE with FORCED kept, its resume
begun where its set is empty (R146, R152). The loop record starts afresh, the former own group kept or, at an ORIGIN,
taken (R43); no link is known (R55), the map copy holds the node alone (R60), the pending switch list is empty
(R18), and the snapshot sender rests (R15). Every key stands IDLE at its raw level with its settings (R128, R130), and
no bus has a view, a decision or a stack (R135, R140, R144). The recorded loop level and the other nodes' entries of
the lock view are absent (R162, R165). No gain cache entry is known and every tracking tap is UNKNOWN, but for a master
STAGE node's own slots (R121, R124; its copy counts as current, R76). A master that starts has its own entry at
position 1 of its map (log entry 24), its LOCK_NOTE queued (R166), its allotment snapshot begun and, at a STAGE node,
its gain snapshot marked (R15, R88, R120). The port time and the silent span are kept (log entries 12 and 26), a
loop frame routed for a port is dropped (log entry 74), an output keeps the fallback input of its tap (log entry
39), and HOLDN is the level the last FRAME_PERIOD or release showed (log entry 13): the model's choices. -/
def Obligations.SoftReset : Prop :=
  ∀ (tag : Byte) (s : State), Taken s → Settled s →
    (3 ≤ s.lock.level → ∃ t, exec (.resetPart tag) s = .next t ∧
      Answered tag (.refused .locked) [] s (goodRequest s) t) ∧
    (s.lock.level < 3 → ∃ t, exec (.resetPart tag) s = .next t ∧ t.pending = s.pending ∧
      t.ctl.inbox = [] ∧ t.ctl.overflow = none ∧ t.ctl.ops = List.replicate 8 none ∧ t.ctl.ended = [] ∧
      t.ctl.notices.head? = some (.startReport ⟨.soft, some tag,
        s.start.straps.map fun x => { x with holdn := s.start.holdn }, false, s.start.id,
        s.start.func, s.start.role, s.start.roleInvalid, !s.start.holdn, s.start.rate, s.start.loopName,
        s.lock.level⟩) ∧
      t.start = { s.start with
        straps := s.start.straps.map fun x => { x with holdn := s.start.holdn }
        cause := .soft, strapsRead := false, softTag := some tag, held := !s.start.holdn } ∧
      (∀ p, t.port p = { PortRec.fresh (s.port p).loss (s.port p).marginalAt (s.port p).hyst
        (s.port p).settleMs true with time := (s.port p).time }) ∧
      t.lock = ⟨s.lock.level, false, none, (List.replicate 8 none).set s.start.id.val (some s.lock.level)⟩ ∧
      t.queue.lead = s.queue.lead ∧ t.queue.outstanding = none ∧ t.queue.written = none ∧ t.switches = [] ∧
      (t.loop.count = 0 ∧ t.loop.wrapA = .none ∧ t.loop.wrapB = .none ∧ t.loop.timeout = 0 ∧
        t.loop.takeover = none ∧ t.loop.circuit = none ∧ t.loop.conflict = none ∧ t.loop.visits = [] ∧
        t.loop.plan = none ∧ t.loop.restart = .idle ∧ t.loop.lastActed = List.replicate 8 none ∧
        t.loop.links = List.replicate 16 none ∧
        t.loop.formerOwn = (if s.loop.role = .origin then
          (match s.loop.group with
            | some g => some (g.rank, g.epoch)
            | none => s.loop.formerOwn)
          else s.loop.formerOwn)) ∧
      (∀ (i : Nat) (k : KeyRec), s.talk.keys[i]? = some k → t.talk.keys[i]? = some { k with
        state := .idle, latched := false, press := none, answer := none, releaseOwed := false, settle := none
        raw := k.raw && decide (i < 8), pressed := k.raw && decide (i < 8) }) ∧
      t.talk.views = List.replicate 4 ⟨none, none⟩ ∧
      t.talk.records = List.replicate 4 ⟨none, [], 0, none, false⟩ ∧ t.lanes.heldTalk = List.replicate 4 0 ∧
      (∀ (n : Nat) (x : CacheEntry), t.lanes.cache[n]? = some x → ∀ v, x = some v ↔
        s.start.role = .master ∧ s.start.func = .stage ∧ (entryAt t n).state = .assigned ∧
          (entryAt t n).writer = some s.start.id ∧ ∃ inp g, (entryAt t n).input = some inp ∧
            t.gain.table[inp]? = some g ∧ v = (g.applied, g.serial)) ∧
      (∀ (i : Nat) (x : Tap), s.lanes.taps[i]? = some x →
        x.tracking = false ∨ s.start.role ≠ .master ∨ s.start.func ≠ .stage →
        t.lanes.taps[i]? = some { x with
          unknown := x.unknown || x.tracking, valid := sourceValid t x.source }) ∧
      t.loop.policy = s.loop.policy ∧ t.loop.healDelay = s.loop.healDelay ∧
      t.loop.takeoverMs = s.loop.takeoverMs ∧ t.loop.preempt = s.loop.preempt ∧
      t.safety.holdMs = s.safety.holdMs ∧ t.safety.filterMs = s.safety.filterMs ∧
      t.supervision = { s.supervision with
        silent := false
        since := none
        timer := if s.supervision.periodMs = 0 then none else some (s.supervision.periodMs * 96) } ∧
      (s.start.holdn = false → loopMode t = .held ∧ t.loop.role = .follower ∧ t.loop.following = false ∧
        t.loop.group = none ∧ t.loop.epoch = s.loop.epoch) ∧
      (s.start.holdn = false ∨ s.start.role ≠ .master → t.queue.items = [] ∧ t.snap = ⟨none, false, false⟩ ∧
        t.loop.copy = ⟨none, [⟨s.start.id, some s.start.func, some s.start.role, none, none⟩]⟩) ∧
      (s.start.holdn = true → s.start.role = .master → loopMode t = .isolated ∧ t.loop.role = .origin ∧
        t.loop.following = true ∧ t.loop.epoch = s.loop.epoch + 1 ∧
        t.loop.group = some ⟨s.start.id, .master, s.loop.epoch + 1⟩ ∧
        t.queue.items.map (·.body) = [.lockNote s.lock.level] ∧
        t.snap = ⟨some ⟨.allot, 0, 0, 0, none, none⟩, false, s.start.func == .stage⟩ ∧
        t.loop.copy =
          ⟨some 0, [⟨s.start.id, some s.start.func, some s.start.role, some 1, some .forward⟩]⟩) ∧
      (s.start.holdn = true → s.start.role ≠ .master → loopMode t = .seeking ∧ t.loop.role = .follower ∧
        t.loop.following = false ∧ t.loop.group = none ∧ t.loop.epoch = s.loop.epoch) ∧
      (∀ (n : Nat) (e : SlotEntry), s.slots.table[n]? = some e →
        t.slots.table[n]? = some (if e.state = .talk then { e with writer := none } else e)) ∧
      t.slots.applied = s.slots.applied ∧ t.slots.issued = s.slots.applied ∧
      (∀ x ∈ t.slots.inFlight, x = none) ∧ t.slots.unsettled = s.slots.unsettled ∧
      t.slots.answers = List.replicate 8 none ∧ t.slots.requests = List.replicate 8 none ∧
      t.slots.current = false ∧ t.slots.lastApplied = none ∧ t.slots.collection = none ∧
      (let sent (i : Nat) (g : GainSetting) (n : GainSerial) : Prop :=
        (∃ x ∈ s.switches, x.sender = s.start.id ∧ x.item = .msg (.gainNote i g n)) ∨
          ∃ q ∈ s.queue.items, 0 < q.sends ∧ q.body = .gainNote i g n
       (∀ (i : Nat) (e : GainEntry), s.gain.table[i]? = some e →
         ((∀ g n, sent i g n → newer8 n e.serial = false) → e.inFlight = none → t.gain.table[i]? = some e) ∧
         ((∀ g n, sent i g n → newer8 n e.serial = false) → e.inFlight ≠ none → t.gain.table[i]? = some
           { e with inFlight := none, issued := e.issued + 1, serial := e.issued + 1 }) ∧
         (∀ g n, sent i g n → newer8 n e.serial = true →
           (∀ g' n', sent i g' n' →
             (g' = g ∧ n' = n) ∨ (newer8 n' e.serial = false ∧ newer8 n' n = false)) →
           let now := { e with
             applied := g, serial := n, inFlight := none
             mute := if e.applied.phantom ≠ g.phantom ∧ s.gain.muteMs ≠ 0 then some (s.gain.muteMs * 96)
               else e.mute }
           (e.inFlight = none ∨ e.inFlight = some ⟨g, n⟩ → t.gain.table[i]? = some now) ∧
           (∀ f, e.inFlight = some f → f.serial ≠ n → t.gain.table[i]? = some
             { now with issued := e.issued + 1, serial := e.issued + 1 }))) ∧
       (∀ x ∈ t.ctl.notices, ∀ i g n c, x ≠ .gainChange i g n c)) ∧
      t.gain.answers = List.replicate 8 none ∧ t.gain.records = recordsOf t.gain.table ∧
      ∀ (n : Nat) (r : OutRec), s.safety.outs[n]? = some r →
        let x := tapAt s n
        ∃ r', t.safety.outs[n]? = some r' ∧ r'.causes = ⟨s.safety.panicRaw && x.panicFollow,
            orphanMode (loopMode t), x.source != .unused && !sourceValid t x.source, r.causes.forced⟩ ∧
          r'.pos = 0 ∧ r'.fallback = 0 ∧ (∀ i, x.safe = .fallback i → r'.fbInput = i) ∧
          (x.source = .unused → r'.state = .unused ∧ r'.hold = none ∧ r'.stage = .none) ∧
          (x.source ≠ .unused →
            (causesEmpty r'.causes = false → r'.state = .safe ∧ r'.hold = none ∧ r'.stage = .none) ∧
            (causesEmpty r'.causes = true → x.resume = .manual →
              r'.state = .safe ∧ r'.hold = none ∧ r'.stage = .await) ∧
            (causesEmpty r'.causes = true → x.resume ≠ .manual → s.safety.holdMs ≠ 0 →
              r'.state = .safe ∧ r'.hold = some (s.safety.holdMs * 96) ∧ r'.stage = .hold) ∧
            (causesEmpty r'.causes = true → x.resume ≠ .manual → s.safety.holdMs = 0 →
              r'.state = (if x.fade = 0 then .live else .fadingIn) ∧ r'.hold = none ∧
                r'.stage = .none)))

/-! ### Requests of the Control Port (Section 11) -/

/-- A good request that finds 4 entries in the inbox is answered BUSY with its own tag in the overflow reply
place, and nothing is done but for the silence it ends (R181).
The state in which a request is judged (R168, R170): while HOST_SILENT is clear only the silence timer is
started anew; a silence ends, HOST_RETURN is raised, and a MANUAL output whose resume hold runs waits. -/
def Obligations.RequestsTaken : Prop :=
  (∀ (c : Instr) (tag : Byte) (s : State), requestTag c = some tag → s.inReset = false → Settled s →
     4 ≤ s.ctl.inbox.length → ∃ t, exec c s = .next t ∧
       t.ctl.overflow = some ⟨tag, .busy, s.ctl.made⟩ ∧ t.ctl.made = s.ctl.made + 1 ∧
       t.ctl.inbox = s.ctl.inbox ∧ t.pending = s.pending ∧
       SameBlocks (goodRequest s) { t with ctl := { t.ctl with overflow := s.ctl.overflow } }) ∧
  (∀ s : State,
     (s.supervision.silent = false → goodRequest s = { s with supervision := { s.supervision with
       timer := if s.supervision.periodMs = 0 then none else some (s.supervision.periodMs * 96) } }) ∧
     (s.supervision.silent = true →
       Raised [.hostReturn s.supervision.since s.supervision.span s.loop.count] s (goodRequest s) ∧
       SameBlocks { s with
         supervision := { s.supervision with
           silent := false, since := none
           timer := if s.supervision.periodMs = 0 then none else some (s.supervision.periodMs * 96) }
         safety := { s.safety with outs := s.safety.outs.zipIdx.map fun (r, i) =>
           if (tapAt s i).resume = .manual && r.state = .safe && r.hold.isSome then
             { r with hold := none, stage := .await }
           else r } } (goodRequest s)))

/-- STATUS, READ_PORT and an unknown request (R36, R94, R127, R180, R186): STATUS reports the start record, the loop
record, the ports, map copy, allotment and gain snapshot, lock, supervision, PANIC and outputs, operations and
notices as they stand once the request has ended a silence, and changes nothing; READ_PORT returns the port's
record and sets its counters to 0 (that it gives the drill's start and time left in state DRILL alone is the
model's choice, log entry 57); an unknown request is answered UNKNOWN. -/
def Obligations.ReadsAnswered : Prop :=
  ∀ (tag : Byte) (s : State), Taken s → Settled s →
    (∃ t r, exec (.status tag) s = .next t ∧
      Answered tag (.data (.status r)) [] s (goodRequest s) t ∧
      (r.cause = s.start.cause ∧ r.straps = s.start.straps ∧ r.held = s.start.held ∧ r.id = s.start.id ∧
        r.func = s.start.func ∧ r.role = s.start.role) ∧
      (r.loop = ⟨loopMode s, s.loop.role, s.loop.group, s.loop.epoch, s.loop.wrapA, s.loop.wrapB⟩ ∧
        r.following = s.loop.following ∧ r.count = s.loop.count ∧ r.timeout = s.loop.timeout ∧
        r.takeoverRunning = s.loop.takeover.isSome ∧ r.circuit = s.loop.circuit ∧
        r.conflict = s.loop.conflict ∧ r.formerOwn = s.loop.formerOwn) ∧
      r.ports = [(s.portA.state, s.portA.flags, s.usable .a), (s.portB.state, s.portB.flags, s.usable .b)] ∧
      r.mapSerial = s.loop.copy.serial ∧ (∀ n, n ∈ r.members ↔ ∃ e ∈ s.loop.copy.entries, e.id = n) ∧
      (s.start.role = .master → r.allot = .master s.slots.issued s.slots.applied
        (s.snap.run.any fun x => x.kind == .allot) s.snap.pendAllot s.slots.requests) ∧
      (s.start.role ≠ .master → r.allot = .copy s.slots.current s.slots.lastApplied
        (s.slots.collection.map fun c => (c.serial, (c.pieces.filter Option.isSome).length))) ∧
      (s.start.func = .stage → r.gainSnap =
        some (s.snap.run.any fun x => x.kind == .gain, s.snap.pendGain, s.gain.muteMs)) ∧
      (s.start.func = .desk → r.gainSnap = none) ∧
      (r.lockLevel = s.lock.level ∧ r.noteOwed = s.lock.noteOwed ∧ r.loopLevel = s.lock.loopLevel ∧
        r.lockView = s.lock.view) ∧
      r.supervision = (goodRequest s).supervision ∧
      (r.panicOn = s.safety.panicOn ∧ r.panicRaw = s.safety.panicRaw ∧ r.filterMs = s.safety.filterMs ∧
        r.holdMs = s.safety.holdMs) ∧
      (∀ (n : Nat) (st : OutState), (n ∈ match st with
          | .unused => r.outUnused
          | .live => r.outLive
          | .fadingOut => r.outFadingOut
          | .safe => r.outSafe
          | .fadingIn => r.outFadingIn) ↔
        ∃ o, (goodRequest s).safety.outs[n]? = some o ∧ o.state = st) ∧
      r.operations = (s.ctl.ops.filter Option.isSome).length ∧
      r.notices = (goodRequest s).ctl.notices.length ∧ r.lost = (goodRequest s).ctl.lost) ∧
    (∀ p, ∃ t, exec (.readPort tag p) s = .next t ∧
      Answered tag (.data (.port ⟨(s.port p).state, (s.port p).flags, (s.port p).light, (s.port p).partner,
          (s.port p).linkDelay, (s.port p).counters, (s.port p).loss, (s.port p).marginalAt, (s.port p).hyst,
          (s.port p).settleMs, if (s.port p).state = .drill then
            (s.port p).drill.map fun d => (d.start, (s.port p).drillT.getD 0) else none⟩)) [] s
        ((goodRequest s).setPort p { s.port p with counters := ⟨0, 0, 0, 0, 0, 0⟩ }) t) ∧
    (∀ k, ∃ t, exec (.unknownRequest tag k) s = .next t ∧ Answered tag .unknown [] s (goodRequest s) t)

/-- READ_TABLE (R187): a cursor above the highest index is refused RANGE, a table the node does not hold STATE (a
cursor above the highest index of a table it does not hold RANGE: log entry 76, the model's choice); otherwise
the reply carries the most entries from the cursor on, in order, that fit a body of 250 bytes, at most 16, and
the index after the last one, or END (none) exactly where no entry follows; where entries are present the run
holds one at least. Nothing changes. How many entries fit rests on the coding of log entries 10, 72 and 86, where 11.7
leaves it to the model.
The present entries of each table, by index in ascending order (R55, R60, R94, R108, R109, R127, R145, R161, R183,
R184): `tableEntries` lists them. The latencies of a tap by source and by the order of first visits (R10, R108). -/
def Obligations.ReadTableAnswered : Prop :=
  (∀ (tag : Byte) (tb : TableName) (cursor : Nat) (s : State), Taken s → Settled s →
    (topIndex s.start.rate tb < cursor → ∃ t, exec (.readTable tag tb cursor) s = .next t ∧
      Answered tag (.refused .range) [] s (goodRequest s) t) ∧
    (cursor ≤ topIndex s.start.rate tb →
      (tb = .gain ∧ s.start.func = .desk) ∨ (tb = .links ∧ s.start.role ≠ .master) →
      ∃ t, exec (.readTable tag tb cursor) s = .next t ∧
        Answered tag (.refused .state) [] s (goodRequest s) t) ∧
    (cursor ≤ topIndex s.start.rate tb →
      ¬ ((tb = .gain ∧ s.start.func = .desk) ∨ (tb = .links ∧ s.start.role ≠ .master)) →
      ∃ t run rest next, exec (.readTable tag tb cursor) s = .next t ∧
        Answered tag (.data (.table (run.map (·.2)) next)) [] s (goodRequest s) t ∧
        (tableEntries (goodRequest s) tb).filter (fun e => decide (cursor ≤ e.1)) = run ++ rest ∧
        run.length ≤ 16 ∧ (dataBytes (.table (run.map (·.2)) next)).length ≤ 250 ∧
        (next = none ↔ rest = []) ∧ (∀ e x, run.getLast? = some e → next = some x → x = e.1 + 1) ∧
        (∀ e l, rest = e :: l → run.length = 16 ∨
          250 < (dataBytes (.table ((run ++ [e]).map (·.2)) (if l = [] then none else some (e.1 + 1)))).length) ∧
        ((∀ b, (busAt s b).stack.length ≤ 8) →
          (∀ o ∈ s.ctl.ended, ∀ x, o.result = .pairs x → x.length ≤ 4) → rest ≠ [] → run ≠ []))) ∧
  (∀ r : Rate, topIndex r .allot = slotCount r - 1 ∧ topIndex r .taps = 63 ∧ topIndex r .gain = 63 ∧
    topIndex r .gainCache = slotCount r - 1 ∧ topIndex r .keys = 11 ∧ topIndex r .talk = 4 ∧
    topIndex r .map = 7 ∧ topIndex r .links = 15 ∧ topIndex r .operations = 15) ∧
  (∀ s : State, (∀ tb, s.ctl.ops.length = 8 → (tableEntries s tb).Pairwise fun x y => x.1 < y.1) ∧
    (∀ i e, (i, e) ∈ tableEntries s .allot ↔ i < slotCount s.start.rate ∧
      e = .allot i (entryAt s i) (if s.start.role = .master then
        some (s.slots.inFlight.getD i none, s.slots.unsettled.getD i false) else none)) ∧
    (∀ i e, (i, e) ∈ tableEntries s .taps ↔ i < 64 ∧ ∃ on, (∀ b, busHas on b = (busHas (tapAt s i).listen b &&
        heard s b)) ∧ e = .tap i (tapAt s i) (programLatency s (tapAt s i)) (talkLatencies s (tapAt s i)) on
          (outAt s i) (reportedCause (outAt s i).causes)
          ((tapAt s i).fade * if s.start.rate = .k48 then 48 else 96)) ∧
    (∀ i e, (i, e) ∈ tableEntries s .gain ↔ ∃ g, s.gain.table[i]? = some g ∧ e = .gain i g) ∧
    (∀ i e, (i, e) ∈ tableEntries s .gainCache ↔ i < slotCount s.start.rate ∧ e = .cache i (cacheAt s i)) ∧
    (∀ i e, (i, e) ∈ tableEntries s .keys ↔ ∃ k, s.talk.keys[i]? = some k ∧ e = .key i k) ∧
    (∀ i e, (i, e) ∈ tableEntries s .talk ↔ ∃ b, i = busIndex b + 1 ∧
      e = .talk b (viewAt s b) (if s.loop.role = .origin then some (busAt s b) else none)) ∧
    (∀ i e, (i, e) ∈ tableEntries s .map ↔ ∃ n : NodeId, ∃ m, i = n.val ∧
      s.loop.copy.entries.find? (fun x => decide (x.id = n)) = some m ∧ e = .map m) ∧
    (∀ i e, (i, e) ∈ tableEntries s .links ↔ ∃ x, s.loop.links[i]? = some (some x) ∧ e = .link i x) ∧
    (∀ i e, (i, e) ∈ tableEntries s .operations ↔
      (∃ o, s.ctl.ops[i]? = some (some o) ∧ e = .operation i o) ∨
        ∃ k o, s.ctl.ended[k]? = some o ∧ i = k + 8 ∧ e = .ended i o)) ∧
  (∀ (s : State) (x : Tap),
    (x.source = .unused ∨ x.source = .talkOnly → programLatency s x = .absent) ∧
    (∀ i, x.source = .loc i → programLatency s x = .frames 0) ∧
    (∀ n, x.source = .slot n → x.valid = false → programLatency s x = .absent) ∧
    (∀ n, x.source = .slot n → x.valid = true → loopMode s = .isolated → programLatency s x = .frames 0) ∧
    (∀ n, x.source = .slot n → x.valid = true → loopMode s ≠ .isolated →
      (entryAt s n).writer = some s.start.id → programLatency s x = .frames 1) ∧
    (∀ n w p q, x.source = .slot n → x.valid = true → loopMode s ≠ .isolated →
      (entryAt s n).writer = some w → w ≠ s.start.id → copyPos s w = some p → copyPos s s.start.id = some q →
      programLatency s x = .frames (if p < q then 0 else 1)) ∧
    (∀ n w, x.source = .slot n → x.valid = true → loopMode s ≠ .isolated →
      (entryAt s n).writer = some w → w ≠ s.start.id → copyPos s w = none ∨ copyPos s s.start.id = none →
      programLatency s x = .unknown) ∧
    (∀ b, (∃ y, (b, y) ∈ talkLatencies s x) ↔ busHas x.listen b = true ∧ heard s b = true) ∧
    (∀ b y w p q, (b, y) ∈ talkLatencies s x → (entryAt s (talkSlot s.start.rate b)).writer = some w →
      copyPos s w = some p → copyPos s s.start.id = some q → y = .frames (if p < q then 0 else 1)))

/-! ### Settings -/

/-- SET_RECOVERY (R44, R164): a field outside its range refuses the whole request; otherwise the fields given
are stored and the others stand. -/
def Obligations.RecoveryStored : Prop :=
  ∀ (tag : Byte) (f : RecoveryFields) (s : State), Taken s → Settled s →
    ((∃ d, f.healDelay = some d ∧ (d < 5 ∨ 300 < d)) ∨ (∃ d, f.takeover = some d ∧ (d < 10 ∨ 2000 < d)) →
      ∃ t, exec (.setRecovery tag f) s = .next t ∧
        Answered tag (.refused .range) [] s (goodRequest s) t) ∧
    ((∀ d, f.healDelay = some d → 5 ≤ d ∧ d ≤ 300) → (∀ d, f.takeover = some d → 10 ≤ d ∧ d ≤ 2000) →
      (1 ≤ s.lock.level → ∃ t, exec (.setRecovery tag f) s = .next t ∧
        Answered tag (.refused .locked) [] s (goodRequest s) t) ∧
      (s.lock.level = 0 → ∃ t, exec (.setRecovery tag f) s = .next t ∧
        Answered tag .ok [] s { goodRequest s with loop := { s.loop with
          policy := f.policy.getD s.loop.policy
          healDelay := f.healDelay.getD s.loop.healDelay
          takeoverMs := f.takeover.getD s.loop.takeoverMs
          preempt := f.preempt.getD s.loop.preempt } } t))

/-- SET_THRESHOLDS (R23, R164): the result at each named port is tested, and refused whole where one port's
does not fit; otherwise the fields given are stored in the named ports. -/
def Obligations.ThresholdsStored : Prop :=
  ∀ (tag : Byte) (sel : PortSel) (f : ThresholdFields) (s : State), Taken s → Settled s →
    let new (r : PortRec) : PortRec := { r with
      loss := f.loss.getD r.loss, marginalAt := f.marginal.getD r.marginalAt, hyst := f.hyst.getD r.hyst
      settleMs := f.settle.getD r.settleMs }
    let named (p : PortId) : Prop := sel = .both ∨ (sel = .a ∧ p = .a) ∨ (sel = .b ∧ p = .b)
    let fits (p : PortId) : Prop :=
      (∀ x, f.loss = some x → -400 ≤ x ∧ x ≤ -100) ∧ (∀ x, f.marginal = some x → -400 ≤ x ∧ x ≤ 0) ∧
      (∀ x, f.hyst = some x → 5 ≤ x ∧ x ≤ 50) ∧ (∀ x, f.settle = some x → x ≤ 2000) ∧
      (new (s.port p)).loss + (new (s.port p)).hyst ≤ (new (s.port p)).marginalAt ∧
      (new (s.port p)).loss + (new (s.port p)).hyst ≤ 30
    ((∃ p, named p ∧ ¬ fits p) → ∃ t, exec (.setThresholds tag sel f) s = .next t ∧
      Answered tag (.refused .range) [] s (goodRequest s) t) ∧
    ((∀ p, named p → fits p) → 1 ≤ s.lock.level → ∃ t, exec (.setThresholds tag sel f) s = .next t ∧
      Answered tag (.refused .locked) [] s (goodRequest s) t) ∧
    ((∀ p, named p → fits p) → s.lock.level = 0 → ∃ t u, exec (.setThresholds tag sel f) s = .next t ∧
      Answered tag .ok [] s u t ∧
      (∀ p, named p → u.port p = new (s.port p)) ∧ (∀ p, ¬ named p → u.port p = s.port p) ∧
      SameBlocks { goodRequest s with portA := u.portA, portB := u.portB } u)

/-- SET_SWITCH_LEAD (R16), SET_SAFETY (R159), SET_SUPERVISION (R168) and SET_PHANTOM_MUTE (R119): the range check,
the lock check (R164), the setting stored. A new supervision period starts the silence timer, or stops it; no
running mute changes; a DESK node refuses SET_PHANTOM_MUTE. A SET_SAFETY with neither field passes the same checks and
changes nothing (log entry 82, the model's choice). -/
def Obligations.SettingsStored : Prop :=
  (∀ (tag : Byte) (n : Nat) (s : State), Taken s → Settled s →
     (n < 48 ∨ 4800 < n → ∃ t, exec (.setSwitchLead tag n) s = .next t ∧
       Answered tag (.refused .range) [] s (goodRequest s) t) ∧
     (48 ≤ n → n ≤ 4800 → 1 ≤ s.lock.level → ∃ t, exec (.setSwitchLead tag n) s = .next t ∧
       Answered tag (.refused .locked) [] s (goodRequest s) t) ∧
     (48 ≤ n → n ≤ 4800 → s.lock.level = 0 → ∃ t, exec (.setSwitchLead tag n) s = .next t ∧
       Answered tag .ok [] s { goodRequest s with queue := { s.queue with lead := n } } t)) ∧
  (∀ (tag : Byte) (hold filter : Option Nat) (s : State), Taken s → Settled s →
     ((∃ x, hold = some x ∧ 2000 < x) ∨ (∃ x, filter = some x ∧ 20 < x) →
       ∃ t, exec (.setSafety tag hold filter) s = .next t ∧
         Answered tag (.refused .range) [] s (goodRequest s) t) ∧
     ((∀ x, hold = some x → x ≤ 2000) → (∀ x, filter = some x → x ≤ 20) →
       (1 ≤ s.lock.level → ∃ t, exec (.setSafety tag hold filter) s = .next t ∧
         Answered tag (.refused .locked) [] s (goodRequest s) t) ∧
       (s.lock.level = 0 → ∃ t, exec (.setSafety tag hold filter) s = .next t ∧
         Answered tag .ok [] s { goodRequest s with safety := { (goodRequest s).safety with
           holdMs := hold.getD s.safety.holdMs, filterMs := filter.getD s.safety.filterMs } } t))) ∧
  (∀ (tag : Byte) (ms : Nat) (s : State), Taken s → Settled s →
     ((0 < ms ∧ ms < 100) ∨ 10000 < ms → ∃ t, exec (.setSupervision tag ms) s = .next t ∧
       Answered tag (.refused .range) [] s (goodRequest s) t) ∧
     (ms = 0 ∨ (100 ≤ ms ∧ ms ≤ 10000) →
       (2 ≤ s.lock.level → ∃ t, exec (.setSupervision tag ms) s = .next t ∧
         Answered tag (.refused .locked) [] s (goodRequest s) t) ∧
       (s.lock.level < 2 → ∃ t, exec (.setSupervision tag ms) s = .next t ∧
         Answered tag .ok [] s { goodRequest s with supervision := { (goodRequest s).supervision with
           periodMs := ms, timer := if ms = 0 then none else some (ms * 96) } } t))) ∧
  (∀ (tag : Byte) (ms : Nat) (s : State), Taken s → Settled s →
     (2000 < ms → ∃ t, exec (.setPhantomMute tag ms) s = .next t ∧
       Answered tag (.refused .range) [] s (goodRequest s) t) ∧
     (ms ≤ 2000 → 1 ≤ s.lock.level → ∃ t, exec (.setPhantomMute tag ms) s = .next t ∧
       Answered tag (.refused .locked) [] s (goodRequest s) t) ∧
     (ms ≤ 2000 → s.lock.level = 0 → s.start.func = .desk → ∃ t, exec (.setPhantomMute tag ms) s = .next t ∧
       Answered tag (.refused .state) [] s (goodRequest s) t) ∧
     (ms ≤ 2000 → s.lock.level = 0 → s.start.func = .stage → ∃ t, exec (.setPhantomMute tag ms) s = .next t ∧
       Answered tag .ok [] s { goodRequest s with gain := { s.gain with muteMs := ms } } t))

/-! ### Held-only requests, GO (Section 10) -/

/-- The order of checks of SET_NODE, SET_RATE and SET_LOOP_NAME (R175): a node id above 7 is RANGE, a node
that is not HELD answers HELD_ONLY, lock level 1 and above LOCKED; nothing changes.
SET_LOOP_NAME, and a SET_RATE that gives the present rate, at a HELD node that is OPEN (R175). -/
def Obligations.HeldOnlyRequests : Prop :=
  (∀ (tag : Byte) (c : Instr) (s : State), Taken s → Settled s →
     ((∃ id f r, c = .setNode tag (some id) f r ∧ 8 ≤ id) ∨ (∃ n, c = .setLoopName tag n ∧ 65536 ≤ n) →
       ∃ t, exec c s = .next t ∧ Answered tag (.refused .range) [] s (goodRequest s) t) ∧
     ((∃ id f r, c = .setNode tag id f r ∧ ∀ n, id = some n → n < 8) ∨ (∃ r, c = .setRate tag r) ∨
         (∃ n, c = .setLoopName tag n ∧ n < 65536) →
       (s.start.held = false → ∃ t, exec c s = .next t ∧
         Answered tag (.refused .heldOnly) [] s (goodRequest s) t) ∧
       (s.start.held = true → 1 ≤ s.lock.level → ∃ t, exec c s = .next t ∧
         Answered tag (.refused .locked) [] s (goodRequest s) t))) ∧
  (∀ (tag : Byte) (s : State), Taken s → Settled s → s.start.held = true → s.lock.level = 0 →
     (∀ n, n < 65536 → ∃ t, exec (.setLoopName tag n) s = .next t ∧
       Answered tag .ok [] s { goodRequest s with start := { s.start with loopName := BitVec.ofNat 16 n } } t) ∧
     (∃ t, exec (.setRate tag s.start.rate) s = .next t ∧ Answered tag .ok [] s (goodRequest s) t))

/-- SET_RATE to the other rate (R1, R74, R99, R175): the slot table is fresh, every cache entry unknown, a tap
that hears a slot at or above the new first talk slot goes to UNUSED with tracking off, and its output to UNUSED
(R155); every other tap keeps its settings, its source judged anew, and its output's positions are rescaled to the new
fade length (R150). The changes in flight and the unsettled marks are cleared with the table, and the serials, answer
records and request serials stand (log entry 55); a loop frame routed for a port is dropped, and the change is made in
the request's event (log entry 14): the model's choices. OUTPUT_CHANGE is raised for the outputs changed (R160), and
the blocks named last stand. -/
def Obligations.RateChanged : Prop :=
  ∀ (tag : Byte) (r : Rate) (s : State), Taken s → Settled s → s.start.held = true → s.lock.level = 0 →
    r ≠ s.start.rate → ∃ t, exec (.setRate tag r) s = .next t ∧ Replied tag .ok s t ∧
      t.start = { s.start with rate := r } ∧
      t.slots.table = List.replicate (slotCount r - 4) ⟨.free, none, none, none⟩ ++
        List.replicate 4 ⟨.talk, none, none, none⟩ ∧
      t.slots = { s.slots with
        table := t.slots.table
        inFlight := List.replicate (slotCount r) none
        unsettled := List.replicate (slotCount r) false } ∧
      t.lanes.cache = List.replicate (slotCount r) none ∧
      t.lanes = { s.lanes with taps := t.lanes.taps, cache := t.lanes.cache } ∧
      (∀ (i : Nat) (x : Tap), s.lanes.taps[i]? = some x →
        ((∃ n, x.source = .slot n ∧ slotCount r - 4 ≤ n) → t.lanes.taps[i]? = some { x with
          source := .unused, tracking := false, unknown := false, limit := false, held := 0, valid := false }) ∧
        ((∀ n, x.source = .slot n → n < slotCount r - 4) → t.lanes.taps[i]? = some { x with
          unknown := x.unknown || x.tracking, valid := sourceValid t x.source })) ∧
      (∀ (i : Nat) (o : OutRec), (goodRequest s).safety.outs[i]? = some o →
        let x := tapAt s i
        let old := x.fade * (if s.start.rate = .k48 then 48 else 96)
        let new := x.fade * (if r = .k48 then 48 else 96)
        ((∃ n, x.source = .slot n ∧ slotCount r - 4 ≤ n) → t.safety.outs[i]? = some { o with
          state := .unused, pos := 0, fallback := 0, hold := none, stage := .none
          causes := { o.causes with sourceLost := false } }) ∧
        ((∀ n, x.source = .slot n → n < slotCount r - 4) → x.fade = 0 → t.safety.outs[i]? = some o) ∧
        ((∀ n, x.source = .slot n → n < slotCount r - 4) → x.fade ≠ 0 → t.safety.outs[i]? = some { o with
          pos := match o.state with
            | .fadingOut | .fadingIn => o.pos * new / old
            | .live => new
            | .safe | .unused => 0
          fallback := o.fallback * new / old })) ∧
      t.safety = { s.safety with outs := t.safety.outs } ∧ t.safety.outs.length = s.safety.outs.length ∧
      Raised (outputNotices s.safety.outs t.safety.outs) (goodRequest s) t ∧
      t.portA = { s.portA with routed := none } ∧ t.portB = { s.portB with routed := none } ∧
      t.loop = s.loop ∧ t.queue = s.queue ∧ t.snap = s.snap ∧ t.switches = s.switches ∧ t.gain = s.gain ∧
      t.talk = s.talk ∧ t.lock = s.lock ∧ t.supervision = (goodRequest s).supervision ∧
      t.ctl.ops = s.ctl.ops ∧ t.ctl.ended = s.ctl.ended ∧ t.ctl.overflow = s.ctl.overflow ∧ t.pending = s.pending

/-- SET_NODE at a HELD node that is OPEN (R110, R111, R175): the fields given replace the values in force; a new
role gives the Slot Router, the link table and the plan record their values after a reset; a new function gives
the gain table its values and the preamp records; a new id clears the last-acted numbers and reduces the map
copy, and the lock view's own entry moves to it (R167). A new role makes every entry of the gain cache unknown
(R121, R124); a new function leaves known there the entries of a STAGE node's own slots alone, of a current
copy. -/
def Obligations.NodeChanged : Prop :=
  ∀ (tag : Byte) (id : Option NodeId) (f : Option Func) (r : Option Role) (s : State), Taken s → Settled s →
    s.start.held = true → s.lock.level = 0 →
    ∃ t, exec (.setNode tag (id.map (·.val)) f r) s = .next t ∧ Replied tag .ok s t ∧
      t.start.id = id.getD s.start.id ∧ t.start.func = f.getD s.start.func ∧
      t.start.role = r.getD s.start.role ∧ t.start.held = true ∧ t.start.rate = s.start.rate ∧
      t.start.loopName = s.start.loopName ∧
      (r.getD s.start.role ≠ s.start.role →
        t.slots = { SlotRec.power s.start.rate with retry := t.slots.retry } ∧
        (s.loop.following = false → t.slots.retry = none) ∧ t.loop.links = List.replicate 16 none ∧
        t.loop.plan = none ∧ (∀ e ∈ t.lanes.cache, e = none) ∧
        ∀ x ∈ t.lanes.taps, x.tracking = true → x.unknown = true) ∧
      (r.getD s.start.role = s.start.role → t.slots.table = s.slots.table ∧ t.loop.links = s.loop.links) ∧
      (f.getD s.start.func ≠ s.start.func → t.gain.table = gainTableOf (f.getD s.start.func) ∧
        t.gain.records = recordsOf (gainTableOf (f.getD s.start.func))) ∧
      (f.getD s.start.func = s.start.func → t.gain = s.gain) ∧
      (f.getD s.start.func ≠ s.start.func → r.getD s.start.role = s.start.role → id.getD s.start.id = s.start.id →
        ∀ n, n < s.lanes.cache.length →
          let own (i : Nat) : Prop := f.getD s.start.func = .stage ∧
            (s.start.role = .master ∨ s.slots.current = true) ∧
            ∃ e, s.slots.table[n]? = some e ∧ e.state = .assigned ∧ e.writer = some s.start.id ∧ e.input = some i
          (∀ i, i < 64 → own i → cacheAt t n = some (⟨0, false, false, none⟩, 0)) ∧
          ((∀ i, i < 64 → ¬ own i) → cacheAt t n = none)) ∧
      (f.getD s.start.func = s.start.func → r.getD s.start.role = s.start.role →
        id.getD s.start.id = s.start.id → t.lanes.cache = s.lanes.cache) ∧
      (id.getD s.start.id ≠ s.start.id → t.loop.lastActed = List.replicate 8 none ∧
        t.loop.copy = .alone (id.getD s.start.id) (f.getD s.start.func) (r.getD s.start.role) ∧
        (s.lock.view.length = 8 → ∀ n : NodeId, t.lock.view.getD n.val none =
          if n = id.getD s.start.id then some s.lock.level
          else if n = s.start.id then none else s.lock.view.getD n.val none)) ∧
      (id.getD s.start.id = s.start.id → t.loop.lastActed = s.loop.lastActed ∧ t.lock.view = s.lock.view) ∧
      t.lock.level = s.lock.level ∧ t.queue = s.queue ∧ t.snap = s.snap ∧ t.switches = s.switches ∧
      t.talk = s.talk ∧ t.ctl.ops = s.ctl.ops ∧ t.pending = s.pending

/-- The checks of a GO (R177, R183): a full table is BUSY, a tag in use STATE, a node that is not HELD STATE.
GO at a HELD node (R176, R177): it is answered STARTED and leaves HELD. A node configured MASTER originates
in the epoch after its last, and the operation ends at once; another node keeps its loop record, and the
operation runs for at most 5 s. -/
def Obligations.GoStarts : Prop :=
  (∀ (tag : Byte) (s : State), Taken s → Settled s →
     (8 ≤ opCount s → ∃ t, exec (.go tag) s = .next t ∧ Answered tag .busy [] s (goodRequest s) t) ∧
     (opCount s < 8 → (findOp tag s).isSome = true ∨ s.start.held = false →
       ∃ t, exec (.go tag) s = .next t ∧ Answered tag (.refused .state) [] s (goodRequest s) t)) ∧
  (∀ (tag : Byte) (s : State), Taken s → Settled s → WithinRoom s → opCount s < 8 → findOp tag s = none →
     s.start.held = true → s.loop.conflict = none →
     ∃ t, exec (.go tag) s = .next t ∧ Replied tag .started s t ∧
       t.start = { s.start with held := false } ∧ t.lock.level = s.lock.level ∧ t.pending = s.pending ∧
       (s.start.role = .master → t.loop.role = .origin ∧ t.loop.following = true ∧
         t.loop.group = some ⟨s.start.id, .master, s.loop.epoch + 1⟩ ∧ t.loop.epoch = s.loop.epoch + 1 ∧
         ((∀ o, some o ∈ s.ctl.ops → o.kind ≠ .go) →
           t.ctl.ended.head? = some ⟨tag, .go, .ok, .go .origin⟩ ∧ findOp tag t = none)) ∧
       (s.start.role ≠ .master → t.loop.role = s.loop.role ∧ t.loop.group = s.loop.group ∧
         t.loop.epoch = s.loop.epoch ∧
         findOp tag t = some ⟨tag, .go, .running, none, some (5000 * 96), none⟩))

/-! ### Lock (Section 9) -/

/-- SET_LOCK (R163): above the present level it is accepted, the level and the node's own view entry rise, the
LOCK_NOTE is queued and LOCK_CHANGE raised; the present level is accepted without effect; below it is refused
LOCKED; outside 0 to 3 RANGE. No command lowers the level, in any state in which no reset is held, but a POWER or PIN
reset, which makes it 0. -/
def Obligations.LockRaised : Prop :=
  (∀ (tag : Byte) (level : Nat) (s : State), Taken s → Settled s →
    (3 < level → ∃ t, exec (.setLock tag level) s = .next t ∧
      Answered tag (.refused .range) [] s (goodRequest s) t) ∧
    (level ≤ 3 → level < s.lock.level → ∃ t, exec (.setLock tag level) s = .next t ∧
      Answered tag (.refused .locked) [] s (goodRequest s) t) ∧
    (level ≤ 3 → level = s.lock.level → ∃ t, exec (.setLock tag level) s = .next t ∧
      Answered tag .ok [] s (goodRequest s) t) ∧
    (level ≤ 3 → s.lock.level < level → ∃ t u, exec (.setLock tag level) s = .next t ∧
      Answered tag .ok [.lockRaise s.lock.level level] s u t ∧
      u.lock.level = level ∧ u.lock.view = s.lock.view.set s.start.id.val (some level) ∧
      u.lock.loopLevel = s.lock.loopLevel ∧
      (hasUnsent isLockNote s = false → queueLen s < 16 → u.lock.noteOwed = s.lock.noteOwed ∧
        u.queue = { s.queue with
          items := s.queue.items ++
            [⟨s.queue.nextNum, .all, .lockNote level, 0, none, none, s.loop.group, .loc⟩]
          nextNum := s.queue.nextNum + 1 }) ∧
      (hasUnsent isLockNote s = false → 16 ≤ queueLen s → u.lock.noteOwed = true ∧ u.queue = s.queue) ∧
      (hasUnsent isLockNote s = true → u.lock.noteOwed = s.lock.noteOwed ∧ u.queue = { s.queue with
        items := replaceUnsent isLockNote (.lockNote level) s.loop.group s.queue.items }) ∧
      SameBlocks { goodRequest s with lock := u.lock, queue := u.queue } u)) ∧
  (∀ (c : Instr) (s : State), s.inReset = false → ∃ t, exec c s = .next t ∧
    (c ≠ .powerReset → c ≠ .pinReset → s.lock.level ≤ t.lock.level) ∧
    (c = .powerReset ∨ c = .pinReset → t.lock.level = 0))

/-! ### Outputs (Section 8) -/

/-- RESUME (R153): an output number outside 0 to 63, an empty list or a list of more than 64 is RANGE. A named
output in SAFE with an empty set goes to FADING_IN (LIVE with a fade length of 0) from position 0, and every
other output is left as it is; the reply carries the two sets. -/
def Obligations.ResumeOutputs : Prop :=
  ∀ (tag : Byte) (o : OutputSel) (s : State), Taken s → Settled s →
    let fits : Prop := ∀ l, o = .list l → 1 ≤ l.length ∧ l.length ≤ 64 ∧ ∀ n ∈ l, n < 64
    let named (n : Nat) : Prop := o = .all ∨ ∃ l, o = .list l ∧ n ∈ l
    let ready (r : OutRec) : Prop := r.state = .safe ∧ causesEmpty r.causes = true
    (¬ fits → ∃ t, exec (.resume tag o) s = .next t ∧
      Answered tag (.refused .range) [] s (goodRequest s) t) ∧
    (fits → ∃ t yes no outs, exec (.resume tag o) s = .next t ∧
      Answered tag (.data (.resumed yes no)) [] s
        { goodRequest s with safety := { (goodRequest s).safety with outs := outs } } t ∧
      (∀ n, n ∈ yes ↔ n < 64 ∧ named n ∧ ready (outAt (goodRequest s) n)) ∧
      (∀ n, n ∈ no ↔ n < 64 ∧ ((o = .all ∧ (outAt (goodRequest s) n).state = .safe ∧
          causesEmpty (outAt (goodRequest s) n).causes = false) ∨
        ((∃ l, o = .list l ∧ n ∈ l) ∧ ¬ ready (outAt (goodRequest s) n)))) ∧
      outs.length = s.safety.outs.length ∧
      (∀ n r, (goodRequest s).safety.outs[n]? = some r →
        (named n ∧ ready r → outs[n]? = some { r with
          state := if fadeLen s.start.rate (tapAt s n) = 0 then .live else .fadingIn
          pos := 0, hold := none, stage := .none }) ∧
        (¬ (named n ∧ ready r) → outs[n]? = some r)))

/-- FORCE_SAFE (R158): FORCED is added to or removed from the set of each named output, and the state rules act
on it; the other outputs are left as they are. -/
def Obligations.ForceSafeOutputs : Prop :=
  ∀ (tag : Byte) (o : OutputSel) (on : Bool) (s : State), Taken s → Settled s →
    let fits : Prop := ∀ l, o = .list l → 1 ≤ l.length ∧ l.length ≤ 64 ∧ ∀ n ∈ l, n < 64
    let named (n : Nat) : Prop := o = .all ∨ ∃ l, o = .list l ∧ n ∈ l
    (¬ fits → ∃ t, exec (.forceSafe tag o on) s = .next t ∧
      Answered tag (.refused .range) [] s (goodRequest s) t) ∧
    (fits → ∃ t outs, exec (.forceSafe tag o on) s = .next t ∧
      Answered tag .ok [] s { goodRequest s with safety := { (goodRequest s).safety with outs := outs } } t ∧
      outs.length = s.safety.outs.length ∧
      (∀ n r, (goodRequest s).safety.outs[n]? = some r →
        (named n → outs[n]? = some (onCauses (outCtx (goodRequest s) (tapAt s n))
          { r.causes with forced := on } r)) ∧
        (¬ named n → outs[n]? = some r)))

/-- The reported cause is the highest present, in the order PANIC, ORPHAN, SOURCE_LOST, FORCED; every
OUTPUT_CHANGE and the tap table give it, with the full set beside it (R148). -/
def Obligations.ReportedCauseHighest : Prop :=
  (∀ old new n, n ∈ outputNotices old new → ∃ l r, r ∈ new ∧
    n = .outputChange l r.state (reportedCause r.causes) r.causes r.stage) ∧
  (∀ s i, ∃ t p l b k, tapEntry s i =
    .tap i t p l b (outAt s i) (reportedCause (outAt s i).causes) k) ∧
  ∀ c : CauseSet,
    (reportedCause c = .panic ↔ c.panic = true) ∧
    (reportedCause c = .orphan ↔ c.panic = false ∧ c.orphan = true) ∧
    (reportedCause c = .sourceLost ↔ c.panic = false ∧ c.orphan = false ∧ c.sourceLost = true) ∧
    (reportedCause c = .forced ↔
      c.panic = false ∧ c.orphan = false ∧ c.sourceLost = false ∧ c.forced = true) ∧
    (reportedCause c = .none ↔
      c.panic = false ∧ c.orphan = false ∧ c.sourceLost = false ∧ c.forced = false)

/-! ### Optical ports (Section 2) -/

/-- LIGHT_MEASUREMENT (R22, R24, R33): the reading is rounded to 0.1 dB and clamped; in DRILL and in the bands that
move nothing it is stored; above the loss threshold and the hysteresis DARK goes to SEEK; below the loss
threshold every other state but DRILL goes to DARK; at an aligned port it moves the light condition, which sets
MARGINAL. A usable port reports it with a LINK_NOTE, and the master acts on its own event (R54, R55, R56). That
the fall below the loss threshold counts no marginal entry is log entry 58, that SEEK has no light condition log
entry 69: the model's choices. -/
def Obligations.LightMeasured : Prop :=
  (lightLevel none = -400 ∧
    (∀ x n : Int, -400 ≤ n → n ≤ 30 → 100 * n - 50 < x → x < 100 * n + 50 → lightLevel (some x) = n) ∧
    (∀ x : Int, 3000 ≤ x → lightLevel (some x) = 30) ∧
    (∀ x : Int, x ≤ -40000 → lightLevel (some x) = -400)) ∧
  ∀ (p : PortId) (x : Option Int) (s : State), s.inReset = false → Settled s →
    let r := s.port p
    let lv := lightLevel x
    let cond := decide (lv < r.marginalAt + if r.lightCond then r.hyst else 0)
    let lit : PortRec := { r with light := lv, lightCond := cond, lightHeld := r.lightHeld || cond }
    let marked : PortRec := { lit with
      flags := { r.flags with marginal := true }
      counters := { r.counters with marginalEntries := bump r.counters.marginalEntries } }
    (r.state = .drill ∨ (r.state = .dark ∧ lv ≤ r.loss + r.hyst) ∨ (r.state = .seek ∧ r.loss ≤ lv) →
      ∃ t, exec (.lightMeasurement p x) s = .next t ∧
        Happened [] s (s.setPort p { r with light := lv }) t) ∧
    (r.state = .dark → r.loss + r.hyst < lv → ∃ t, exec (.lightMeasurement p x) s = .next t ∧
      Happened [.portChange p .seek r.flags lv .lightRise] s
        (s.setPort p { r with light := lv, state := .seek, alignRun := 0 }) t) ∧
    (r.state ≠ .dark → r.state ≠ .drill → lv < r.loss → ∃ t, exec (.lightMeasurement p x) s = .next t ∧
      Unaligned .dark r (t.port p) ∧ (t.port p).light = lv ∧ (t.port p).counters = r.counters ∧
      PortEventFrame s t ∧
      (r.state ≠ .up → Happened [.portChange p .dark ⟨false, false, false⟩ lv .lightLoss] s
        (s.setPort p (t.port p)) t)) ∧
    (isAligned r.state = true → r.loss ≤ lv → cond = false ∨ r.flags.marginal = true →
      ∃ t, exec (.lightMeasurement p x) s = .next t ∧ Happened [] s (s.setPort p lit) t) ∧
    (isAligned r.state = true → r.loss ≤ lv → cond = true → r.flags.marginal = false →
      ∃ t, exec (.lightMeasurement p x) s = .next t ∧ PortEventFrame s t ∧
        (s.usable p = false → Happened [.portChange p r.state { r.flags with marginal := true } lv .marginalSet]
          s (s.setPort p marked) t) ∧
        (s.usable p = true → t.port p = { marked with everUsable := r.everUsable || !s.start.held } ∧
          (s.start.role ≠ .master →
            Happened [.portChange p .up { r.flags with marginal := true } lv .marginalSet] s
              (portNoted p marked s) t) ∧ SameBlocks (portReported p marked s) t))

/-- ALIGN_LOST and MARGINAL_SET (R25, R33, R35, R36, R38): a bad frame at an aligned port is counted; the 16th
consecutive one takes the port to SEEK; the one that takes the window's bad frames above 1% sets MARGINAL, which
a usable port reports with a LINK_NOTE and the master acts on (R54, R55, R56). A row acts only where it has its
consequence (log entry 4). That a 16th bad frame which also passes the window's limit counts a marginal entry,
MARGINAL_SET having no effect there, is the model's choice (log entry 59). -/
def Obligations.BadFramesCounted : Prop :=
  ∀ (p : PortId) (s : State), s.inReset = false → Settled s →
    let r := s.port p
    let past := decide ((if s.start.rate = .k48 then 48 else 96) < r.winBad + 1)
    let marked : PortRec := { r with
      arrived := r.arrived + 1
      badRun := r.badRun + 1
      winFrames := r.winFrames + 1
      winBad := r.winBad + 1
      agreeRun := if r.state = .offer then 0 else r.agreeRun
      flags := { r.flags with marginal := true }
      counters := { r.counters with
        bad := bump r.counters.bad
        marginalEntries := bump r.counters.marginalEntries } }
    (isAligned r.state = false ∨ r.badRun + 1 < 16 →
      ∃ t, exec (.alignLost p) s = .next t ∧ Happened [] s s t) ∧
    (isAligned r.state = true → 16 ≤ r.badRun + 1 → ∃ t, exec (.alignLost p) s = .next t ∧
      Unaligned .seek r (t.port p) ∧ (t.port p).light = r.light ∧
      (t.port p).counters = { r.counters with
        bad := bump r.counters.bad
        alignLosses := bump r.counters.alignLosses
        marginalEntries := if past && !r.flags.marginal then bump r.counters.marginalEntries
          else r.counters.marginalEntries } ∧
      PortEventFrame s t ∧
      (r.state ≠ .up → Happened [.portChange p .seek ⟨false, false, false⟩ r.light .alignLost] s
        (s.setPort p (t.port p)) t)) ∧
    (isAligned r.state = false ∨ r.flags.marginal = true ∨ past = false ∨ 16 ≤ r.badRun + 1 →
      ∃ t, exec (.marginalSet p) s = .next t ∧ Happened [] s s t) ∧
    (isAligned r.state = true → r.flags.marginal = false → past = true → r.badRun + 1 < 16 →
      ∃ t, exec (.marginalSet p) s = .next t ∧ PortEventFrame s t ∧
        (s.usable p = false →
          Happened [.portChange p r.state { r.flags with marginal := true } r.light .marginalSet] s
            (s.setPort p marked) t) ∧
        (s.usable p = true → t.port p = { marked with everUsable := r.everUsable || !s.start.held } ∧
          (s.start.role ≠ .master →
            Happened [.portChange p .up { r.flags with marginal := true } r.light .marginalSet] s
              (portNoted p marked s) t) ∧ SameBlocks (portReported p marked s) t))

/-- PORT_FRAME_RECEIVE (R5, R25, R28, R33, R35, R36, R38, R40): a port in DRILL ignores its receiver; a frame that
fails its check is counted in every other state, ends an alignment run in SEEK, and at an aligned port (SETTLE,
OFFER, UP, MISMATCH) fills a bad frame position, which sets MARGINAL above 1% of the window and takes the port
to SEEK at the 16th in a row (counting a marginal entry where it passes the limit too: log entry 59, the model's
choice); a good frame is counted and its stamps kept in DARK, SEEK and SETTLE (with a blank link field the
former stamps stay: log entry 42, the model's reading); the 8th consecutive good frame in SEEK aligns; an offer
from the node's own id is a conflict in any state but SETTLE and DRILL.
ALIGNED is that 8th frame with its whole effect, the conflict of an own id among it, and has none where a frame does not
align: outside SEEK, with a failed check, or before the 8th (log entry 4, the model's reading). -/
def Obligations.FramesAlign : Prop :=
  ∀ (p : PortId) (arr : Arrival) (s : State), s.inReset = false → Settled s →
    let r := s.port p
    let good : Prop := frameCheck arr.frame = arr.check
    let own : Prop := ∃ l, arr.frame.link = some l ∧ l.sender = s.start.id
    let past := decide ((if s.start.rate = .k48 then 48 else 96) < r.winBad + 1)
    let missed : PortRec := { r with
      arrived := r.arrived + 1, time := arr.now, counters := { r.counters with bad := bump r.counters.bad } }
    let bad : PortRec := { missed with
      badRun := r.badRun + 1
      winFrames := r.winFrames + 1
      winBad := r.winBad + 1
      agreeRun := if r.state = .offer then 0 else r.agreeRun }
    let marked : PortRec := { bad with
      flags := { r.flags with marginal := true }
      counters := { bad.counters with marginalEntries := bump r.counters.marginalEntries } }
    let noted : PortRec := { r with
      arrived := r.arrived + 1
      lineRate := arr.frame.header.rate
      time := arr.now
      counters := { r.counters with good := bump r.counters.good }
      lastGood := match arr.frame.link with
        | some l => some (l.offer.sendStamp, arr.now)
        | none => r.lastGood }
    (r.state = .drill → ∃ t, exec (.portFrameReceive p arr) s = .next t ∧
      Happened [] s (s.setPort p { r with time := arr.now }) t) ∧
    (r.state = .dark → ¬ good → ∃ t, exec (.portFrameReceive p arr) s = .next t ∧
      Happened [] s (s.setPort p missed) t) ∧
    (r.state = .dark → good → ¬ own → ∃ t, exec (.portFrameReceive p arr) s = .next t ∧
      Happened [] s (s.setPort p noted) t) ∧
    (r.state = .seek → ¬ good → ∃ t, exec (.portFrameReceive p arr) s = .next t ∧
      Happened [] s (s.setPort p { missed with alignRun := 0 }) t) ∧
    (r.state = .seek → good → ¬ own → r.alignRun + 1 < 8 →
      ∃ t, exec (.portFrameReceive p arr) s = .next t ∧
        Happened [] s (s.setPort p { noted with alignRun := r.alignRun + 1 }) t) ∧
    (r.state = .seek → good → ¬ own → 8 ≤ r.alignRun + 1 →
      ∀ c, c = Instr.portFrameReceive p arr ∨ c = Instr.aligned p arr → ∃ t, exec c s = .next t ∧
        Happened [.portChange p .settle r.flags r.light .aligned] s (s.setPort p { noted with
          state := .settle, alignRun := 0, badRun := 0, settle := some (r.settleMs * 96)
          winFrames := 0, winBad := 0, window := some (100 * 96), lightHeld := r.lightCond
          winWholeUp := false, delaySum := 0, delayCount := 0 }) t) ∧
    (r.state = .settle → good → ∃ t, exec (.portFrameReceive p arr) s = .next t ∧
      Happened [] s (s.setPort p { noted with badRun := 0, winFrames := r.winFrames + 1 }) t) ∧
    (isAligned r.state = true → ¬ good → r.badRun + 1 < 16 → past = false ∨ r.flags.marginal = true →
      ∃ t, exec (.portFrameReceive p arr) s = .next t ∧ Happened [] s (s.setPort p bad) t) ∧
    (isAligned r.state = true → ¬ good → r.badRun + 1 < 16 → past = true → r.flags.marginal = false →
      ∃ t, exec (.portFrameReceive p arr) s = .next t ∧ PortEventFrame s t ∧
        (s.usable p = false →
          Happened [.portChange p r.state { r.flags with marginal := true } r.light .marginalSet] s
            (s.setPort p marked) t) ∧
        (s.usable p = true → t.port p = { marked with everUsable := r.everUsable || !s.start.held } ∧
          (s.start.role ≠ .master →
            Happened [.portChange p .up { r.flags with marginal := true } r.light .marginalSet] s
              (portNoted p marked s) t) ∧ SameBlocks (portReported p marked s) t)) ∧
    (isAligned r.state = true → ¬ good → 16 ≤ r.badRun + 1 →
      ∃ t, exec (.portFrameReceive p arr) s = .next t ∧
        Unaligned .seek r (t.port p) ∧ (t.port p).light = r.light ∧ (t.port p).time = arr.now ∧
        (t.port p).counters = { r.counters with
          bad := bump r.counters.bad
          alignLosses := bump r.counters.alignLosses
          marginalEntries := if past && !r.flags.marginal then bump r.counters.marginalEntries
            else r.counters.marginalEntries } ∧
        PortEventFrame s t ∧
        (r.state ≠ .up → Happened [.portChange p .seek ⟨false, false, false⟩ r.light .alignLost] s
          (s.setPort p (t.port p)) t)) ∧
    (good → own → r.state ≠ .settle → r.state ≠ .drill → s.loop.conflict = none →
      ∃ t, exec (.portFrameReceive p arr) s = .next t ∧ t.loop.conflict = some .duplicateId ∧
        t.loop.role = .follower ∧ t.loop.following = false) ∧
    (r.state = .seek → good → own → 8 ≤ r.alignRun + 1 →
      let aligned : PortRec := { noted with
        state := .settle, alignRun := 0, badRun := 0, settle := some (r.settleMs * 96)
        winFrames := 0, winBad := 0, window := some (100 * 96), lightHeld := r.lightCond
        winWholeUp := false, delaySum := 0, delayCount := 0 }
      ∀ c, c = Instr.portFrameReceive p arr ∨ c = Instr.aligned p arr → ∃ t, exec c s = .next t ∧
        t.port p = aligned ∧
        (s.loop.conflict = none → t.loop.conflict = some .duplicateId ∧ t.loop.role = .follower ∧
          t.loop.following = false) ∧
        (s.loop.conflict ≠ none → Happened [.portChange p .settle r.flags r.light .aligned] s
          (s.setPort p aligned) t)) ∧
    (r.state ≠ .seek ∨ ¬ good ∨ r.alignRun + 1 < 8 →
      ∃ t, exec (.aligned p arr) s = .next t ∧ Happened [] s s t)

/-- JOINED (R28, R35, R36): at a port in OFFER the third agreeing offer with hear-you set from one sender takes the
port to UP with that offer as partner, and where the sender's id is the node's own, the node to CONFLICT too (R37, R67);
short of that, a failed check, a blank link field and a disagreeing offer among it, the row has no effect (log entry 4).
REMOTE_FAULT_SET (R31, R37): the 48th good frame with hear-you clear at a port that is UP without FIXED sets
REMOTE_FAULT and leaves the port UP: a standby frame, or any frame beside a usable port, where the port's wrap
becomes LOSS (R52). The row has no effect (log entry 4) where the check fails, the port is not UP or is UP with FIXED,
REMOTE_FAULT is set, the run stays below 48, or the frame's offer has hear-you set, disagrees or is another sender's.
PORT_FRAME_RECEIVE of a good frame at a port in OFFER, UP or MISMATCH (R28 to R32, R35): the run of agreeing offers,
the end of a FIXED join and the partner change, which take the port to OFFER with a fresh offer timer, the
disagreeing offer, which takes it to MISMATCH, REMOTE_FAULT cleared, the hear-you-clear run, and MISMATCH left at
the first agreeing offer. That the port's rules come before the handover of a loop frame, and that a frame which
ends UP is not handed over, is log entry 21, the model's reading. -/
def Obligations.PartnerHeard : Prop :=
  (∀ (p : PortId) (arr : Arrival) (l : LinkField) (s : State), s.inReset = false → Settled s →
     frameCheck arr.frame = arr.check → arr.frame.link = some l →
     l.offer.loopName = s.start.loopName → l.offer.rate = s.start.rate →
     let r := s.port p
     let same : Prop := r.agreeFrom = some (l.sender, l.port)
     (l.sender ≠ s.start.id → r.state = .offer → l.offer.hearYou = true → same → 3 ≤ r.agreeRun + 1 →
       ∀ c, c = Instr.joined p arr ∨ c = Instr.portFrameReceive p arr → ∃ t, exec c s = .next t ∧
         (t.port p).state = .up ∧ (t.port p).flags = { r.flags with fixed := false } ∧
         (t.port p).partner = some l ∧ (t.port p).offerT = none ∧ (t.port p).relock = none ∧
         (t.port p).clearRun = 0 ∧
         (t.port p).counters = { r.counters with good := bump r.counters.good } ∧ PortEventFrame s t) ∧
     (l.sender = s.start.id → s.loop.conflict = none →
       r.state = .offer → l.offer.hearYou = true → same → 3 ≤ r.agreeRun + 1 →
       ∀ c, c = Instr.joined p arr ∨ c = Instr.portFrameReceive p arr → ∃ t, exec c s = .next t ∧
         (t.port p).state = .up ∧ t.loop.conflict = some .duplicateId ∧ t.loop.role = .follower ∧
         t.loop.following = false) ∧
     (r.state ≠ .offer ∨ l.offer.hearYou = false ∨ ¬ same ∨ r.agreeRun + 1 < 3 →
       ∃ t, exec (.joined p arr) s = .next t ∧ Happened [] s s t)) ∧
  (∀ (p : PortId) (arr : Arrival) (s : State), s.inReset = false → Settled s →
     frameCheck arr.frame ≠ arr.check ∨ arr.frame.link = none ∨
       (∃ l, arr.frame.link = some l ∧
         (l.offer.loopName ≠ s.start.loopName ∨ l.offer.rate ≠ s.start.rate)) →
     ∃ t, exec (.joined p arr) s = .next t ∧ Happened [] s s t) ∧
  (∀ (p : PortId) (arr : Arrival) (s : State), s.inReset = false → Settled s →
     let r := s.port p
     (frameCheck arr.frame = arr.check → r.state = .up → r.flags.fixed = false →
       r.flags.remoteFault = false → 48 ≤ r.clearRun + 1 →
       (arr.frame.link = none ∨ ∃ l k, arr.frame.link = some l ∧ r.partner = some k ∧ l.sender = k.sender ∧
         l.port = k.port ∧ l.sender ≠ s.start.id ∧ l.offer.hearYou = false ∧
         l.offer.loopName = s.start.loopName ∧ l.offer.rate = s.start.rate) →
       (arr.frame.slots = none ∨ s.usable (portOther p) = true) →
       ∃ t, exec (.remoteFaultSet p arr) s = .next t ∧ (t.port p).state = .up ∧
         (t.port p).flags = { r.flags with remoteFault := true } ∧ (t.port p).partner = r.partner ∧
         (t.port p).counters = { r.counters with good := bump r.counters.good } ∧ t.usable p = false ∧
         PortEventFrame s t ∧
         (s.usable (portOther p) = true → t.wrapAt p = .loss ∧ t.wrapAt (portOther p) = .none)) ∧
     (frameCheck arr.frame ≠ arr.check ∨ r.state ≠ .up ∨ r.flags.fixed = true ∨ r.flags.remoteFault = true ∨
         r.clearRun + 1 < 48 ∨
         (∃ l, arr.frame.link = some l ∧ (l.offer.hearYou = true ∨ l.offer.loopName ≠ s.start.loopName ∨
           l.offer.rate ≠ s.start.rate ∨ ∀ k, r.partner = some k → l.sender ≠ k.sender ∨ l.port ≠ k.port)) →
       ∃ t, exec (.remoteFaultSet p arr) s = .next t ∧ Happened [] s s t)) ∧
  (∀ (p : PortId) (arr : Arrival) (s : State), s.inReset = false → Settled s → frameCheck arr.frame = arr.check →
     let r := s.port p
     let cleared : PortFlags := { r.flags with fixed := false, remoteFault := false }
     let count : PortCounters := { r.counters with good := bump r.counters.good }
     let lost (t : State) : Prop := PortEventFrame s t ∧ (t.port p).counters = count ∧
       (t.port p).linkDelay = none ∧ (t.port p).relock = some (2000 * 96) ∧ (t.port p).flags = cleared ∧
       (s.usable p = true → s.usable (portOther p) = true →
         t.wrapAt p = .loss ∧ t.wrapAt (portOther p) = .none)
     (arr.frame.link = none →
       (r.state = .offer ∨ r.state = .mismatch → ∃ t, exec (.portFrameReceive p arr) s = .next t ∧
         (t.port p).state = r.state ∧ (t.port p).partner = r.partner ∧ (t.port p).counters = count ∧
         (t.port p).agreeRun = (if r.state = .offer then 0 else r.agreeRun) ∧
         Happened [] s (s.setPort p (t.port p)) t) ∧
       (r.state = .up → r.flags.fixed = true → ∃ t, exec (.portFrameReceive p arr) s = .next t ∧
         (t.port p).state = .up ∧ (t.port p).flags = r.flags ∧ (t.port p).partner = r.partner ∧
         (t.port p).counters = count)) ∧
     (∀ l, arr.frame.link = some l →
       let agrees : Prop := l.offer.loopName = s.start.loopName ∧ l.offer.rate = s.start.rate
       let same : Prop := ∃ k, r.partner = some k ∧ k.sender = l.sender ∧ k.port = l.port
       let run := if l.offer.hearYou then if r.agreeFrom = some (l.sender, l.port) then r.agreeRun + 1 else 1 else 0
       let first := if l.offer.hearYou then 1 else 0
       (r.state = .offer → ¬ agrees → ∃ t, exec (.portFrameReceive p arr) s = .next t ∧ PortEventFrame s t ∧
         (t.port p).state = .mismatch ∧ (t.port p).partner = some l ∧ (t.port p).offerT = none ∧
         (t.port p).counters = count ∧ (t.port p).relock = r.relock ∧
         (l.sender ≠ s.start.id → Happened [.portChange p .mismatch cleared r.light .disagree] s
           (s.setPort p (t.port p)) t)) ∧
       (r.state = .offer → agrees → run < 3 → ∃ t, exec (.portFrameReceive p arr) s = .next t ∧
         (t.port p).state = .offer ∧ (t.port p).partner = some l ∧ (t.port p).agreeRun = run ∧
         (t.port p).offerSeen = true ∧ (t.port p).offerT = r.offerT ∧ (t.port p).counters = count ∧
         (l.sender ≠ s.start.id → Happened [] s (s.setPort p (t.port p)) t)) ∧
       (r.state = .up → r.flags.fixed = true ∨ ¬ same → agrees →
         ∃ t, exec (.portFrameReceive p arr) s = .next t ∧ lost t ∧ (t.port p).state = .offer ∧
           (t.port p).partner = some l ∧ (t.port p).offerT = some (500 * 96) ∧
           (t.port p).agreeRun = first ∧ (t.port p).offerSeen = true) ∧
       (r.state = .up → ¬ agrees → ∃ t, exec (.portFrameReceive p arr) s = .next t ∧ lost t ∧
         (t.port p).state = .mismatch ∧ (t.port p).partner = some l ∧ (t.port p).offerT = none) ∧
       (r.state = .up → r.flags.fixed = false → agrees → same → l.offer.hearYou = true →
         ∃ t, exec (.portFrameReceive p arr) s = .next t ∧ (t.port p).state = .up ∧
           (t.port p).flags = { r.flags with remoteFault := false } ∧ (t.port p).partner = some l ∧
           (t.port p).clearRun = 0 ∧ (t.port p).counters = count ∧
           (arr.frame.slots = none → PortEventFrame s t ∧
             (s.usable p = false → s.wrapAt p = .loss → t.wrapAt p = .planned (some l.sender)))) ∧
       (r.state = .mismatch → ¬ agrees → ∃ t, exec (.portFrameReceive p arr) s = .next t ∧
         (t.port p).state = .mismatch ∧ (t.port p).partner = some l ∧ (t.port p).counters = count ∧
         (l.sender ≠ s.start.id → Happened [] s (s.setPort p (t.port p)) t)) ∧
       (r.state = .mismatch → agrees → ∃ t, exec (.portFrameReceive p arr) s = .next t ∧ PortEventFrame s t ∧
         (t.port p).state = .offer ∧ (t.port p).partner = some l ∧ (t.port p).offerT = some (500 * 96) ∧
         (t.port p).agreeRun = first ∧ (t.port p).offerSeen = true ∧ (t.port p).counters = count ∧
         (t.port p).relock = r.relock ∧
         (l.sender ≠ s.start.id → Happened [.portChange p .offer cleared r.light .agree] s
           (s.setPort p (t.port p)) t))) ∧
     (r.state = .up → r.flags.fixed = false → r.clearRun + 1 < 48 →
       (arr.frame.link = none ∨ ∃ l k, arr.frame.link = some l ∧ r.partner = some k ∧ l.sender = k.sender ∧
         l.port = k.port ∧ l.offer.hearYou = false ∧ l.offer.loopName = s.start.loopName ∧
         l.offer.rate = s.start.rate) →
       ∃ t, exec (.portFrameReceive p arr) s = .next t ∧ (t.port p).state = .up ∧
         (t.port p).flags = r.flags ∧ (t.port p).partner = r.partner ∧
         (t.port p).clearRun = r.clearRun + 1 ∧ (t.port p).counters = count))

/-- SETTLE_TIMER_EXPIRY and OFFER_TIMER_EXPIRY (R26, R29, R38): SETTLE goes to OFFER with a fresh offer timer;
an offer timer that expires with no offer seen makes a FIXED join, with one seen it does nothing.
RELOCK_TIMER_EXPIRY and ERROR_WINDOW_END (R33, R34, R35, R41): the relock failure is counted, and ends a
drill whose period is over; a window starts afresh, MARGINAL is cleared after a whole window without either
condition, and the link delay takes the mean of a window spent wholly in UP. A row whose time has not come has no
effect (log entry 3). -/
def Obligations.PortTimersExpire : Prop :=
  (∀ (p : PortId) (s : State), s.inReset = false → Settled s →
     let r := s.port p
     (r.state = .settle → r.settle = some 0 → ∃ t, exec (.settleTimerExpiry p) s = .next t ∧
       Happened [.portChange p .offer { r.flags with fixed := false, remoteFault := false } r.light .settled] s
         (s.setPort p { r with
           state := .offer, settle := none, offerT := some (500 * 96)
           flags := { r.flags with fixed := false, remoteFault := false }
           linkDelay := none, agreeRun := 0, agreeFrom := none, offerSeen := false, offerAgreed := false
           clearRun := 0, winWholeUp := false }) t) ∧
     (r.state ≠ .settle ∨ r.settle ≠ some 0 →
       ∃ t, exec (.settleTimerExpiry p) s = .next t ∧ Happened [] s s t) ∧
     (r.state = .offer → r.offerT = some 0 → r.offerSeen = true →
       ∃ t, exec (.offerTimerExpiry p) s = .next t ∧
         Happened [] s (s.setPort p { r with offerT := none }) t) ∧
     (r.state = .offer → r.offerT = some 0 → r.offerSeen = false →
       ∃ t, exec (.offerTimerExpiry p) s = .next t ∧ (t.port p).state = .up ∧
         (t.port p).flags = { r.flags with fixed := true } ∧ (t.port p).partner = none ∧
         (t.port p).linkDelay = none ∧ (t.port p).offerT = none ∧ (t.port p).relock = none ∧
         (t.port p).counters = r.counters ∧ PortEventFrame s t) ∧
     (r.state ≠ .offer ∨ r.offerT ≠ some 0 →
       ∃ t, exec (.offerTimerExpiry p) s = .next t ∧ Happened [] s s t)) ∧
  (∀ (p : PortId) (s : State), s.inReset = false → Settled s →
     let r := s.port p
     let failed : PortRec := { r with
       relock := none, counters := { r.counters with relockFailures := bump r.counters.relockFailures } }
     let clean := decide (r.winBad ≤ if s.start.rate = .k48 then 48 else 96) && !r.lightHeld
     let anew : PortRec := { r with
       flags := { r.flags with marginal := r.flags.marginal && !clean }
       linkDelay := windowDelay r
       winFrames := 0, winBad := 0, window := some (100 * 96), lightHeld := r.lightCond
       winWholeUp := r.state == .up, delaySum := 0, delayCount := 0 }
     (r.relock = some 0 → r.drill = none ∨ r.state = .drill → ∃ t, exec (.relockTimerExpiry p) s = .next t ∧
       Happened [] s (s.setPort p failed) t) ∧
     (∀ d, r.relock = some 0 → r.drill = some d → r.state ≠ .drill →
       (∃ o, findOp d.tag s = some o ∧ o.kind = .drill) → ∃ t, exec (.relockTimerExpiry p) s = .next t ∧
         Happened [.done d.tag .drill .ok (.drill p (d.wrapFrame.map (· - d.start)) none)] s
           { s.setPort p { failed with drill := none } with
             ctl := (opEnded ⟨d.tag, .drill, .ok, .drill p (d.wrapFrame.map (· - d.start)) none⟩ s.ctl) } t) ∧
     (r.relock ≠ some 0 → ∃ t, exec (.relockTimerExpiry p) s = .next t ∧ Happened [] s s t) ∧
     (r.winWholeUp = false ∨ r.delayCount = 0 → windowDelay r = r.linkDelay) ∧
     (∀ d : Nat, r.winWholeUp = true → 0 < r.delayCount →
       2 * r.delayCount * d < 2 * r.delaySum + r.delayCount →
       2 * r.delaySum < 2 * r.delayCount * d + r.delayCount → windowDelay r = some d) ∧
     (r.window = some 0 → r.flags.marginal = false ∨ clean = false →
       ∃ t, exec (.errorWindowEnd p) s = .next t ∧ Happened [] s (s.setPort p anew) t) ∧
     (r.window = some 0 → r.flags.marginal = true → clean = true →
       ∃ t, exec (.errorWindowEnd p) s = .next t ∧ PortEventFrame s t ∧
         (s.usable p = false →
           Happened [.portChange p r.state { r.flags with marginal := false } r.light .marginalClear] s
             (s.setPort p anew) t) ∧
         (s.usable p = true → t.port p = { anew with everUsable := r.everUsable || !s.start.held } ∧
           (s.start.role ≠ .master →
             Happened [.portChange p .up { r.flags with marginal := false } r.light .marginalClear] s
               (portNoted p anew s) t) ∧ SameBlocks (portReported p anew s) t)) ∧
     (r.window ≠ some 0 → ∃ t, exec (.errorWindowEnd p) s = .next t ∧ Happened [] s s t))

/-- DRILL (R39, R40, R52, R183): the operation table's checks, then the drill's own, in order; a drill that
passes takes the port to DRILL with its transmitter off, and a usable port's link to a LOSS wrap.
DRILL_TIMER_EXPIRY (R35, R41): the transmitter is on again, the port goes to DARK, the relock timer starts;
the drill record and the operation stay; outside DRILL and before its time the row has no effect (log entry 3).
A drill is overtaken (R42) where the other port leaves UP, as by the loss of its light, or sets REMOTE_FAULT: the
drilled port goes to DARK with its transmitter on, and the operation ends OVERTAKEN. -/
def Obligations.DrillRuns : Prop :=
  (∀ (tag : Byte) (p : PortId) (ms : Nat) (s : State), Taken s → Settled s → WithinRoom s →
     let r := s.port p
     let range : Prop := ms < 100 ∨ 10000 < ms
     let state : Prop := s.portA.drill.isSome = true ∨ s.portB.drill.isSome = true ∨
       loopMode s ≠ .closed ∨ s.usable (portOther p) = false
     (8 ≤ opCount s → ∃ t, exec (.drill tag p ms) s = .next t ∧ Answered tag .busy [] s (goodRequest s) t) ∧
     (opCount s < 8 → (findOp tag s).isSome = true → ∃ t, exec (.drill tag p ms) s = .next t ∧
       Answered tag (.refused .state) [] s (goodRequest s) t) ∧
     (opCount s < 8 → findOp tag s = none → range → ∃ t, exec (.drill tag p ms) s = .next t ∧
       Answered tag (.refused .range) [] s (goodRequest s) t) ∧
     (opCount s < 8 → findOp tag s = none → ¬ range → 1 ≤ s.lock.level →
       ∃ t, exec (.drill tag p ms) s = .next t ∧ Answered tag (.refused .locked) [] s (goodRequest s) t) ∧
     (opCount s < 8 → findOp tag s = none → ¬ range → s.lock.level = 0 → state →
       ∃ t, exec (.drill tag p ms) s = .next t ∧ Answered tag (.refused .state) [] s (goodRequest s) t) ∧
     (opCount s < 8 → findOp tag s = none → ¬ range → s.lock.level = 0 → ¬ state →
       ∃ t, exec (.drill tag p ms) s = .next t ∧ Replied tag .started s t ∧
         findOp tag t = some ⟨tag, .drill, .running, none, none, none⟩ ∧
         (t.port p).state = .drill ∧ (t.port p).txOn = false ∧ (t.port p).flags = ⟨false, false, false⟩ ∧
         (t.port p).partner = none ∧ (t.port p).linkDelay = none ∧ (t.port p).settle = none ∧
         (t.port p).offerT = none ∧ (t.port p).relock = none ∧ (t.port p).drillT = some (ms * 96) ∧
         (t.port p).drill = some ⟨s.loop.count, ms, if s.usable p then some s.loop.count else none, tag⟩ ∧
         (t.port p).counters = { r.counters with drills := bump r.counters.drills } ∧
         (s.usable p = true → t.wrapAt p = .loss ∧ t.wrapAt (portOther p) = .none ∧
           loopMode t = match p with
             | .a => .wrappedA
             | .b => .wrappedB) ∧
         PortEventFrame (goodRequest s) t)) ∧
  (∀ (p : PortId) (s : State), s.inReset = false → Settled s →
     let r := s.port p
     (r.state = .drill → r.drillT = some 0 → ∃ t, exec (.drillTimerExpiry p) s = .next t ∧
       Happened [.portChange p .dark r.flags r.light .drillEnd] s (s.setPort p { r with
         state := .dark, txOn := true, drillT := none, relock := some (2000 * 96) }) t) ∧
     (r.state ≠ .drill ∨ r.drillT ≠ some 0 → ∃ t, exec (.drillTimerExpiry p) s = .next t ∧
       Happened [] s s t)) ∧
  (∀ (p : PortId) (x : Option Int) (d : DrillRec) (s : State), s.inReset = false → Settled s →
     (s.port p).state = .up → lightLevel x < (s.port p).loss → (s.port (portOther p)).state = .drill →
     (s.port (portOther p)).drill = some d →
     ∃ t, exec (.lightMeasurement p x) s = .next t ∧ (t.port p).state = .dark ∧
       (t.port (portOther p)).state = .dark ∧ (t.port (portOther p)).txOn = true ∧
       (t.port (portOther p)).drillT = none ∧ (t.port (portOther p)).relock = some (2000 * 96) ∧
       (t.port (portOther p)).drill = none ∧
       (∀ o, findOp d.tag s = some o → findOp d.tag t = none ∧ t.ctl.ended.head? =
         some ⟨d.tag, o.kind, .no .overtaken,
           .drill (portOther p) (d.wrapFrame.map (· - d.start)) none⟩)) ∧
  (∀ old new : PortRec, overtakes old new = true ↔
     (old.state = .up ∧ new.state ≠ .up) ∨ (old.flags.remoteFault = false ∧ new.flags.remoteFault = true))

/-! ### Loop frames and the Loop Engine (Sections 1 and 3) -/

/-- The loop mode, by the first line of its table that holds (R45). -/
def Obligations.LoopModeTable : Prop :=
  ∀ s : State,
    let unjoined : Prop := s.loop.role = .follower ∧ s.loop.group = none
    let alone : Prop := s.usable .a = false ∧ s.usable .b = false ∧
      (s.loop.role = .origin ∨ s.loop.group ≠ none)
    let lost : Prop := s.loop.role = .follower ∧ s.loop.following = false
    (s.start.held = true → loopMode s = .held) ∧
    (s.start.held = false → s.loop.conflict ≠ none → loopMode s = .conflict) ∧
    (s.start.held = false → s.loop.conflict = none →
      (unjoined → loopMode s = .seeking) ∧
      (¬ unjoined → alone → loopMode s = .isolated) ∧
      (¬ unjoined → ¬ alone → lost → loopMode s = .orphan) ∧
      (¬ unjoined → ¬ alone → ¬ lost → s.loop.wrapA ≠ .none → loopMode s = .wrappedA) ∧
      (¬ unjoined → ¬ alone → ¬ lost → s.loop.wrapA = .none → s.loop.wrapB ≠ .none →
        loopMode s = .wrappedB) ∧
      (¬ unjoined → ¬ alone → ¬ lost → s.loop.wrapA = .none → s.loop.wrapB = .none →
        loopMode s = .closed))

/-- Frame counts, serials and origin groups compared (R2, R49, R65, R75): reached and passed, newer, and the
precedence of two groups.
Relay and transmission (R6, R21, R47): the port a frame leaves on by the wraps; a frame ends where that port is not
usable; a port whose transmitter is on sends the frame routed to it, else a standby frame, with a check of its own.
That a later frame of the same frame period replaces the one that waits is the model's choice (log entry 8), as is
the merge release's own LOOP_CHANGE before that of the adoption or switch that follows (log entry 71).
Dispatch (R1, R47, R49, R50, R65, R66, R67, R68, R72, R174): what a node does with a loop frame by its mode, the
wrap at the arrival port and the frame's origin group: relay, discard, circuit end, first visit, adoption, switch,
yield, conflict, the merge release of a wrap. Frames at an ISOLATED node that follows none are discarded (log entry
20).
What a switch, a yield, an adoption (R50, R61, R62, R65, R66, R70, R77, R90, R144) and the entry to CONFLICT (R67,
R68, R135, R144) leave: the new group and epoch, the keys' claims dropped (release owed: log entry 38), nothing
outstanding, no collection with its entry, no entry of another epoch, no HEAL whose entry was discarded (that its
plan, still queued, belongs to no operation is log entry 15, the model's reading).
A good loop frame at a port that stays UP is handed over (R37; that the port is UP before and after it is log entry
21).
A frame of the followed origin is a first visit, relayed untouched, or the sign of a duplicate id (R9, R67); which
counts still tell of a visit is log entry 22, the model's reading (`QueueMoves`). A first visit takes the frame's count
and lock level (R2, R165, R167), LOCK_CHANGE carrying the new level alone (log entry 83, the model's choice), writes the node's own slots and cell alone (R9, R93),
and adds the node to the visited set and the hop list (R3, R9). -/
def Obligations.NumbersGroupsRelay : Prop :=
  ((∀ c f : FrameNo, (reached c f = true ↔ (c - f).toNat < 2 ^ 31) ∧
     (passed c f = true ↔ (c - f).toNat < 2 ^ 31 ∧ c ≠ f)) ∧
   (∀ a b : BitVec 16, newer16 a b = true ↔ 1 ≤ (a - b).toNat ∧ (a - b).toNat ≤ 32767) ∧
   (∀ a b : BitVec 8, newer8 a b = true ↔ 1 ≤ (a - b).toNat ∧ (a - b).toNat ≤ 127) ∧
   (∀ g f : OriginGroup, groupWins g f = true ↔
     (g.rank = .master ∧ f.rank = .deputy) ∨ (g.rank = f.rank ∧ g.id.val < f.id.val)) ∧
   ∀ g f : OriginGroup, ¬ (groupWins g f = true ∧ groupWins f g = true) ∧
     (groupWins g f = false → groupWins f g = false → g.id = f.id ∧ g.rank = f.rank)) ∧
  (∀ (s : State) (p : PortId) (f : Frame) (now : Nanos),
     (s.loop.wrapA = .none → s.loop.wrapB = .none → relayPort s p = some (portOther p)) ∧
     (s.loop.wrapA ≠ .none → relayPort s .a = none ∧ relayPort s .b = some .b) ∧
     (s.loop.wrapA = .none → s.loop.wrapB ≠ .none → relayPort s .a = some .a ∧ relayPort s .b = none) ∧
     (∀ q, relayPort s p = some q → s.usable q = true →
       relay p f s = s.setPort q { s.port q with routed := some f }) ∧
     (∀ q, relayPort s p = some q → s.usable q = false → relay p f s = s) ∧
     (relayPort s p = none → relay p f s = s) ∧
     ((s.port p).txOn = true → ∃ g, ((transmit now s p).port p).txLine = some (g, frameCheck g) ∧
       ((transmit now s p).port p).routed = none ∧ (∃ l, g.link = some l ∧ l.sender = s.start.id ∧ l.port = p) ∧
       (∀ r, (s.port p).routed = some r → g.header = r.header ∧ g.cells = r.cells ∧ g.slots = r.slots) ∧
       ((s.port p).routed = none → g.slots = none ∧ g.cells = List.replicate 8 none)) ∧
     ((s.port p).txOn = false → ((transmit now s p).port p).txLine = none ∧
       ((transmit now s p).port p).routed = none)) ∧
  (∀ (s : State) (p : PortId) (f : Frame) (now : Nanos), f.header.rate = s.start.rate →
     let g := f.header.origin
     let takes : Prop := loopMode s ≠ .held ∧ loopMode s ≠ .conflict
     let free : Prop := takes ∧ s.wrapAt p = .none
     let unwraps (e : PendingSwitch) : Prop := ∃ l, e.item = .msg (.unwrapPlan l) ∧
       linkPortOf l s.start.id = some p ∧ reached f.header.count e.frame = true
     let merges : Prop := s.usable p = true ∧ ∀ own, followedGroup s = some own → groupWins g own = true
     (loopMode s = .held ∨ loopMode s = .conflict → dispatch p f now s = relay p f s) ∧
     (takes → s.wrapAt p = .loss → dispatch p f now s = s) ∧
     (takes → isPlanned (s.wrapAt p) = true →
       (∀ e ∈ s.switches, ¬ unwraps e) ∨ followedGroup s ≠ some g →
       (¬ merges → dispatch p f now s = s) ∧
       (merges → dispatch p f now s = dispatch p f now (mergeRelease p s) ∧
         (mergeRelease p s).wrapAt p = .none)) ∧
     (∀ e before after, takes → isPlanned (s.wrapAt p) = true → s.switches = before ++ e :: after → unwraps e →
       (∀ x ∈ before, x.sender ≠ e.sender ∧ ¬ unwraps x) → followedGroup s = some g →
       let u := applyPending e.sender s
       dispatch p f now s = takeFrame p f u ∧ followedGroup u = some g ∧
         (s.usable p = true → u.wrapAt p = .none) ∧ ∀ x ∈ u.switches, x.sender ≠ e.sender) ∧
     (free → g.id = s.start.id →
       (s.loop.role = .origin → s.loop.group = some g →
         p = (if s.loop.wrapA = .none then .a else .b) → dispatch p f now s = circuitEnd f now s) ∧
       (s.loop.role = .origin → s.loop.group = some g →
         p ≠ (if s.loop.wrapA = .none then .a else .b) → dispatch p f now s = relay p f s) ∧
       (s.loop.role = .follower ∨ s.loop.group ≠ some g →
         (s.loop.formerOwn = some (g.rank, g.epoch) → dispatch p f now s = s) ∧
         (s.loop.formerOwn ≠ some (g.rank, g.epoch) →
           dispatch p f now s = relay p f (enterConflict .duplicateId s)))) ∧
     (free → g.id ≠ s.start.id →
       (followedGroup s = some g → dispatch p f now s = takeFrame p f s) ∧
       (∀ own, followedGroup s = some own → own ≠ g → own.id = g.id → own.rank = g.rank →
         dispatch p f now s =
           if newer16 g.epoch own.epoch then takeFrame p f (switchTo g false s) else relay p f s) ∧
       (∀ own, followedGroup s = some own → own.id ≠ g.id ∨ own.rank ≠ g.rank →
         (groupWins g own = false → dispatch p f now s = s) ∧
         (groupWins g own = true → s.loop.role = .follower →
           dispatch p f now s = takeFrame p f (switchTo g true s)) ∧
         (groupWins g own = true → s.loop.role = .origin → own.rank = .deputy →
           dispatch p f now s = takeFrame p f (yieldTo g s)) ∧
         (groupWins g own = true → s.loop.role = .origin → own.rank = .master →
           dispatch p f now s = relay p f (enterConflict .masterMet s))) ∧
       (followedGroup s = none → dispatch p f now s =
         if loopMode s = .seeking ∨ loopMode s = .orphan then takeFrame p f (adopt g s) else s))) ∧
  (∀ (s : State) (p : PortId) (f : Frame) (now : Nanos), f.header.rate ≠ s.start.rate →
     dispatch p f now s = s) ∧
  (∀ (g : OriginGroup) (s u : State),
     let drop (k : KeyRec) : KeyRec :=
       if keyActive k.state then { k with
         state := .dropped, latched := false, press := none, answer := none, releaseOwed := false }
       else k
     ((∃ ask, u = switchTo g ask s) ∨ u = yieldTo g s ∨ (u = adopt g s ∧ s.loop.group ≠ some g) →
       u.loop.role = .follower ∧ u.loop.group = some g ∧ u.loop.following = true ∧
       u.loop.epoch = g.epoch ∧ u.loop.count = s.loop.count ∧ u.loop.timeout = 0 ∧ u.loop.takeover = none ∧
       u.loop.lastActed = List.replicate 8 none ∧
       u.loop.wrapA = s.loop.wrapA ∧ u.loop.wrapB = s.loop.wrapB ∧ u.loop.conflict = s.loop.conflict ∧
       (∀ x, s.loop.role = .origin → s.loop.group = some x → u.loop.formerOwn = some (x.rank, x.epoch)) ∧
       u.talk = ⟨s.talk.keys.map drop, List.replicate 4 .clear, List.replicate 4 .empty⟩ ∧
       (∀ e ∈ u.slots.table, e.state = .talk → e.writer = none) ∧
       (s.start.role ≠ .master → u.slots.current = false ∧ ∀ x ∈ u.switches, ∀ n, x.item ≠ .snapshot n) ∧
       u.slots.collection = none ∧ u.queue.outstanding = none ∧ u.queue.written = none ∧ (∀ i ∈ u.queue.items, i.stamp = none) ∧
       (∀ x ∈ u.switches, x.epoch = g.epoch) ∧
       (∀ x ∈ s.switches, x.epoch ≠ g.epoch → x.sender = s.start.id → (∃ l, x.item = .msg (.unwrapPlan l)) →
         ∀ tag, x.op = some tag → findOp tag u = none ∧ ∀ i ∈ u.queue.items, i.op ≠ some tag) ∧ u.start = s.start ∧ u.lock.level = s.lock.level ∧
       u.supervision = s.supervision) ∧
     (u = adopt g s → s.loop.group = some g → loopMode s = .seeking ∨ loopMode s = .orphan →
       u.loop = { s.loop with following := true, timeout := 0, takeover := none } ∧ u.talk = s.talk ∧
       u.switches = s.switches ∧ u.start = s.start ∧ u.snap = s.snap ∧ u.gain = s.gain ∧ u.lock = s.lock) ∧
     (∀ c, u = enterConflict c s → s.loop.conflict = none →
       u.loop.conflict = some c ∧ u.loop.role = .follower ∧ u.loop.following = false ∧
       u.loop.takeover = none ∧ u.loop.restart = .idle ∧ u.loop.group = s.loop.group ∧
       u.loop.epoch = s.loop.epoch ∧ u.talk = ⟨s.talk.keys.map drop, s.talk.views, List.replicate 4 .empty⟩ ∧
       u.start = s.start ∧ u.queue = s.queue ∧ u.gain = s.gain ∧ u.lock = s.lock)) ∧
  (∀ (p : PortId) (arr : Arrival) (s : State), s.inReset = false → Settled s → frameCheck arr.frame = arr.check →
     arr.frame.slots.isSome = true → (s.port p).state = .up →
     (arr.frame.link = none ∧ ((s.port p).flags.fixed = true ∨ (s.port p).clearRun + 1 < 48)) ∨
       ((s.port p).flags.fixed = false ∧ (s.port p).flags.remoteFault = false ∧
         ∃ l k, arr.frame.link = some l ∧ (s.port p).partner = some k ∧ l.sender = k.sender ∧ l.port = k.port ∧
           l.offer.origin = k.offer.origin ∧ l.sender ≠ s.start.id ∧ l.offer.hearYou = true ∧
           l.offer.loopName = s.start.loopName ∧ l.offer.rate = s.start.rate) →
     ∃ t r, exec (.portFrameReceive p arr) s = .next t ∧ r.state = .up ∧ r.flags = (s.port p).flags ∧
       (r.partner = match arr.frame.link with
         | none => (s.port p).partner
         | some l => some l) ∧
       r.counters = { (s.port p).counters with good := bump (s.port p).counters.good } ∧
       SameBlocks (settle (dispatch p arr.frame arr.now (s.setPort p r))) t) ∧
  (∀ (p : PortId) (f : Frame) (d : Direction) (s : State),
     let h : State := if s.usable p then { s with loop := { s.loop with timeout := 0, heard := true } } else s
     let v := firstVisit f (match p with
       | .a => .forward
       | .b => .ret) h
     let u := visitRead f (visitStart f.header s)
     let t := firstVisit f d s
     (s.start.id ∉ f.header.visited → takeFrame p f s = relay p v.2 v.1) ∧
     (s.start.id ∈ f.header.visited → f.header.count ∈ s.loop.visits → takeFrame p f s = relay p f h) ∧
     (s.start.id ∈ f.header.visited → f.header.count ∉ s.loop.visits →
       takeFrame p f s = relay p f (enterConflict .duplicateId h)) ∧
     t.2.header = { f.header with
       visited := f.header.visited ++ [s.start.id], hops := f.header.hops ++ [⟨s.start.id, d⟩] } ∧
     t.2.link = f.link ∧ t.2.slots = f.slots.map (fun l => writeTalk u (writeSlots u l)) ∧
     (∀ i, i ≠ s.start.id.val → t.2.cells[i]? = f.cells[i]?) ∧
     t.1.loop.count = f.header.count ∧ t.1.loop.visited = true ∧ f.header.count ∈ t.1.loop.visits ∧
     t.1.loop.lastVisit = some (f.header.count, f.header.origin.epoch) ∧ t.1.start = s.start ∧
     t.1.lock.level = s.lock.level) ∧
  (∀ (h : Header) (s : State),
     let t := lockVisit h s
     let n := h.origin.id
     (h.origin.rank = .deputy → t = s) ∧
     (h.origin.rank = .master →
       t.lock = { s.lock with
         loopLevel := some h.lock
         view := if n = s.start.id then s.lock.view else s.lock.view.set n.val (some h.lock) } ∧
       SameBlocks { s with lock := t.lock } t ∧
       Raised ((if s.lock.loopLevel = some h.lock then [] else [.lockLoop h.lock]) ++
         if n = s.start.id ∨ s.lock.view.getD n.val none = some h.lock then [] else [.lockNote n (some h.lock)])
         s t)) ∧
  (∀ (l : List Sample) (n : Nat) (s : State), n < l.length →
     let reads : Prop := s.start.role = .master ∨ s.slots.current = true
     (∀ e i, reads → s.slots.table[n]? = some e → e.state = .assigned → e.writer = some s.start.id →
       e.input = some i → (writeSlots s l)[n]? = some (delivered s i)) ∧
     (¬ reads ∨ (∀ e, s.slots.table[n]? = some e → e.state ≠ .assigned ∨ e.writer ≠ some s.start.id) →
       (writeSlots s l)[n]? = l[n]?) ∧
     (∀ i, (muted s i = true → delivered s i = 0) ∧
       (muted s i = false → delivered s i = s.lanes.present.getD i 0)))

/-- ORIGIN_TIMEOUT (R51, R63, R77, R144): the 48th frame period without a followed frame at a follower, the row
being the end of that period, without effect short of it (log entry 4). Following ends, the rest of the loop
record stands, the keys' claims are dropped, and a node that carried the loop enters ORPHAN: a DEPUTY with its
takeover timer running, a copy that is not the master's no longer current. Release owed goes with a claim that
is up (log entry 38). -/
def Obligations.OriginTimesOut : Prop :=
  ∀ s : State, s.inReset = false → Settled s →
    let drop (k : KeyRec) : KeyRec :=
      if keyActive k.state then { k with
        state := .dropped, latched := false, press := none, answer := none, releaseOwed := false }
      else k
    (s.loop.following = false ∨ s.loop.role = .origin ∨ s.loop.heard = true ∨ s.loop.timeout + 1 < 48 →
      ∃ t, exec .originTimeout s = .next t ∧ Happened [] s s t) ∧
    (s.loop.following = true → s.loop.role = .follower → s.loop.heard = false → 48 ≤ s.loop.timeout + 1 →
      ∃ t, exec .originTimeout s = .next t ∧
        t.loop = { s.loop with following := false, timeout := 48, takeover := t.loop.takeover } ∧
        t.talk = { s.talk with keys := s.talk.keys.map drop } ∧
        (writesCells (loopMode s) = true → loopMode t = .orphan ∧
          t.loop.takeover = (if s.start.role = .deputy then some (s.loop.takeoverMs * 96) else none) ∧
          (s.start.role ≠ .master → t.slots.current = false) ∧
          ∃ u, Happened [.talkDrop .originLost (activeKeys s), .loopChange ⟨.orphan, .follower, s.loop.group,
            s.loop.epoch, s.loop.wrapA, s.loop.wrapB⟩ .originLost] s u t) ∧
        t.start = s.start ∧ t.portA = s.portA ∧ t.portB = s.portB ∧ t.queue = s.queue ∧ t.snap = s.snap ∧
        t.gain = s.gain ∧ t.lock = s.lock ∧ t.supervision = s.supervision ∧ t.ctl.ops = s.ctl.ops ∧
        t.pending = s.pending)

/-- TAKEOVER_TIMER_EXPIRY (R58, R62, R63, R135): a DEPUTY in ORPHAN becomes ORIGIN of the next epoch, with a
fresh map, its own entry there with direction FORWARD (log entry 24), fresh talk records and nothing outstanding;
elsewhere the row has no effect (log entry 3). -/
def Obligations.DeputyTakesOver : Prop :=
  ∀ s : State, s.inReset = false → Settled s →
    (s.loop.takeover ≠ some 0 ∨ s.start.role ≠ .deputy ∨ loopMode s ≠ .orphan →
      ∃ t, exec .takeoverTimerExpiry s = .next t ∧ Happened [] s s t) ∧
    (s.loop.takeover = some 0 → s.start.role = .deputy → loopMode s = .orphan →
      ∃ t, exec .takeoverTimerExpiry s = .next t ∧ t.loop.role = .origin ∧ t.loop.following = true ∧
        t.loop.group = some ⟨s.start.id, .deputy, s.loop.epoch + 1⟩ ∧ t.loop.epoch = s.loop.epoch + 1 ∧
        t.loop.count = s.loop.count ∧ t.loop.takeover = none ∧ t.loop.timeout = 0 ∧
        t.loop.wrapA = s.loop.wrapA ∧ t.loop.wrapB = s.loop.wrapB ∧ t.loop.mapSerial = 0 ∧
        t.loop.ownMap = [⟨s.start.id, some s.start.func, some s.start.role, 1, .forward, 0⟩] ∧
        t.loop.lastActed = List.replicate 8 none ∧ t.talk.records = List.replicate 4 .empty ∧
        t.talk.views = List.replicate 4 .clear ∧ (∀ k ∈ t.talk.keys, keyActive k.state = false) ∧
        t.queue.outstanding = none ∧ t.snap.pendAllot = false ∧
        (∀ x ∈ t.switches, x.epoch = s.loop.epoch + 1) ∧ (∀ i ∈ t.queue.items, i.stamp = none) ∧
        t.start = s.start ∧ t.supervision = s.supervision ∧ t.lock.level = s.lock.level ∧
        t.pending = s.pending)

/-- MAP_ABSENCE_LIMIT (R8, R58): at the circuit end of the origin's own frame a node of the map that the hop list
omits for the third time leaves the map; the others that it omits are counted, and a node the list names takes
its place in the list, its direction there and absence 0. The frame comes by a port that a FIXED join or a
partner holds UP. That the row has the whole effect of the frame, as PORT_FRAME_RECEIVE has, is the model's
reading (log entry 4). The new map is published, and no claim of the node that left stays on a talk bus (R59,
R138).
Publication (R59): into the first unsent MAP, at the tail of the queue, or owed where 16 messages stand. The purge
of a departed node (R138): on each bus its stacked claims go, and where its claim was decided the top of the rest
follows and a TALK_GRANT is issued; node by node, then bus by bus, is the model's choice (log entry 67). -/
def Obligations.AbsentNodeLeavesMap : Prop :=
  (∀ (p : PortId) (arr : Arrival) (e : OwnMapEntry) (s : State), s.inReset = false →
    Settled s → s.usable p = true → s.wrapAt p = .none →
    frameCheck arr.frame = arr.check → arr.frame.slots.isSome = true → arr.frame.header.rate = s.start.rate →
    (arr.frame.link = none ∧ ((s.port p).flags.fixed = true ∨ (s.port p).clearRun + 1 < 48)) ∨
      ((s.port p).flags.fixed = false ∧ ∃ l k, arr.frame.link = some l ∧ (s.port p).partner = some k ∧
        k.sender = l.sender ∧ k.port = l.port ∧ l.sender ≠ s.start.id ∧ l.offer.hearYou = true ∧
        l.offer.loopName = s.start.loopName ∧ l.offer.rate = s.start.rate) →
    loopMode s ≠ .held → loopMode s ≠ .conflict → s.loop.role = .origin →
    s.loop.group = some arr.frame.header.origin → arr.frame.header.origin.id = s.start.id →
    p = circuitPort s → s.loop.orig.last = some arr.frame.header.count → s.loop.orig.inTime = false →
    e ∈ s.loop.ownMap → (∀ h ∈ arr.frame.header.hops, h.id ≠ e.id) → e.absence = 2 →
    (∀ x ∈ s.loop.ownMap, x.id = e.id → x = e) →
    ∀ c, c = Instr.mapAbsenceLimit p arr ∨ c = Instr.portFrameReceive p arr → ∃ t, exec c s = .next t ∧
      (∀ x ∈ t.loop.ownMap, x.id ≠ e.id) ∧ t.loop.mapSerial = s.loop.mapSerial + 1 ∧
      (∀ x ∈ s.loop.ownMap, (∀ h ∈ arr.frame.header.hops, h.id ≠ x.id) → x.absence < 2 →
        ∃ y ∈ t.loop.ownMap, y.id = x.id ∧ y.pos = x.pos ∧ y.dir = x.dir ∧ y.absence = x.absence + 1) ∧
      (∀ (i : Nat) (h : Hop), arr.frame.header.hops[i]? = some h →
        (∀ (j : Nat) (g : Hop), j < i → arr.frame.header.hops[j]? = some g → g.id ≠ h.id) →
        ∃ y ∈ t.loop.ownMap, y.id = h.id ∧ y.pos = i + 1 ∧ y.dir = h.dir ∧ y.absence = 0) ∧
      (t.loop.mapOwed = true ∨ ∃ m ∈ t.queue.items, m.sends = 0 ∧ m.body = .map t.loop.mapSerial
        (t.loop.ownMap.map fun y => ⟨y.id, y.func, y.role, some y.pos, some y.dir⟩)) ∧
      (∀ b, (∀ c ∈ (busAt t b).stack, c.talker.node ≠ e.id) ∧
        ∀ d, (busAt t b).decided = some d → d.talker.node ≠ e.id) ∧
      t.loop.role = .origin ∧ t.loop.group = s.loop.group ∧ t.start = s.start ∧
      t.lock.level = s.lock.level ∧ t.supervision = s.supervision ∧ t.pending = s.pending) ∧
  (∀ s : State,
    let body : LoopMsg := .map s.loop.mapSerial
      (s.loop.ownMap.map fun y => ⟨y.id, y.func, y.role, some y.pos, some y.dir⟩)
    let unsent (i : QItem) : Prop := i.sends = 0 ∧ ∃ n l, i.body = .map n l
    (∀ before i rest, s.queue.items = before ++ i :: rest → unsent i → (∀ x ∈ before, ¬ unsent x) →
      publishMap s = { s with queue := { s.queue with
        items := before ++ { i with body := body, group := s.loop.group } :: rest } }) ∧
    ((∀ i ∈ s.queue.items, ¬ unsent i) →
      (s.queue.items.length < 16 → publishMap s = { s with queue := queued .all body none .loc s }) ∧
      (16 ≤ s.queue.items.length → publishMap s = { s with loop := { s.loop with mapOwed := true } }))) ∧
  (∀ (n : NodeId) (b : Bus) (gone : List NodeId) (s : State),
    let r := busAt s b
    let rest := r.stack.filter fun c => decide (c.talker.node ≠ n)
    (∀ d, r.decided = some d → d.talker.node = n →
      purgeBus n s b = issueGrant b (setBusRec b { r with decided := rest.head?, stack := rest.tail } s)) ∧
    ((∀ d, r.decided = some d → d.talker.node ≠ n) → purgeBus n s b = setBusRec b { r with stack := rest } s) ∧
    purgeTalk (n :: gone) s = purgeTalk gone ([Bus.tb1, .tb2, .tb3, .tb4].foldl (purgeBus n) s) ∧
    purgeTalk [] s = s)

/-- ITEM_DROP (R13, R15, R166, R184): it acts in the cell-writing modes, on an item sent 4 times and assessed. A
spent head leaves the queue: a LOCK_NOTE or TALK_GRANT is owed (R139), an operation ends LOST, an ALLOT
unsettles the slots it frees and needs a snapshot (R85), a GAIN_NOTE needs one (R117), a TALK_CLAIM drops its
key, a TALK_RELEASE is owed (R134); any other message of no operation leaves with no further effect; a spent piece is
passed over. That an ALLOT's or GAIN_NOTE's change stays in flight also where an epoch change discarded its pending
entry is log entry 65, the model's choice. A stale TALK_GRANT or TALK_REFUSE leaves before it (R139; its group: log
entry 54). That these rows are events of their own, without effect outside their condition, is log
entry 29, the model's reading.
OWED_ADMIT, SNAPSHOT_START (R14, R15, R17, R54, R59, R70, R139, R166): an owed message enters a queue with room as
it stands; a needed snapshot starts when none runs, the allotment one first and only while nothing is outstanding.
The cells of a first visit. Read (R11): repeats, the own cell and other nodes' messages are passed over, the rest is
acted on. Confirmed (R12, R15, R86, R183): the written item leaves the queue, a piece moves on, an operation awaits
its answer, a freeing ALLOT settles its slots. Written (R13, R15, R16, R17, R18): the head, or the current piece in
turn, numbered at its first send (log entry 23), stamped and entered in the node's own list; a switch-bearing head
waits while another item is outstanding. The turn where nothing was written before is log entry 17; that a started
allotment snapshot waits for an outstanding message before its first piece is log entry 56: the model's choices.
A LOCK_NOTE acted on sets the sender's lock view entry (R167).
The local count (R2): an outstanding item ends where its switch frame is passed (R17), and a visited count left
behind by half the range is forgotten (R67; log entry 22, the model's reading). -/
def Obligations.QueueMoves : Prop :=
  (∀ s : State, s.inReset = false → Settled s →
     let live := s.queue.items.dropWhile (staleTalk s)
     (∀ i, staleTalk s i = true ↔ i.group ≠ s.loop.group ∧
       ((∃ b x n d, i.body = .talkGrant b x n d) ∨ ∃ b n k r, i.body = .talkRefuse b n k r)) ∧
     (s.queue.written.isSome = true ∨ writesCells (loopMode s) = false ∨
       ((∀ i, live.head? = some i → i.sends < 4) ∧ (∀ r, s.snap.run = some r → r.sends < 4)) →
       ∃ t, exec .itemDrop s = .next t ∧ Happened [] s s t) ∧
     (∀ i rest, s.queue.written = none → writesCells (loopMode s) = true → s.queue.items = i :: rest →
       4 ≤ i.sends → (∀ r, s.snap.run = some r → r.sends < 4) →
       let dropped : State := { s with queue := { s.queue with items := rest } }
       (∀ n, i.op = none → i.body = .lockNote n → ∃ t, exec .itemDrop s = .next t ∧
         Happened [] s { dropped with lock := { s.lock with noteOwed := true } } t) ∧
       (i.op = none → (∃ p st m q g, i.body = .linkNote p st m q g) ∨ (∃ n l, i.body = .map n l) ∨
           (∃ n, i.body = .snapReq n) ∨ (∃ x l, i.body = .slotAnswer x l) ∨ (∃ x v, i.body = .gainAnswer x v) ∨
           (∃ k, i.body = .wrapPlan k) ∨ (∃ k, i.body = .unwrapPlan k) ∨
           ((∃ b n k r, i.body = .talkRefuse b n k r) ∧ i.group = s.loop.group) →
         ∃ t, exec .itemDrop s = .next t ∧ Happened [] s dropped t) ∧
       (∀ n c, i.op = none → i.body = .allot n c → ∃ t u, exec .itemDrop s = .next t ∧
         (∀ (k : Nat) (x : Bool), s.slots.unsettled[k]? = some x →
           u[k]? = some (x || decide (⟨k, none⟩ ∈ c))) ∧
         Happened [] s { dropped with
           slots := { s.slots with unsettled := u }
           snap := if s.snap.run ≠ none then { s.snap with pendAllot := true }
             else if s.queue.outstanding = none then
               { s.snap with run := some ⟨.allot, 0, 0, 0, none, none⟩, pendAllot := false }
             else if s.snap.pendGain = true then
               { s.snap with run := some ⟨.gain, 0, 0, 0, none, none⟩, pendAllot := true, pendGain := false }
             else { s.snap with pendAllot := true } } t) ∧
       (∀ n g k, i.op = none → i.body = .gainNote n g k → ∃ t, exec .itemDrop s = .next t ∧
         Happened [] s { dropped with
           snap := if s.start.func = .desk then s.snap
             else if s.snap.run ≠ none then { s.snap with pendGain := true }
             else if s.snap.pendAllot = true ∧ s.queue.outstanding = none then
               { s.snap with run := some ⟨.allot, 0, 0, 0, none, none⟩, pendAllot := false, pendGain := true }
             else { s.snap with run := some ⟨.gain, 0, 0, 0, none, none⟩, pendGain := false } } t) ∧
       (∀ b k prio, i.op = none → i.body = .talkClaim b k prio →
         ((keyAt s k).state ≠ .claiming → ∃ t, exec .itemDrop s = .next t ∧ Happened [] s dropped t) ∧
         ((keyAt s k).state = .claiming → s.loop.conflict = none → ∃ t u, exec .itemDrop s = .next t ∧
           ReleaseLeaves k (keyAt s k).bus { keyAt s k with
             state := .dropped, latched := false, press := none, answer := none } dropped u ∧
           Happened [.keyChange k (keyAt s k).bus .dropped false .lost] s u t)) ∧
       (∀ b k, i.op = none → i.body = .talkRelease b k → ∃ t, exec .itemDrop s = .next t ∧
         Happened [] s (setKeyRec k { keyAt s k with releaseOwed := true } dropped) t) ∧
       (∀ b x n d, i.op = none → i.body = .talkGrant b x n d → i.group = s.loop.group →
         ∃ t, exec .itemDrop s = .next t ∧
           Happened [] s (setBusRec b { busAt s b with owed := true } dropped) t) ∧
       (∀ tag o, i.op = some tag → findOp tag s = some o →
         (∃ x l, i.body = .slotClaim x l) ∨ (∃ x l, i.body = .slotRelease x l) ∨
           (∃ x n a b d, i.body = .gainSet x n a b d) ∨ (∃ x n b, i.body = .gainClaim x n b) ∨
           (∃ x n, i.body = .gainYield x n) ∨ (∃ k, i.body = .unwrapPlan k) →
         ∃ t, exec .itemDrop s = .next t ∧
           Happened [.done tag o.kind (.no .lost) (bareResult o)] s
             { dropped with
               switches := s.switches.map fun y => if y.op = some tag then { y with op := none } else y
               ctl := (opEnded ⟨tag, o.kind, .no .lost, bareResult o⟩ s.ctl) } t)) ∧
     (∀ r, s.queue.written = none → writesCells (loopMode s) = true → s.snap.run = some r → 4 ≤ r.sends →
       (∀ i, live.head? = some i → i.sends < 4) →
       r.piece + 1 < (match r.kind with
         | .allot => slotCount s.start.rate / 4
         | .gain => 16) →
       ∃ t, exec .itemDrop s = .next t ∧ Happened [] s { s with
         queue := { s.queue with items := live }
         snap := { s.snap with run := some { r with piece := r.piece + 1, sends := 0, msg := none } } } t)) ∧
  (∀ s : State, s.inReset = false → Settled s →
     let waits : Prop := s.queue.outstanding ≠ none
     (16 ≤ s.queue.items.length → ∃ t, exec .owedAdmit s = .next t ∧ Happened [] s s t) ∧
     (∀ b, s.queue.items.length < 16 → (busAt s b).owed = true → (∀ c, c ≠ b → (busAt s c).owed = false) →
       (∀ k, (keyAt s k).releaseOwed = false) → s.loop.mapOwed = false → s.loop.noteOwedA = false →
       s.loop.noteOwedB = false → s.loop.unwrapOwed = [] → s.lock.noteOwed = false →
       ∃ t, exec .owedAdmit s = .next t ∧
         Happened [] s (issueGrant b (setBusRec b { busAt s b with owed := false } s)) t) ∧
     (∀ k, s.queue.items.length < 16 → (keyAt s k).releaseOwed = true →
       (∀ c, c ≠ k → (keyAt s c).releaseOwed = false) → (∀ b, (busAt s b).owed = false) →
       s.loop.mapOwed = false → s.loop.noteOwedA = false → s.loop.noteOwedB = false → s.loop.unwrapOwed = [] →
       s.lock.noteOwed = false → s.loop.conflict = none → ∃ t u, exec .owedAdmit s = .next t ∧
         ReleaseLeaves k (keyAt s k).bus { keyAt s k with releaseOwed := false } s u ∧ Happened [] s u t) ∧
     ((∀ b, (busAt s b).owed = false) → (∀ k, (keyAt s k).releaseOwed = false) →
       s.queue.items.length < 16 → s.loop.noteOwedA = false → s.loop.noteOwedB = false →
       s.lock.noteOwed = false →
       (s.loop.mapOwed = true → s.loop.unwrapOwed = [] → ∃ t, exec .owedAdmit s = .next t ∧
         Happened [] s (publishMap { s with loop := { s.loop with mapOwed := false } }) t) ∧
       (∀ l, s.loop.mapOwed = false → s.loop.unwrapOwed = [l] → ∃ t, exec .owedAdmit s = .next t ∧
         Happened [] s { s with
           loop := { s.loop with unwrapOwed := [], plan := s.loop.plan.filter fun q => !sameLink l q }
           queue := queued .all (.unwrapPlan l) none .loc s } t)) ∧
     ((∀ b, (busAt s b).owed = false) → (∀ k, (keyAt s k).releaseOwed = false) → s.loop.mapOwed = false →
       s.loop.unwrapOwed = [] → s.queue.items.length < 16 →
       (s.loop.noteOwedA = false → s.loop.noteOwedB = false → s.lock.noteOwed = false →
         ∃ t, exec .owedAdmit s = .next t ∧ Happened [] s s t) ∧
       (s.loop.noteOwedA = true → s.loop.noteOwedB = false → s.lock.noteOwed = false →
         ∃ t, exec .owedAdmit s = .next t ∧ Happened [] s { s with
           loop := { s.loop with noteOwedA := false }
           queue := queued .all (linkNoteOf .a s.portA) none .loc s } t) ∧
       (s.loop.noteOwedA = false → s.loop.noteOwedB = true → s.lock.noteOwed = false →
         ∃ t, exec .owedAdmit s = .next t ∧ Happened [] s { s with
           loop := { s.loop with noteOwedB := false }
           queue := queued .all (linkNoteOf .b s.portB) none .loc s } t) ∧
       (s.loop.noteOwedA = false → s.loop.noteOwedB = false → s.lock.noteOwed = true →
         (∀ i ∈ s.queue.items, i.sends = 0 → ∀ n, i.body ≠ .lockNote n) →
         ∃ t, exec .owedAdmit s = .next t ∧ Happened [] s { s with
           lock := { s.lock with noteOwed := false }
           queue := queued .all (.lockNote s.lock.level) none .loc s } t)) ∧
     ((s.snap.run.isSome = true ∨ (s.snap.pendGain = false ∧ (s.snap.pendAllot = false ∨ waits)) →
         ∃ t, exec .snapshotStart s = .next t ∧ Happened [] s s t) ∧
       (s.snap.run = none → s.snap.pendAllot = true → ¬ waits →
         ∃ t, exec .snapshotStart s = .next t ∧ Happened [] s { s with snap := { s.snap with
           run := some ⟨.allot, 0, 0, 0, none, none⟩, pendAllot := false } } t) ∧
       (s.snap.run = none → s.snap.pendAllot = false ∨ waits → s.snap.pendGain = true →
         ∃ t, exec .snapshotStart s = .next t ∧ Happened [] s { s with snap := { s.snap with
           run := some ⟨.gain, 0, 0, 0, none, none⟩, pendGain := false } } t))) ∧
  (∀ (c : FrameNo) (s : State), (∃ v, (setCount c s).loop = { s.loop with count := c, visits := v } ∧
       ∀ f, f ∈ v ↔ f ∈ s.loop.visits ∧ ¬ ((c - s.loop.count).toNat < 2147483648 ∧
         (s.loop.count - f).toNat < 2147483648 ∧ 2147483648 ≤ (c - f).toNat)) ∧
     (setCount c s).queue = { s.queue with outstanding := s.queue.outstanding.filter fun f => !passed c f }) ∧
  (∀ (h : Header) (n : NodeId) (c : Option Message) (s : State),
     let idle : Prop := n = s.start.id ∨ ∀ m, c = some m →
       (m.dest ≠ none ∧ m.dest ≠ some s.start.id) ∨ s.loop.lastActed.getD n.val none = some m.num
     (idle → readCell h s n c = s) ∧
     (∀ m, c = some m → ¬ idle → readCell h s n c = actOn n h m
       { s with loop := { s.loop with lastActed := s.loop.lastActed.set n.val (some m.num) } })) ∧
  (∀ (w : NodeId) (h : Header) (m : Message) (level : Nat) (s : State), m.body = .lockNote level →
     let t := actOn w h m s
     t.lock = { s.lock with
       view := if w = s.start.id then s.lock.view else s.lock.view.set w.val (some level) } ∧
     SameBlocks { s with lock := t.lock } t ∧
     Raised (if w = s.start.id ∨ s.lock.view.getD w.val none = some level then []
       else [.lockNote w (some level)]) s t) ∧
  (∀ (f : Frame) (s : State), readCells f s =
     [0, 1, 2, 3, 4, 5, 6, 7].foldl (fun a (n : NodeId) => readCell f.header a n (f.cells.getD n.val none)) s) ∧
  (∀ (w : WrittenItem) (f : Frame) (s : State),
     let same : Prop := f.header.count = w.count + 1 ∧ s.loop.epoch = w.epoch ∧ f.header.origin.epoch = w.epoch ∧
       ∃ m, f.cells.getD s.start.id.val none = some m ∧ m.num = w.msg.num ∧ msgKind m.body = msgKind w.msg.body
     let seen : State := { s with queue := { s.queue with written := none } }
     (s.queue.written = none → assess f s = s) ∧
     (s.queue.written = some w → ¬ same → assess f s = seen ∧ tellConfirmed f s = s) ∧
     (∀ i l, s.queue.written = some w → same → w.piece = false → s.queue.items = i :: l →
       ((∀ n c, i.body ≠ .allot n c) →
         assess f s = { s with queue := { s.queue with written := none, items := l } }) ∧
       (∀ n c, i.body = .allot n c → ∃ u, assess f s = { s with
           queue := { s.queue with written := none, items := l }
           switches := s.switches.map fun p =>
             if p.sender = s.start.id ∧ p.item = .msg i.body then { p with confirmed := true } else p
           slots := { s.slots with unsettled := u } } ∧
         ∀ (k : Nat) (x : Bool), s.slots.unsettled[k]? = some x →
           u[k]? = some (x && !decide (⟨k, none⟩ ∈ c ∧ (entryAt s k).serial = some n))) ∧
       (∀ x o, i.op = some x → findOp x s = some o → o.kind ≠ .go → o.kind ≠ .drill →
         findOp x (tellConfirmed f s) = some (if o.kind = .heal then { o with stage := .running }
           else { o with stage := .awaiting, answer := some (500 * 96) }))) ∧
     (∀ r, s.queue.written = some w → same → w.piece = true → s.snap.run = some r →
       r.piece + 1 < (match r.kind with
         | .allot => slotCount s.start.rate / 4
         | .gain => 16) →
       assess f s = { seen with snap := { s.snap with
         run := some { r with piece := r.piece + 1, sends := 0, msg := none } } })) ∧
  (∀ (h : Header) (s : State), (∀ e, s.loop.restart ≠ .prepared e) →
     let dest (d : QDest) : Option NodeId := match d with
       | .all => none
       | .node n => some n
       | .origin => some h.origin.id
     let at' := s.loop.count + BitVec.ofNat 32 s.queue.lead
     let late := at' + BitVec.ofNat 32 (slotCount s.start.rate / 2)
     let t := (chooseCell h s).1
     let c := (chooseCell h s).2
     (s.queue.items = [] → s.snap.run = none →
       c = none ∧ t = { s with queue := { s.queue with written := none, last := .neither } }) ∧
     (∀ i l, s.queue.items = i :: l →
       let m (x : Option FrameNo) : Message := ⟨dest i.dest, i.num, i.body, x⟩
       let sent (x : Option FrameNo) (o : Option FrameNo) : QueueRec := { s.queue with
         items := { i with sends := i.sends + 1, stamp := x } :: l
         written := some ⟨false, m x, h.count, h.origin.epoch⟩
         last := .queue
         outstanding := o }
       let first : Prop := bearsSwitch i.body = true ∧ i.stamp = none
       let held : Prop :=
         bearsSwitch i.body = true ∧ s.queue.outstanding ≠ none ∧ s.queue.outstanding ≠ i.stamp
       (held → s.snap.run = none → c = none ∧ t.queue.items = i :: l) ∧
       (¬ first → ¬ held → s.snap.run = none →
         c = some (m i.stamp) ∧ t.queue = sent i.stamp s.queue.outstanding ∧
         t.switches = s.switches ∧ t.snap = s.snap) ∧
       (first → s.queue.outstanding = none → pendingOf s s.start.id = none → s.snap.run = none →
         c = some (m (some at')) ∧ t.queue = sent (some at') (some at') ∧
         t.switches = s.switches ++ [⟨s.start.id, .msg i.body, at', s.loop.epoch, i.op, false, i.cause⟩]) ∧
       (∀ r, s.snap.run = some r → r.kind = .gain ∨ r.stamp ≠ none →
         cellTurn s = if held ∨ s.queue.last = .queue then .piece else .queue)) ∧
     (∀ r, s.queue.items = [] → s.snap.run = some r →
       (r.kind = .allot → r.stamp = none → s.queue.outstanding ≠ none → c = none ∧ t.snap = s.snap) ∧
       (r.kind = .allot → r.stamp = none → s.queue.outstanding = none → r.msg = none →
         pendingOf s s.start.id = none →
         let body : LoopMsg := .snap s.slots.applied r.piece
           ((List.range 4).map fun i => s.slots.table.getD (4 * r.piece + i) ⟨.free, none, none, none⟩)
         c = some ⟨none, s.queue.nextNum, body, some late⟩ ∧
           t.snap.run = some ⟨.allot, s.slots.applied, r.piece, r.sends + 1, some late, some (s.queue.nextNum, body)⟩ ∧
           t.queue.outstanding = some late ∧ t.queue.nextNum = s.queue.nextNum + 1 ∧ t.queue.last = .piece ∧
           t.switches = s.switches ++
             [⟨s.start.id, .snapshot s.slots.applied, late, s.loop.epoch, none, false, .loc⟩]) ∧
       (r.kind = .gain → r.msg = none →
         let body : LoopMsg := .gainSnap r.piece ((List.range 4).map fun i =>
           ((gainAt s (4 * r.piece + i)).applied, (gainAt s (4 * r.piece + i)).serial))
         c = some ⟨none, s.queue.nextNum, body, r.stamp⟩ ∧
           t.snap.run = some { r with sends := r.sends + 1, msg := some (s.queue.nextNum, body) } ∧
           t.queue.nextNum = s.queue.nextNum + 1 ∧ t.queue.last = .piece ∧ t.switches = s.switches) ∧
       (∀ n b, r.kind = .gain ∨ r.stamp ≠ none → r.msg = some (n, b) →
         c = some ⟨none, n, b, r.stamp⟩ ∧ t.snap.run = some { r with sends := r.sends + 1 } ∧
           t.queue.last = .piece ∧ t.queue.items = [] ∧ t.switches = s.switches))) ∧
  (∀ (f : Frame) (s : State), (writesCells (loopMode s) = false → (writeCell f s).2 = f.cells) ∧
     ∀ i, i ≠ s.start.id.val → (writeCell f s).2[i]? = f.cells[i]?)

/-- SWITCH_APPLY (R18, R57, R71, R117): an entry acts when its switch frame is reached in a period without a first
visit, and leaves the list; the row as an event of its own is log entry 29. The node's own gain note becomes the
applied setting (a mute time of 0 leaves a running timer: log entry 40); a wrap plan that names a usable port of
a CLOSED node wraps it; an unwrap plan releases a PLANNED wrap at a usable port.
What an entry does when it is applied: an ALLOT (R79, R86, R121), an allotment snapshot (R86, R91), another node's
GAIN_NOTE at the cache (R122). How an entry comes into the list (R18, R78, R90; of the node's own epoch alone: log
entry 35), with the gap at an ALLOT (R78, R121), the pieces of a collection (R90, R91) and a GAIN_SNAP piece, which
acts at once (R123). A node configured MASTER enters neither an ALLOT nor a collection (log entry 41, the model's
reading). -/
def Obligations.SwitchApplied : Prop :=
  (∀ (n : NodeId) (s : State), s.inReset = false → Settled s →
    ((∀ x ∈ s.switches, x.sender = n → reached s.loop.count x.frame = false) ∨ s.loop.visited = true →
      ∃ t, exec (.switchApply n) s = .next t ∧ Happened [] s s t) ∧
    (∀ x, pendingOf s n = some x → reached s.loop.count x.frame = true → s.loop.visited = false →
      (∃ t, exec (.switchApply n) s = .next t ∧
        SameBlocks (settle (applySwitch x { s with switches := s.switches.filter fun y => decide (y.sender ≠ n) })) t) ∧
      (∀ i g serial e, x.item = .msg (.gainNote i g serial) → n = s.start.id →
        s.gain.table[i]? = some e → newer8 serial e.serial = true →
        ∃ t, exec (.switchApply n) s = .next t ∧
          t.gain.table = s.gain.table.set i { e with
            applied := g, serial := serial
            inFlight := e.inFlight.filter fun f => decide (f.serial ≠ serial)
            mute := if e.applied.phantom ≠ g.phantom ∧ s.gain.muteMs ≠ 0 then some (s.gain.muteMs * 96)
              else e.mute } ∧
          t.gain.records = (if preampDiffers e.applied g then
              queueRecord ⟨i, g.gain, g.pad, g.phantom⟩ s.gain.records
            else s.gain.records) ∧
          t.switches = s.switches.filter (fun y => decide (y.sender ≠ n)) ∧ t.start = s.start ∧
          t.portA = s.portA ∧ t.portB = s.portB ∧ t.loop = s.loop ∧ t.queue = s.queue ∧ t.snap = s.snap ∧
          t.slots = s.slots ∧ t.talk = s.talk ∧ t.lock = s.lock ∧ t.supervision = s.supervision) ∧
      (∀ l q, x.item = .msg (.wrapPlan l) → linkPortOf l s.start.id = some q → loopMode s = .closed →
        s.usable q = true → ∃ t, exec (.switchApply n) s = .next t ∧
          t.wrapAt q = .planned (some (linkFarOf l s.start.id)) ∧ t.wrapAt (portOther q) = .none ∧
          loopMode t = (match q with
            | .a => .wrappedA
            | .b => .wrappedB) ∧
          (∀ y ∈ t.switches, y.sender ≠ n) ∧ t.start = s.start ∧ t.queue = s.queue ∧ t.snap = s.snap ∧
          t.gain = s.gain ∧ t.talk = s.talk ∧ t.lock = s.lock ∧ t.supervision = s.supervision) ∧
      (∀ l q far, x.item = .msg (.unwrapPlan l) → linkPortOf l s.start.id = some q →
        s.wrapAt q = .planned far → s.usable q = true →
        ∃ t, exec (.switchApply n) s = .next t ∧ t.wrapAt q = .none ∧
          t.wrapAt (portOther q) = s.wrapAt (portOther q) ∧ (∀ y ∈ t.switches, y.sender ≠ n) ∧
          t.start = s.start ∧ t.gain = s.gain ∧ t.lock = s.lock ∧ t.supervision = s.supervision))) ∧
  (∀ (x : PendingSwitch) (serial : Serial) (ch : List SlotChange) (s : State), x.item = .msg (.allot serial ch) →
     let t := applySwitch x s
     let table := ch.foldl (fun l c => l.set c.slot (match c.writer with
       | none => ⟨.free, none, none, some serial⟩
       | some (w, i) => ⟨.assigned, some w, some i, some serial⟩)) s.slots.table
     let own : Prop := s.start.role = .master ∧ x.sender = s.start.id
     let next : Prop := s.start.role ≠ .master ∧ s.slots.current = true ∧
       ∀ r, s.slots.lastApplied = some r → serial = r + 1
     (own → ∃ marks, t.slots = { s.slots with
         table := table, applied := serial, unsettled := marks
         inFlight := ch.foldl (fun l c => l.set c.slot none) s.slots.inFlight } ∧
       marks.length = s.slots.unsettled.length ∧ ∀ (i : Nat) (old : Bool), s.slots.unsettled[i]? = some old →
         ((∃ c ∈ ch, c.slot = i ∧ c.writer = none) → marks[i]? = some (!x.confirmed)) ∧
         ((∃ c ∈ ch, c.slot = i) → (∀ c ∈ ch, c.slot = i → c.writer ≠ none) → marks[i]? = some false) ∧
         ((∀ c ∈ ch, c.slot ≠ i) → marks[i]? = some old)) ∧
     (next → t.slots = { s.slots with table := table, lastApplied := some serial }) ∧
     (¬ own → ¬ next → t = s) ∧
     (own ∨ next → t.gain = s.gain ∧ t.loop = s.loop ∧ t.queue = s.queue ∧ t.switches = s.switches ∧
       ∀ (i : Nat) (a b : SlotEntry), s.slots.table[i]? = some a → table[i]? = some b → i < s.lanes.cache.length →
         let mine : Prop := s.start.func = .stage ∧ b.state = .assigned ∧ b.writer = some s.start.id
         (¬ mine → a.writer ≠ b.writer ∨ a.input ≠ b.input → cacheAt t i = none) ∧
         (¬ mine → a.writer = b.writer → a.input = b.input → cacheAt t i = cacheAt s i) ∧
         (∀ k e, mine → b.input = some k → s.gain.table[k]? = some e →
           cacheAt t i = some (e.applied, e.serial)))) ∧
  (∀ (x : PendingSwitch) (n : Serial) (s : State), x.item = .snapshot n → reached s.loop.count x.frame = true →
     let t := applySwitch x s
     (s.start.role = .master →
       t.slots = { s.slots with unsettled := s.slots.unsettled.map fun _ => false }) ∧
     (∀ c, s.start.role ≠ .master → s.slots.collection = some c →
       let whole : Prop := (∀ y ∈ c.pieces, y ≠ none) ∧ writesCells (loopMode s) = true
       (whole → t.slots = { s.slots with
         table := (c.pieces.filterMap id).flatten
         current := true, lastApplied := some c.serial, collection := none, retry := none }) ∧
       (¬ whole → s.slots.current = true → t = { s with slots := { s.slots with collection := none } }) ∧
       (¬ whole → s.slots.current = false →
         t.slots = { s.slots with collection := none, retry := s.slots.retry.map fun _ => 1000 * 96 } ∧
         ((∀ i ∈ s.queue.items, i.sends = 0 → ∀ k, i.body ≠ .snapReq k) → s.queue.items.length < 16 →
           t.queue = queued .origin (.snapReq s.slots.lastApplied) none .loc s) ∧
         ((∃ i ∈ s.queue.items, i.sends = 0 ∧ ∃ k, i.body = .snapReq k) → t.queue = s.queue)))) ∧
  (∀ (x : PendingSwitch) (i : Nat) (g : GainSetting) (serial : GainSerial) (s : State),
     x.item = .msg (.gainNote i g serial) → x.sender ≠ s.start.id →
     let t := applySwitch x s
     let reads : Prop := s.start.role = .master ∨ s.slots.current = true
     t.gain = s.gain ∧ t.slots = s.slots ∧ t.loop = s.loop ∧ t.queue = s.queue ∧ t.snap = s.snap ∧
     (¬ reads → t = s) ∧
     ∀ (n : Nat) (e : SlotEntry), s.slots.table[n]? = some e → n < s.lanes.cache.length →
       let hit : Prop := reads ∧ e.state = .assigned ∧ e.writer = some x.sender ∧ e.input = some i ∧
         ∀ h r, cacheAt s n = some (h, r) → newer8 serial r = true
       (hit → cacheAt t n = some (g, serial)) ∧ (¬ hit → cacheAt t n = cacheAt s n)) ∧
  (∀ (n : NodeId) (h : Header) (m : Message) (s : State),
     let t := actOn n h m s
     let frame := m.switch.getD s.loop.count
     let held := pendingOf s n
     let freed : State := match held with
       | none => s
       | some p => applySwitch p { s with switches := s.switches.filter fun y => decide (y.sender ≠ n) }
     let made (item : SwitchItem) : PendingSwitch := ⟨n, item, frame, s.loop.epoch, none, false, .loc⟩
     let gap (r serial : Serial) : Prop := newer16 serial r = true ∧ serial ≠ r + 1
     (∀ serial ch, m.body = .allot serial ch →
       let ref : Option Serial := match held.map PendingSwitch.item with
         | some (.msg (.allot k _)) => some k
         | _ => s.slots.lastApplied
       let missed : Prop := s.slots.current = true ∧ ∃ r, ref = some r ∧ gap r serial
       (s.start.role = .master → t = s) ∧
       (s.start.role ≠ .master → ¬ missed →
         t = if h.origin.epoch = s.loop.epoch then { freed with switches := freed.switches ++ [made (.msg m.body)] }
           else s) ∧
       (s.start.role ≠ .master → missed → held = none → t.slots.current = false ∧
         t.lanes.cache = s.lanes.cache.map (fun _ => none) ∧ t.slots.table = s.slots.table ∧
         ((∀ i ∈ s.queue.items, i.sends = 0 → ∀ k, i.body ≠ .snapReq k) → s.queue.items.length < 16 →
           t.queue = queued .origin (.snapReq s.slots.lastApplied) none .loc s) ∧
         t.switches = if h.origin.epoch = s.loop.epoch then s.switches ++ [made (.msg m.body)]
           else s.switches)) ∧
     ((∃ i g k, m.body = .gainNote i g k) ∨ (∃ l, m.body = .wrapPlan l) ∨ (∃ l, m.body = .unwrapPlan l) →
       t = if h.origin.epoch = s.loop.epoch then { freed with switches := freed.switches ++ [made (.msg m.body)] }
         else s) ∧
     (∀ serial k es, m.body = .snap serial k es →
       let fresh : Option Collection := some ⟨serial, frame,
         (List.replicate (slotCount s.start.rate / 4) none).set k (some es)⟩
       (s.start.role = .master ∨ h.origin.epoch ≠ s.loop.epoch → t = s) ∧
       (s.start.role ≠ .master → h.origin.epoch = s.loop.epoch →
         (∀ c, s.slots.collection = some c → c.serial = serial → c.frame = frame →
           t = { s with slots := { s.slots with collection := some { c with pieces := c.pieces.set k (some es) } } }) ∧
         ((∀ c, s.slots.collection = some c → c.serial ≠ serial ∨ c.frame ≠ frame) → held = none →
           t = { s with
             slots := { s.slots with collection := fresh }
             switches := s.switches ++ [made (.snapshot serial)] }) ∧
         (∀ p j, (∀ c, s.slots.collection = some c → c.serial ≠ serial ∨ c.frame ≠ frame) → held = some p →
           p.item = .snapshot j → reached s.loop.count p.frame = false →
           t = { s with
             slots := { s.slots with collection := fresh }
             switches := s.switches.filter (fun y => decide (y.sender ≠ n)) ++ [made (.snapshot serial)] }) ∧
         (∀ p, (∀ c, s.slots.collection = some c → c.serial ≠ serial ∨ c.frame ≠ frame) → held = some p →
           (∃ b, p.item = .msg b) ∨ reached s.loop.count p.frame = true →
           t = { freed with
             slots := { freed.slots with collection := fresh }
             switches := freed.switches ++ [made (.snapshot serial)] }))) ∧
     (∀ k es, m.body = .gainSnap k es →
       let reads : Prop := s.start.role = .master ∨ s.slots.current = true
       (¬ reads → t = s) ∧ t.gain = s.gain ∧ t.slots = s.slots ∧ t.switches = s.switches ∧
       ∀ (i : Nat) (e : SlotEntry), s.slots.table[i]? = some e → i < s.lanes.cache.length →
         (∀ (j : Nat) (g : GainSetting) (q : GainSerial), reads → e.state = .assigned → e.writer = some n →
           e.input = some (4 * k + j) → es[j]? = some (g, q) →
           ((∀ g' r, cacheAt s i = some (g', r) → newer8 q r = true) → cacheAt t i = some (g, q)) ∧
           (∀ g' r, cacheAt s i = some (g', r) → newer8 q r = false → cacheAt t i = cacheAt s i)) ∧
         (e.state ≠ .assigned ∨ e.writer ≠ some n ∨ (∀ j, j < es.length → e.input ≠ some (4 * k + j)) →
           cacheAt t i = cacheAt s i)))

/-- HEAL and HEAL_TIMER_EXPIRY (R69, R70, R164, R183): HEAL's checks in order, the operation table and the queue
after them (a full table and 12 queued messages BUSY, a tag in use STATE); a HEAL of a ready link stops its heal
timer and queues the UNWRAP_PLAN; an expiry makes the link healable, and under AUTO queues the plan, or owes it
where 16 messages stand. A timer that is not due has no effect (log entry 3); a link's timer is kept at one of
its ends (log entry 27).
MARGINAL newly set at a usable port (R55, R56): where pre-emption is on, the mode CLOSED, no plan in force, no
wrapped mark in the table and the partner in the map, the master queues the WRAP_PLAN and puts its plan record in
force with it (before the first send: log entry 41, the model's reading); a full queue discards it.
An end reported not usable sets the wrapped mark of its entry and of its partner's, and ends a plan for the link
(R55, R56). A link is ready by R69, kept at its end of lower id (log entry 27, the model's choice); each judgement
starts the heal timer where it becomes ready and stops it where it ceases. HEAL names a ready link, for ANY the
first by R70.
The master's own UNWRAP_PLAN clears both marks where every end in its map is still usable, and else none (R70). -/
def Obligations.LinksHeal : Prop :=
  (∀ (tag : Byte) (target : HealTarget) (n : NodeId) (p : PortId) (s : State), Settled s →
    let range : Prop := ∃ x q, target = .linkEnd x q ∧ 8 ≤ x
    let timer (l : Link) : List (Option LinkEntry) := s.loop.links.set (linkIndex l.node l.port)
      (some { (linkAt s l.node l.port).getD LinkEntry.empty with heal := none })
    let plan (l : Link) : Option Link := s.loop.plan.filter fun q => !sameLink l q
    (Taken s → range → ∃ t, exec (.heal tag target) s = .next t ∧
      Answered tag (.refused .range) [] s (goodRequest s) t) ∧
    (Taken s → ¬ range → s.start.role ≠ .master → ∃ t, exec (.heal tag target) s = .next t ∧
      Answered tag (.refused .notMaster) [] s (goodRequest s) t) ∧
    (Taken s → ¬ range → s.start.role = .master → 3 ≤ s.lock.level →
      ∃ t, exec (.heal tag target) s = .next t ∧ Answered tag (.refused .locked) [] s (goodRequest s) t) ∧
    (Taken s → ¬ range → s.start.role = .master → s.lock.level < 3 →
      s.loop.role = .follower ∨ healLink s target = none → ∃ t, exec (.heal tag target) s = .next t ∧
        Answered tag (.refused .state) [] s (goodRequest s) t) ∧
    (∀ l, Taken s → ¬ range → s.start.role = .master → s.lock.level < 3 → s.loop.role = .origin →
      healLink s target = some l →
      (8 ≤ opCount s → ∃ t, exec (.heal tag target) s = .next t ∧ Answered tag .busy [] s (goodRequest s) t) ∧
      (opCount s < 8 → (findOp tag s).isSome = true → ∃ t, exec (.heal tag target) s = .next t ∧
        Answered tag (.refused .state) [] s (goodRequest s) t) ∧
      (opCount s < 8 → findOp tag s = none → 12 ≤ s.queue.items.length →
        ∃ t, exec (.heal tag target) s = .next t ∧ Answered tag .busy [] s (goodRequest s) t)) ∧
    (∀ l, Taken s → ¬ range → s.start.role = .master → s.lock.level < 3 → s.loop.role = .origin →
      healLink s target = some l → opCount s < 8 → findOp tag s = none → s.queue.items.length < 12 →
      ∃ t, exec (.heal tag target) s = .next t ∧ Answered tag .started [] s { goodRequest s with
        loop := { s.loop with links := timer l, plan := plan l }
        queue := queued .all (.unwrapPlan l) (some tag) .loc s
        ctl := { (goodRequest s).ctl with
          ops := placeOp ⟨tag, .heal, .queued, none, none, none⟩ s.ctl.ops } } t) ∧
    (s.inReset = false → (∀ e, linkAt s n p = some e → e.heal ≠ some 0) →
      ∃ t, exec (.healTimerExpiry n p) s = .next t ∧ Happened [] s s t) ∧
    (∀ e, s.inReset = false → linkAt s n p = some e → e.heal = some 0 →
      let links := s.loop.links.set (linkIndex n p) (some { e with heal := none, healable := true })
      (s.loop.policy = .onCommand ∨ e.partner = none → ∃ t, exec (.healTimerExpiry n p) s = .next t ∧
        Happened [] s { s with loop := { s.loop with links := links } } t) ∧
      (∀ far, s.loop.policy = .auto → e.partner = some far → s.queue.items.length < 16 →
        ∃ t, exec (.healTimerExpiry n p) s = .next t ∧ Happened [] s { s with
          loop := { s.loop with links := links, plan := plan ⟨n, p, far, portOther p⟩ }
          queue := queued .all (.unwrapPlan ⟨n, p, far, portOther p⟩) none .loc s } t) ∧
      (∀ far, s.loop.policy = .auto → e.partner = some far → 16 ≤ s.queue.items.length →
        ⟨n, p, far, portOther p⟩ ∉ s.loop.unwrapOwed →
        ∃ t, exec (.healTimerExpiry n p) s = .next t ∧ Happened [] s { s with
          loop := { s.loop with
            links := links, unwrapOwed := s.loop.unwrapOwed ++ [⟨n, p, far, portOther p⟩] } } t))) ∧
  (∀ (n : NodeId) (p : PortId) (far : NodeId) (g : Option OriginGroup) (s : State),
    let t := takeLinkNote n p (.port .up) true (some far) g s
    let l : Link := ⟨n, p, far, portOther p⟩
    let fresh : Prop := ∀ e, linkAt s n p = some e → e.marginal = false
    let allowed : Prop := s.loop.preempt = true ∧ loopMode s = .closed ∧ s.loop.plan = none ∧
      (∀ e, some e ∈ s.loop.links → e.wrapped = false) ∧ ∃ e ∈ s.loop.ownMap, e.id = far
    (s.start.role ≠ .master → t = s) ∧
    (s.start.role = .master → fresh ∧ allowed →
      (s.queue.items.length < 16 → t.loop.plan = some l ∧ t.queue = queued .all (.wrapPlan l) none .loc s) ∧
      (16 ≤ s.queue.items.length → t.loop.plan = none ∧ t.queue = s.queue ∧
        Raised [.loopChange (loopView s) (.queueFull 19)] s t)) ∧
    (s.start.role = .master → ¬ (fresh ∧ allowed) → t.loop.plan = s.loop.plan ∧ t.queue = s.queue) ∧
    (s.start.role = .master → s.loop.links.length = 16 → ∃ e, linkAt t n p = some e ∧ e.state = some (.port .up) ∧
      e.marginal = true ∧ e.partner = some far ∧ e.group = g) ∧
    t.slots = s.slots ∧ t.gain = s.gain ∧ t.talk = s.talk ∧ t.lock = s.lock ∧ t.loop.ownMap = s.loop.ownMap ∧
    t.loop.wrapA = s.loop.wrapA ∧ t.loop.wrapB = s.loop.wrapB) ∧
  (∀ (n : NodeId) (p : PortId) (st : LinkState) (marginal : Bool) (x : Option NodeId) (g : Option OriginGroup)
    (s : State), st ≠ .port .up → s.start.role = .master → s.loop.links.length = 16 →
    let t := takeLinkNote n p st marginal x g s
    let known := x.orElse fun _ => (linkAt s n p).bind (·.partner)
    let names (l : Link) : Prop := (l.node = n ∧ l.port = p) ∨ (l.farNode = n ∧ l.farPort = p)
    (∃ e, linkAt t n p = some e ∧ e.state = some st ∧ e.marginal = marginal ∧ e.partner = known ∧ e.group = g ∧
      e.wrapped = true) ∧
    (∀ far, known = some far → ∃ f, linkAt t far (portOther p) = some f ∧ f.wrapped = true) ∧
    (∀ m q, (m ≠ n ∨ q ≠ p) → (known ≠ some m ∨ q ≠ portOther p) →
      (linkAt t m q).map (·.wrapped) = (linkAt s m q).map (·.wrapped)) ∧
    (∀ l, s.loop.plan = some l → (names l → t.loop.plan = none) ∧ (¬ names l → t.loop.plan = some l)) ∧
    (s.loop.plan = none → t.loop.plan = none) ∧ t.queue = s.queue) ∧
  (∀ (n : NodeId) (p : PortId) (e : LinkEntry) (s : State),
    let onMap (m : NodeId) : Prop := ∃ x ∈ s.loop.ownMap, x.id = m
    let good (y : LinkEntry) : Prop := y.state = some (.port .up) ∧ y.marginal = false
    let other (far : NodeId) (f : LinkEntry) : Prop :=
      e.partner = some far ∧ linkAt s far (portOther p) = some f ∧ f.partner = some n
    linkReady s n p e = true ↔ (e.wrapped = true ∨ ∃ far f, other far f ∧ f.wrapped = true) ∧ onMap n ∧ good e ∧
      ∃ far, e.partner = some far ∧
        (onMap far → (n.val < far.val ∨ (n = far ∧ p = .a)) ∧ ∃ f, other far f ∧ good f) ∧
        (¬ onMap far → ∀ y, e.group = some y → ∃ own, s.loop.group = some own ∧ groupWins own y = true)) ∧
  (∀ s : State, s.start.role = .master →
    let t := judgeLinks s
    (∀ n p e, linkAt s n p = some e → ∃ e', linkAt t n p = some e' ∧ e'.ready = linkReady s n p e ∧
      e' = { e with ready := e'.ready, heal := e'.heal, healable := e'.healable } ∧
      ((∀ far f, e.partner = some far → linkAt s far (portOther p) = some f → f.ready = false) →
        (e.ready = true → e'.ready = true → e' = e) ∧
        (e.ready = false → e'.ready = true → e'.heal = some (s.loop.healDelay * 100 * 96) ∧ e'.healable = false) ∧
        (e.ready = true → e'.ready = false → e'.heal = none ∧ e'.healable = false))) ∧
    (∀ n p, linkAt s n p = none → linkAt t n p = none) ∧
    t = { s with loop := { s.loop with links := t.loop.links, unwrapOwed := t.loop.unwrapOwed } }) ∧
  (∀ (target : HealTarget) (s : State),
    let named (l : Link) : Prop := ∀ k r, target = .linkEnd k r →
      (l.node.val = k ∧ l.port = r) ∨ (l.farNode.val = k ∧ l.farPort = r)
    let may (l : Link) : Prop := l.farPort = portOther l.port ∧
      ∃ e, linkAt s l.node l.port = some e ∧ e.ready = true ∧ e.partner = some l.farNode
    let first (l : Link) : Nat := min (linkIndex l.node l.port) (linkIndex l.farNode l.farPort)
    (healLink s target = none → ∀ l, may l → ¬ named l) ∧
    (∀ l, healLink s target = some l → may l ∧ named l ∧
      (target = .any → ∀ k, may k → first l ≤ first k))) ∧
  (∀ (x : PendingSwitch) (l : Link) (s : State), x.item = .msg (.unwrapPlan l) → x.sender = s.start.id →
    s.start.role = .master → s.loop.links.length = 16 →
    let t := applySwitch x s
    let stands (n : NodeId) (p : PortId) : Prop := (∃ y ∈ s.loop.ownMap, y.id = n) →
      ∃ e, linkAt s n p = some e ∧ e.state = some (.port .up)
    let mine (n : NodeId) (p : PortId) : Prop := (n = l.node ∧ p = l.port) ∨ (n = l.farNode ∧ p = l.farPort)
    (stands l.node l.port → stands l.farNode l.farPort → ∀ n p,
      (mine n p → ∃ e, linkAt t n p = some e ∧ e.wrapped = false) ∧
      (¬ mine n p → (linkAt t n p).map (·.wrapped) = (linkAt s n p).map (·.wrapped))) ∧
    (¬ (stands l.node l.port ∧ stands l.farNode l.farPort) → t.loop.links = s.loop.links))

/-- LOOP_RESET (R14, R73, R164): its checks in order; at a master that originates the queue is emptied, every
operation with a message in it leaves the table, and a RESTART with the next epoch is prepared. A snapshot piece
written at the last visit is still to be assessed (R12). -/
def Obligations.LoopResetPrepared : Prop :=
  ∀ (tag : Byte) (s : State), Taken s → Settled s →
    let state : Prop := s.loop.role = .follower ∨ loopMode s = .isolated ∨ s.loop.restart ≠ .idle
    (s.start.role ≠ .master → ∃ t, exec (.loopReset tag) s = .next t ∧
      Answered tag (.refused .notMaster) [] s (goodRequest s) t) ∧
    (s.start.role = .master → 1 ≤ s.lock.level → ∃ t, exec (.loopReset tag) s = .next t ∧
      Answered tag (.refused .locked) [] s (goodRequest s) t) ∧
    (s.start.role = .master → s.lock.level = 0 → state → ∃ t, exec (.loopReset tag) s = .next t ∧
      Answered tag (.refused .state) [] s (goodRequest s) t) ∧
    (s.start.role = .master → s.lock.level = 0 → ¬ state → ∃ t, exec (.loopReset tag) s = .next t ∧
      Replied tag .ok s t ∧
      t.queue = { s.queue with items := [], written := s.queue.written.filter fun w => w.piece } ∧
      t.loop = { s.loop with restart := .prepared (s.loop.epoch + 1) } ∧
      (∀ i ∈ s.queue.items, ∀ x, i.op = some x → findOp x t = none) ∧ t.start = s.start ∧
      t.portA = s.portA ∧ t.portB = s.portB ∧ t.talk = s.talk ∧ t.lock = s.lock ∧
      t.slots.table = s.slots.table ∧ t.supervision = (goodRequest s).supervision ∧ t.pending = s.pending)

/-- RESTART_WRITE and RESTART_EPOCH_TAKE (R2, R73, R168): the origination after LOOP_RESET writes the RESTART; the
one after that takes the new epoch, and restarts a running silence timer. Elsewhere the rows have no effect;
each is the next period's origination made early (log entry 6, the model's choice).
A RESTART acted on by a node that is not ORIGIN is a LOOP reset of the node (R14, R61, R62, R73, R144, R166, R168):
its queue is emptied, the operations of the messages in it end LOST, its group takes the new epoch, and the epoch's
LOCK_NOTE stands in the queue alone. At an ORIGIN it is passed over (log entry 35, the model's reading); release
owed of a key without a claim stands (log entry 38, the model's choice). -/
def Obligations.RestartCarriedOut : Prop :=
  (∀ (now : Nanos) (s : State), s.inReset = false → Settled s →
    let active : Prop := s.loop.role = .origin ∧ s.start.held = false ∧ s.loop.conflict = none ∧
      s.loop.originated = false
    (∀ e g, active → writesCells (loopMode s) = true → s.loop.restart = .prepared e →
      s.loop.group = some g → ∃ t, exec (.restartWrite now) s = .next t ∧ t.loop.restart = .written e ∧
        t.loop.count = s.loop.count + 1 ∧ t.loop.epoch = s.loop.epoch ∧ t.loop.group = s.loop.group ∧
        t.loop.role = .origin ∧ t.loop.originated = true ∧ t.start = s.start ∧
        t.supervision = s.supervision ∧ t.lock.level = s.lock.level ∧ t.pending = s.pending) ∧
    (¬ active ∨ writesCells (loopMode s) = false ∨ (∀ e, s.loop.restart ≠ .prepared e) →
      ∃ t, exec (.restartWrite now) s = .next t ∧ Happened [] s s t) ∧
    (∀ e g, active → s.loop.restart = .written e → s.loop.group = some g →
      ∃ t, exec (.restartEpochTake now) s = .next t ∧ t.loop.restart = .idle ∧ t.loop.epoch = e ∧
        t.loop.group = some { g with epoch := e } ∧ t.loop.count = s.loop.count + 1 ∧
        t.loop.role = .origin ∧ t.loop.originated = true ∧ t.start = s.start ∧
        t.supervision = { s.supervision with
          timer := s.supervision.timer.map fun _ => s.supervision.periodMs * 96 } ∧
        t.lock.level = s.lock.level ∧ t.pending = s.pending) ∧
    (¬ active ∨ (∀ e, s.loop.restart ≠ .written e) →
      ∃ t, exec (.restartEpochTake now) s = .next t ∧ Happened [] s s t)) ∧
  (∀ (w : NodeId) (h : Header) (m : Message) (e : Epoch) (s : State), m.body = .restart e →
    let t := actOn w h m s
    (s.loop.role = .origin ∨ s.loop.group = none → t = s) ∧
    (∀ g, s.loop.role = .follower → s.loop.group = some g →
      let next : OriginGroup := { g with epoch := e }
      let lost (x : Byte) : Prop := ∃ i ∈ s.queue.items, i.op = some x
      t.loop.group = some next ∧ t.loop.epoch = e ∧ t.loop.role = .follower ∧ t.loop.following = true ∧
      t.loop.timeout = 0 ∧ t.loop.count = s.loop.count ∧ t.loop.wrapA = s.loop.wrapA ∧
      t.loop.wrapB = s.loop.wrapB ∧ t.loop.lastActed = List.replicate 8 none ∧
      t.queue = { s.queue with
        items := [⟨s.queue.nextNum, .all, .lockNote s.lock.level, 0, none, none, some next, .loc⟩]
        nextNum := s.queue.nextNum + 1, written := none, outstanding := none } ∧
      (∀ x ∈ t.switches, x.epoch = e) ∧ t.slots.collection = none ∧
      (s.start.role ≠ .master → t.slots.current = false) ∧
      (∀ x o, lost x → findOp x s = some o → findOp x t = none ∧
        (s.ctl.ops.length ≤ 8 → ⟨x, o.kind, .no .lost, bareResult o⟩ ∈ t.ctl.ended)) ∧
      t.talk.views = List.replicate 4 .clear ∧
      t.talk.keys = s.talk.keys.map (fun k => if keyActive k.state then { k with
        state := .dropped, latched := false, press := none, answer := none, releaseOwed := false } else k) ∧
      t.supervision = { s.supervision with
        timer := s.supervision.timer.map fun _ => s.supervision.periodMs * 96 } ∧
      (e ≠ g.epoch → t.ctl.notices.length < 32 →
        t.ctl.notices.getLast? = some (.loopChange (loopView t) .restart)) ∧
      t.start = s.start ∧ t.portA = s.portA ∧ t.portB = s.portB ∧ t.lock.level = s.lock.level ∧
      t.pending = s.pending))

/-! ### Slots (Section 4) -/

/-- The master's arbitration of one pair and of one slot of a release (R83, R84): the first line of each table
that applies; pairs and slots are taken in order, each seeing the changes of the earlier ones. -/
def Obligations.SlotTables : Prop :=
  ∀ (rate : Rate) (r : SlotRec) (w : NodeId) (taken : List Nat),
    let flying (n : Nat) : Prop := (r.inFlight.getD n none).isSome = true ∨ n ∈ taken
    let entry (n : Nat) : SlotEntry := r.table.getD n slotFree
    let settled (n : Nat) : Prop := r.unsettled.getD n false = false
    let free (n : Nat) : Prop := (entry n).state = .free ∧ settled n ∧ ¬ flying n
    (∀ n i, n < slotCount rate → firstTalk rate ≤ n →
      claimPair rate r w taken ⟨some n, i⟩ = (.refused .reserved, none)) ∧
    (∀ n i, n < firstTalk rate →
      (flying n → claimPair rate r w taken ⟨some n, i⟩ = (.refused .taken, none)) ∧
      (¬ flying n → (entry n).state = .free → ¬ settled n →
        claimPair rate r w taken ⟨some n, i⟩ = (.refused .taken, none)) ∧
      (free n → claimPair rate r w taken ⟨some n, i⟩ = (.slot n, some ⟨n, some (w, i)⟩)) ∧
      (¬ flying n → (entry n).state = .assigned → (entry n).writer = some w → (entry n).input = some i →
        claimPair rate r w taken ⟨some n, i⟩ = (.slot n, none)) ∧
      (¬ flying n → (entry n).state = .assigned → (entry n).writer = some w → (entry n).input ≠ some i →
        claimPair rate r w taken ⟨some n, i⟩ = (.slot n, some ⟨n, some (w, i)⟩)) ∧
      (¬ flying n → (entry n).state = .assigned → (entry n).writer ≠ some w →
        claimPair rate r w taken ⟨some n, i⟩ = (.refused .taken, none))) ∧
    (∀ n i, n < firstTalk rate → free n → (∀ m, m < n → ¬ free m) →
      claimPair rate r w taken ⟨none, i⟩ = (.slot n, some ⟨n, some (w, i)⟩)) ∧
    (∀ i, (∀ m, m < firstTalk rate → ¬ free m) →
      claimPair rate r w taken ⟨none, i⟩ = (.refused .full, none)) ∧
    (∀ p ps, claimPairs rate r w taken (p :: ps) =
      ((claimPair rate r w taken p).1 ::
          (claimPairs rate r w (((claimPair rate r w taken p).2.map (·.slot)).toList ++ taken) ps).1,
        (claimPair rate r w taken p).2.toList ++
          (claimPairs rate r w (((claimPair rate r w taken p).2.map (·.slot)).toList ++ taken) ps).2)) ∧
    (∀ n ns force, releaseSlots rate r w force taken (n :: ns) =
      ((releaseSlot1 rate r w force taken n).1 ::
          (releaseSlots rate r w force
            (((releaseSlot1 rate r w force taken n).2.map (·.slot)).toList ++ taken) ns).1,
        (releaseSlot1 rate r w force taken n).2.toList ++
          (releaseSlots rate r w force
            (((releaseSlot1 rate r w force taken n).2.map (·.slot)).toList ++ taken) ns).2)) ∧
    (∀ n force, n < slotCount rate → firstTalk rate ≤ n →
      releaseSlot1 rate r w force taken n = (.refused .reserved, none)) ∧
    (∀ n force, n < firstTalk rate →
      (flying n → releaseSlot1 rate r w force taken n = (.refused .state, none)) ∧
      (¬ flying n → (entry n).state = .assigned → (entry n).writer = some w ∨ force = true →
        releaseSlot1 rate r w force taken n = (.slot n, some ⟨n, none⟩)) ∧
      (¬ flying n → (entry n).state ≠ .assigned ∨ ((entry n).writer ≠ some w ∧ force = false) →
        releaseSlot1 rate r w force taken n = (.refused .notOwner, none)))

/-- The admission of a long request that queues a message (R14, R183): a full table, a tag in use, 12 messages.
CLAIM_SLOT and RELEASE_SLOT (R80, R81, R165, R183): the checks in order; elsewhere than at the master a
request that passes is answered STARTED and its message for the master queued. -/
def Obligations.SlotsAsked : Prop :=
  (∀ (tag : Byte) (s : State),
     (8 ≤ opCount s → admission tag true s = some .busy) ∧
     (opCount s < 8 → (findOp tag s).isSome = true → admission tag true s = some (.refused .state)) ∧
     (opCount s < 8 → findOp tag s = none → 12 ≤ s.queue.items.length →
       admission tag true s = some .busy) ∧
     (opCount s < 8 → findOp tag s = none → s.queue.items.length < 12 → admission tag true s = none)) ∧
  (∀ (tag : Byte) (pairs : List ClaimPair) (slots : List Nat) (force : Bool) (c : Instr) (fits : Prop)
     (forced : Prop) (k : OpKind) (msg : LoopMsg) (s : State), Taken s → Settled s →
     (c = .claimSlot tag pairs ∧ k = .claimSlot ∧ msg = .slotClaim tag pairs ∧ ¬ forced ∧
         (fits ↔ 1 ≤ pairs.length ∧ pairs.length ≤ 4 ∧ ∀ x ∈ pairs, x.input < 64 ∧
           ∀ n, x.slot = some n → n < slotCount s.start.rate)) ∨
       (c = .releaseSlot tag slots force ∧ k = .releaseSlot ∧ msg = .slotRelease tag slots ∧
         (forced ↔ force = true) ∧
         (fits ↔ 1 ≤ slots.length ∧ slots.length ≤ 4 ∧ ∀ n ∈ slots, n < slotCount s.start.rate)) →
     let stopped : Prop := s.start.held = true ∨ s.loop.conflict ≠ none
     let lockedOut : Prop := s.start.role ≠ .master ∧ ∃ l, s.lock.loopLevel = some l ∧ 1 ≤ l
     let deputy : Prop := s.loop.role = .origin ∧ ∃ g, s.loop.group = some g ∧ g.rank = .deputy
     let other : Prop := deputy ∨ (forced ∧ s.start.role ≠ .master)
     (¬ fits → ∃ t, exec c s = .next t ∧ Answered tag (.refused .range) [] s (goodRequest s) t) ∧
     (fits → stopped → ∃ t, exec c s = .next t ∧ Answered tag (.refused .state) [] s (goodRequest s) t) ∧
     (fits → ¬ stopped → lockedOut → ∃ t, exec c s = .next t ∧
       Answered tag (.refused .locked) [] s (goodRequest s) t) ∧
     (fits → ¬ stopped → ¬ lockedOut → other → ∃ t, exec c s = .next t ∧
       Answered tag (.refused .notMaster) [] s (goodRequest s) t) ∧
     (fits → ¬ stopped → ¬ lockedOut → ¬ other → s.start.role ≠ .master →
       (∀ r, admission tag true s = some r → ∃ t, exec c s = .next t ∧
         Answered tag r [] s (goodRequest s) t) ∧
       (admission tag true s = none → ∃ t, exec c s = .next t ∧ Answered tag .started [] s
         { goodRequest s with
           queue := queued .origin msg (some tag) .loc s
           ctl := { (goodRequest s).ctl with
             ops := placeOp ⟨tag, k, .queued, none, none, none⟩ s.ctl.ops } } t)) ∧
     (fits → ¬ stopped → ¬ other → s.start.role = .master → 12 ≤ s.queue.items.length →
       ∃ t, exec c s = .next t ∧ Answered tag .busy [] s (goodRequest s) t))

/-- CLAIM_SLOT and RELEASE_SLOT at the master (R80, R81, R85, R165): at lock level 1 every pair is refused LOCKED;
else the results are answered at once, and the changes decided are in flight under a new serial, with their
ALLOT queued.
SLOT_CLAIM and SLOT_RELEASE acted on (R82 to R85): a deputy origin answers NOT_MASTER, a node that is neither master
nor origin passes them over; at the master a repeat is answered from the sender's answer record, with 15 messages
queued every pair is refused STATE, with 16 nothing is done, from lock level 1 on every pair is refused LOCKED; else
the ALLOT of the changes enters the queue, then the SLOT_ANSWER, and the answer record takes what was answered.
SLOT_ANSWER ends the operation of its tag that awaits it, and nothing else (R87, R184; log entry 23). SNAP_REQ at
the master records the serial it carries and needs an allotment snapshot (R15, R88, R92), marked pending also while
it only waits (log entry 18, the model's reading); elsewhere it is passed over. -/
def Obligations.SlotsDecided : Prop :=
  (∀ (tag : Byte) (pairs : List ClaimPair) (slots : List Nat) (force : Bool) (s : State), Taken s →
    Settled s → s.start.role = .master → s.start.held = false → s.loop.conflict = none →
    (∀ g, s.loop.role = .origin → s.loop.group = some g → g.rank = .master) →
    s.queue.items.length < 12 →
    ∀ c n res ch,
      (c = .claimSlot tag pairs ∧ n = pairs.length ∧ 1 ≤ n ∧ n ≤ 4 ∧
          (∀ x ∈ pairs, x.input < 64 ∧ ∀ m, x.slot = some m → m < slotCount s.start.rate) ∧
          (res, ch) = claimPairs s.start.rate s.slots s.start.id [] pairs) ∨
        (c = .releaseSlot tag slots force ∧ n = slots.length ∧ 1 ≤ n ∧ n ≤ 4 ∧
          (∀ m ∈ slots, m < slotCount s.start.rate) ∧
          (res, ch) = releaseSlots s.start.rate s.slots s.start.id force [] slots) →
      (1 ≤ s.lock.level → ∃ t, exec c s = .next t ∧
        Answered tag (.data (.pairs (List.replicate n (.refused .locked)))) [] s (goodRequest s) t) ∧
      (s.lock.level = 0 → ch = [] → ∃ t, exec c s = .next t ∧
        Answered tag (.data (.pairs res)) [] s (goodRequest s) t) ∧
      (s.lock.level = 0 → ch ≠ [] → ∃ t, exec c s = .next t ∧
        Answered tag (.data (.pairs res)) [] s { goodRequest s with
          slots := { s.slots with
            issued := s.slots.issued + 1
            inFlight := ch.foldl (fun l x => l.set x.slot (some (x, s.slots.issued + 1))) s.slots.inFlight }
          queue := queued .all (.allot (s.slots.issued + 1) ch) none .loc s } t)) ∧
  (∀ (w : NodeId) (h : Header) (m : Message) (tag : Byte) (n : Nat) (res : List PairResult) (ch : List SlotChange)
    (s : State),
    (∃ pairs, m.body = .slotClaim tag pairs ∧ n = pairs.length ∧
        (res, ch) = claimPairs s.start.rate s.slots w [] pairs) ∨
      (∃ slots, m.body = .slotRelease tag slots ∧ n = slots.length ∧
        (res, ch) = releaseSlots s.start.rate s.slots w false [] slots) →
    let t := actOn w h m s
    let every (why : Reason) : List PairResult := List.replicate n (.refused why)
    let sends (l : List PairResult) : Prop :=
      (s.queue.items.length < 16 →
        t = { s with queue := queued (.node w) (.slotAnswer tag l) none .loc s }) ∧
      (16 ≤ s.queue.items.length → SameBlocks s t ∧
        Raised [.loopChange (loopView s) (.queueFull (msgKind (.slotAnswer tag l)))] s t)
    let recorded (l : List PairResult) : SlotRec :=
      { s.slots with answers := s.slots.answers.set w.val (some ⟨tag, m.num, l⟩) }
    let answers (l : List PairResult) : Prop := t = { s with
      slots := recorded l, queue := queued (.node w) (.slotAnswer tag l) none .loc s }
    let fresh : Prop := ∀ r, s.slots.answers.getD w.val none = some r → r.tag ≠ tag ∨ r.num ≠ m.num
    (s.start.role ≠ .master → s.loop.role = .follower → t = s) ∧
    (s.start.role ≠ .master → s.loop.role = .origin → sends (every .notMaster)) ∧
    (s.start.role = .master →
      (∀ r, s.slots.answers.getD w.val none = some r → r.tag = tag → r.num = m.num → sends r.results) ∧
      (fresh → s.queue.items.length = 15 → answers (every .state)) ∧
      (fresh → 16 ≤ s.queue.items.length → t = s) ∧
      (fresh → s.queue.items.length < 15 → 1 ≤ s.lock.level → answers (every .locked)) ∧
      (fresh → s.queue.items.length < 15 → s.lock.level = 0 → ch = [] → answers res) ∧
      (fresh → s.queue.items.length < 15 → s.lock.level = 0 → ch ≠ [] → t = { s with
        slots := { recorded res with
          issued := s.slots.issued + 1
          inFlight := ch.foldl (fun l x => l.set x.slot (some (x, s.slots.issued + 1))) s.slots.inFlight }
        queue := { s.queue with
          items := s.queue.items ++
            [⟨s.queue.nextNum, .all, .allot (s.slots.issued + 1) ch, 0, none, none, s.loop.group, .loc⟩,
              ⟨s.queue.nextNum + 1, .node w, .slotAnswer tag res, 0, none, none, s.loop.group, .loc⟩]
          nextNum := s.queue.nextNum + 2 } }))) ∧
  (∀ (w : NodeId) (h : Header) (m : Message) (tag : Byte) (res : List PairResult) (s : State),
    m.body = .slotAnswer tag res →
    let t := actOn w h m s
    let awaits (o : Operation) : Prop := s.start.role ≠ .master ∧ o.stage = .awaiting ∧
      (o.kind = .claimSlot ∨ o.kind = .releaseSlot)
    ((∀ o, findOp tag s = some o → ¬ awaits o) → t = s) ∧
    (∀ o, findOp tag s = some o → awaits o → Raised [.done tag o.kind .ok (.pairs res)] s t ∧
      SameBlocks { s with ctl := (opEnded ⟨tag, o.kind, .ok, .pairs res⟩ s.ctl) } t)) ∧
  (∀ (w : NodeId) (h : Header) (m : Message) (last : Option Serial) (s : State), m.body = .snapReq last →
    let t := actOn w h m s
    let asked (snap : SnapRec) : State := { s with
      slots := { s.slots with requests := s.slots.requests.set w.val last }, snap := snap }
    (s.start.role ≠ .master → t = s) ∧
    (s.start.role = .master →
      (s.snap.run ≠ none ∨ (s.queue.outstanding ≠ none ∧ s.snap.pendGain = false) →
        t = asked { s.snap with pendAllot := true }) ∧
      (s.snap.run = none → s.queue.outstanding = none →
        t = asked { s.snap with run := some ⟨.allot, 0, 0, 0, none, none⟩, pendAllot := false })))

/-! ### Taps (Section 5) -/

/-- SET_TAP (R97, R98, R155, R164): the checks in order, and nothing stored where one fails; else the fields given
replace the tap's, the others stand, and so does every other tap and output. That a SET_TAP with no field is
refused LOCKED from level 2 on is the model's choice (log entry 62). An output whose tap goes to UNUSED is
UNUSED; one whose tap leaves UNUSED for an invalid source is SAFE; its fallback input follows the tap's (log
entry 39, the model's choice). A field that alone changes what its output follows acts on the output's record: a new
fade time rescales the positions, completes a fade in progress where it is 0, and where it was 0 gives the positions
of the state (R150); a resume mode set to MANUAL turns a running hold to AWAIT, one set to AUTO begins a resume that
waits (R156); panic follow adds or removes PANIC (R147, R156), on which the state rules act (`onCauses`, stated by
`OutputStateRules`); a safe mode moves the fallback (R151). In which order several such fields of one SET_TAP act is
log entry 61, the model's choice, and not stated.
Turning tracking on, or a new slot while it is on, sets the trim to 0 and takes a known entry's gain as the
reference; turning it off keeps both and clears the flags (R125).
SET_TRACK_REF (R124, R125, R126, R164): the checks in order; the reference is stored and the trim follows the cache
entry of the tap's slot: kept with UNKNOWN for an unknown entry, 0 for a preamp of the node's own, else the
reference minus the entry's gain, held to -40 to +40 with LIMIT, whose rise raises TRACK_LIMIT. -/
def Obligations.TapsStored : Prop :=
  (∀ (tag : Byte) (n : Nat) (f : TapFields) (s : State), Taken s → Settled s →
     let old := tapAt s n
     let src := f.source.getD old.source
     let fits : Prop := n < 64 ∧ (∀ m, f.source = some (.slot m) → m < slotCount s.start.rate) ∧
       (∀ i, f.source = some (.loc i) → i < 64) ∧ (∀ x, f.trim = some x → -40 ≤ x ∧ x ≤ 40) ∧
       (∀ x, f.dimDepth = some x → -40 ≤ x ∧ x ≤ 0) ∧ (∀ i, f.safe = some (.fallback i) → i < 64) ∧
       (∀ x, f.fade = some x → x ≤ 500)
     let talkSlot : Prop := ∃ m, f.source = some (.slot m) ∧ slotCount s.start.rate - 4 ≤ m
     let state : Prop := f.tracking.getD old.tracking = true ∧ ((∀ m, src ≠ .slot m) ∨ f.trim ≠ none)
     let frozen : Prop := f.source ≠ none ∨ f.tracking ≠ none ∨ f.safe ≠ none ∨ f.resume ≠ none ∨
       f.fade ≠ none ∨ f.panicFollow ≠ none
     let shut : Prop := 2 ≤ s.lock.level ∨ (frozen ∧ 1 ≤ s.lock.level)
     (¬ fits → ∃ t, exec (.setTap tag n f) s = .next t ∧
       Answered tag (.refused .range) [] s (goodRequest s) t) ∧
     (fits → talkSlot → ∃ t, exec (.setTap tag n f) s = .next t ∧
       Answered tag (.refused .reserved) [] s (goodRequest s) t) ∧
     (fits → ¬ talkSlot → state → ∃ t, exec (.setTap tag n f) s = .next t ∧
       Answered tag (.refused .state) [] s (goodRequest s) t) ∧
     (fits → ¬ talkSlot → ¬ state → shut → ∃ t, exec (.setTap tag n f) s = .next t ∧
       Answered tag (.refused .locked) [] s (goodRequest s) t) ∧
     (fits → ¬ talkSlot → ¬ state → ¬ shut → s.lanes.taps[n]? = some old →
       ∃ t y, exec (.setTap tag n f) s = .next t ∧ Replied tag .ok s t ∧ t.lanes.taps[n]? = some y ∧
         y.source = src ∧ y.tracking = f.tracking.getD old.tracking ∧
         y.listen = f.listen.getD old.listen ∧ y.dim = f.dim.getD old.dim ∧
         y.dimDepth = f.dimDepth.getD old.dimDepth ∧ y.safe = f.safe.getD old.safe ∧
         y.resume = f.resume.getD old.resume ∧ y.fade = f.fade.getD old.fade ∧
         y.panicFollow = f.panicFollow.getD old.panicFollow ∧
         (y.tracking = false → y.trim = f.trim.getD old.trim ∧ y.refGain = old.refGain ∧
           (old.tracking = true → y.unknown = false ∧ y.limit = false) ∧
           (old.tracking = false → y.unknown = old.unknown ∧ y.limit = old.limit)) ∧
         (y.tracking = true → old.tracking = false ∨ old.source ≠ src → y.trim = 0 ∧
           ∀ m, src = .slot m →
             (cacheAt s m = none → y.refGain = old.refGain ∧ y.unknown = true ∧ y.limit = old.limit) ∧
             (∀ e q, cacheAt s m = some (e, q) → y.refGain = e.gain ∧ y.unknown = false ∧ y.limit = false)) ∧
         (y.tracking = true → old.tracking = true → old.source = src → y.trim = old.trim ∧
           y.refGain = old.refGain ∧ y.unknown = old.unknown ∧ y.limit = old.limit) ∧
         y.valid = sourceValid s src ∧
         (∀ m, m ≠ n → t.lanes.taps[m]? = s.lanes.taps[m]? ∧
           t.safety.outs[m]? = (goodRequest s).safety.outs[m]?) ∧
         (∀ r, (goodRequest s).safety.outs[n]? = some r → ∃ r', t.safety.outs[n]? = some r' ∧
           (old.source ≠ .unused → src = .unused → r'.state = .unused ∧ r'.pos = 0) ∧
           (old.source = .unused → src ≠ .unused → sourceValid s src = false →
             r'.state = .safe ∧ r'.causes.sourceLost = true) ∧
           (y.safe = .mute → r'.fbInput = r.fbInput) ∧
           ((∀ i, old.safe = .fallback i → r.fbInput = i) → ∀ i, y.safe = .fallback i → r'.fbInput = i) ∧
           (let a := old.fade * (if s.start.rate = .k48 then 48 else 96)
            let b := y.fade * (if s.start.rate = .k48 then 48 else 96)
            let resumed (q : OutRec) : OutRec :=
              if y.resume = .manual then { q with hold := none, stage := .await }
              else if s.safety.holdMs ≠ 0 then { q with hold := some (s.safety.holdMs * 96), stage := .hold }
              else { q with
                state := if b = 0 then .live else .fadingIn, pos := 0, hold := none, stage := .none }
            let done : OutRec := { r with state := .safe, pos := 0, fallback := 0, hold := none, stage := .none }
            let keeps (x : Tap) : Prop := src = old.source ∧ y = { x with
              trim := y.trim, refGain := y.refGain, tracking := y.tracking, unknown := y.unknown
              limit := y.limit, valid := y.valid, listen := y.listen, dim := y.dim, dimDepth := y.dimDepth }
            (keeps { old with fade := y.fade } → y.fade = old.fade → r' = r) ∧
            (keeps { old with fade := y.fade } → y.fade ≠ old.fade →
              (old.fade ≠ 0 → y.fade ≠ 0 → r' = { r with
                pos := match r.state with
                  | .fadingOut | .fadingIn => r.pos * b / a
                  | .live => b
                  | .safe | .unused => 0
                fallback := r.fallback * b / a }) ∧
              (y.fade = 0 → r.state = .fadingIn → r' = { r with state := .live, pos := 0, fallback := 0 }) ∧
              (y.fade = 0 → r.state = .fadingOut →
                r' = if causesEmpty r.causes = true then resumed done else done) ∧
              (y.fade = 0 → r.state ≠ .fadingIn → r.state ≠ .fadingOut →
                r' = { r with pos := 0, fallback := 0 }) ∧
              (old.fade = 0 → r' = { r with
                pos := if r.state = .live then b else 0
                fallback := if r.state = .safe ∧ y.safe ≠ .mute ∧ r.causes.panic = false then b else 0 })) ∧
            (keeps { old with resume := y.resume } → old.resume = .auto → y.resume = .manual →
              r' = if r.state = .safe ∧ r.hold ≠ none then { r with hold := none, stage := .await } else r) ∧
            (keeps { old with resume := y.resume } → old.resume = .manual → y.resume = .auto →
              r' = if r.state = .safe ∧ causesEmpty r.causes = true ∧ r.stage = .await then resumed r else r) ∧
            (keeps { old with panicFollow := y.panicFollow } → y.panicFollow ≠ old.panicFollow →
              r' = onCauses ⟨b, s.safety.holdMs * 96, decide (y.resume = .manual), decide (y.safe ≠ .mute)⟩
                { r.causes with panic := y.panicFollow && s.safety.panicOn } r) ∧
            (keeps { old with safe := y.safe } → y.safe ≠ old.safe → r' = match old.safe, y.safe with
              | .fallback _, .fallback j => { r with fallback := 0, fbInput := j }
              | .mute, .fallback j => { r with fbInput := j }
              | _, .mute => r))) ∧
         t.lanes.cache = s.lanes.cache ∧ t.start = s.start ∧ t.portA = s.portA ∧ t.portB = s.portB ∧
         t.loop = s.loop ∧ t.queue = s.queue ∧ t.snap = s.snap ∧ t.switches = s.switches ∧
         t.slots = s.slots ∧ t.gain = s.gain ∧ t.talk = s.talk ∧ t.lock = s.lock ∧
         t.supervision = (goodRequest s).supervision ∧ t.ctl.ops = s.ctl.ops ∧ t.pending = s.pending)) ∧
  (∀ (tag : Byte) (n g : Nat) (s : State), Taken s → Settled s →
     let old := tapAt s n
     let store (y : Tap) : State := { goodRequest s with lanes := { s.lanes with taps := s.lanes.taps.set n y } }
     (64 ≤ n ∨ 60 < g → ∃ t, exec (.setTrackRef tag n g) s = .next t ∧
       Answered tag (.refused .range) [] s (goodRequest s) t) ∧
     (n < 64 → g ≤ 60 → old.tracking = false → ∃ t, exec (.setTrackRef tag n g) s = .next t ∧
       Answered tag (.refused .state) [] s (goodRequest s) t) ∧
     (n < 64 → g ≤ 60 → old.tracking = true → 2 ≤ s.lock.level →
       ∃ t, exec (.setTrackRef tag n g) s = .next t ∧
         Answered tag (.refused .locked) [] s (goodRequest s) t) ∧
     (n < 64 → g ≤ 60 → old.tracking = true → s.lock.level < 2 →
       ((∀ m, old.source = .slot m → cacheAt s m = none) → ∃ t, exec (.setTrackRef tag n g) s = .next t ∧
         Answered tag .ok [] s (store { old with refGain := g, unknown := true }) t) ∧
       (∀ m e q, old.source = .slot m → cacheAt s m = some (e, q) → e.owner = some s.start.id →
         ∃ t, exec (.setTrackRef tag n g) s = .next t ∧ Answered tag .ok [] s
           (store { old with refGain := g, trim := 0, unknown := false, limit := false }) t) ∧
       (∀ m e q, old.source = .slot m → cacheAt s m = some (e, q) → e.owner ≠ some s.start.id →
         let d : Int := (g : Int) - (e.gain : Int)
         let out := decide (d < -40 ∨ 40 < d)
         ∃ t, exec (.setTrackRef tag n g) s = .next t ∧ Answered tag .ok
           (if !old.limit && out then [.trackLimit n m e.gain g d (max (-40) (min 40 d))] else []) s
           (store { old with refGain := g, trim := max (-40) (min 40 d), unknown := false, limit := out }) t)))

/-! ### Preamp gain (Section 6) -/

/-- SET_GAIN for an input of the node itself (R112, R113, R115, R117, R119, R164): the checks in order at a STAGE
node; a change is decided under the next serial, and queued as a GAIN_NOTE in the modes that write cells, or
applied at once in the others; a request that changes nothing is OK. At a DESK node a request without a node id is
refused STATE, and a mute time of 0 leaves a running timer (log entry 40). -/
def Obligations.LocalGainSet : Prop :=
  ∀ (tag : Byte) (node : Option Nat) (i : Nat) (f : GainFields) (force : Bool) (s : State), Taken s →
    Settled s → (node = none ∨ node = some s.start.id.val) →
    let e := gainAt s i
    let d := decidedSetting e
    let new : GainSetting := { d with
      gain := f.gain.getD d.gain, pad := f.pad.getD d.pad, phantom := f.phantom.getD d.phantom
      owner := if force then none else d.owner }
    let fits : Prop := i < 64 ∧ (∀ x, f.gain = some x → x ≤ 60) ∧
      (f.gain ≠ none ∨ f.pad ≠ none ∨ f.phantom ≠ none)
    let owned : Prop := d.owner ≠ none ∧ force = false
    let shut : Prop := 2 ≤ s.lock.level ∧ (d.owner ≠ none ∨ new.pad ≠ d.pad ∨ new.phantom ≠ d.phantom)
    (s.start.func = .desk → ∃ t, exec (.setGain tag node i f force) s = .next t ∧
      Answered tag (.refused .state) [] s (goodRequest s) t) ∧
    (s.start.func = .stage → ¬ fits → ∃ t, exec (.setGain tag node i f force) s = .next t ∧
      Answered tag (.refused .range) [] s (goodRequest s) t) ∧
    (s.start.func = .stage → fits → owned → ∃ t, exec (.setGain tag node i f force) s = .next t ∧
      Answered tag (.refused .owned) [] s (goodRequest s) t) ∧
    (s.start.func = .stage → fits → ¬ owned → shut →
      ∃ t, exec (.setGain tag node i f force) s = .next t ∧
        Answered tag (.refused .locked) [] s (goodRequest s) t) ∧
    (s.start.func = .stage → fits → ¬ owned → ¬ shut → new = d →
      ∃ t, exec (.setGain tag node i f force) s = .next t ∧ Answered tag .ok [] s (goodRequest s) t) ∧
    (s.start.func = .stage → fits → ¬ owned → ¬ shut → new ≠ d → writesCells (loopMode s) = true →
      (12 ≤ s.queue.items.length → ∃ t, exec (.setGain tag node i f force) s = .next t ∧
        Answered tag .busy [] s (goodRequest s) t) ∧
      (s.queue.items.length < 12 → ∃ t, exec (.setGain tag node i f force) s = .next t ∧
        Answered tag .ok [] s { goodRequest s with
          gain := { s.gain with table := s.gain.table.set i { e with
            issued := e.issued + 1, inFlight := some ⟨new, e.issued + 1⟩ } }
          queue := queued .all (.gainNote i new (e.issued + 1)) none .loc s } t)) ∧
    (s.start.func = .stage → fits → ¬ owned → ¬ shut → new ≠ d → writesCells (loopMode s) = false →
      s.gain.table[i]? = some e → newer8 (e.issued + 1) e.serial = true →
      ∃ t, exec (.setGain tag node i f force) s = .next t ∧ Replied tag .ok s t ∧
        t.gain.table = s.gain.table.set i { e with
          applied := new, serial := e.issued + 1, issued := e.issued + 1, inFlight := none
          mute := if e.applied.phantom ≠ new.phantom ∧ s.gain.muteMs ≠ 0 then some (s.gain.muteMs * 96)
            else e.mute } ∧
        t.queue = s.queue ∧ t.start = s.start ∧ t.portA = s.portA ∧ t.portB = s.portB ∧ t.loop = s.loop ∧
        t.slots = s.slots ∧ t.talk = s.talk ∧ t.lock = s.lock ∧ t.switches = s.switches ∧
        t.supervision = (goodRequest s).supervision ∧ t.pending = s.pending)

/-- SET_GAIN for another node, CLAIM_GAIN and YIELD_GAIN (R112, R167, R183): the checks in order; a request that
passes is answered STARTED and its message to that node queued.
GAIN_SET, GAIN_CLAIM and GAIN_YIELD acted on (R19, R114, R115): a DESK node passes them over; a repeat is answered
from the record; with 15 messages queued the answer is STATE, with 16 nothing is done; else the table decides, a
change is in flight under the next serial with its GAIN_NOTE queued, and the answer follows it and is recorded. A pad or
phantom given with its decided value is no change that lock level 2 refuses (log entry 79, the model's choice).
GAIN_ANSWER acted on ends the operation of its tag that awaits it, and nothing else (R116, R184; log entry 23). A
GAIN_CLAIM or GAIN_YIELD of an input that does not exist is answered RANGE (log entry 40, the model's reading). -/
def Obligations.GainAsked : Prop :=
  (∀ (tag : Byte) (x i : Nat) (f : GainFields) (force : Bool) (c : Instr) (fits forced : Prop) (k : OpKind)
    (msg : LoopMsg) (s : State), Taken s → Settled s →
    (c = .setGain tag (some x) i f force ∧ k = .setGain ∧ (forced ↔ force = true) ∧ x ≠ s.start.id.val ∧
        msg = .gainSet tag i f.gain (f.pad.map fun b => if b then 1 else 0)
          (f.phantom.map fun b => if b then 1 else 0) ∧
        (fits ↔ x < 8 ∧ i < 64 ∧ (∀ y, f.gain = some y → y ≤ 60) ∧
          (f.gain ≠ none ∨ f.pad ≠ none ∨ f.phantom ≠ none))) ∨
      (c = .claimGain tag x i force ∧ k = .claimGain ∧ ¬ forced ∧ msg = .gainClaim tag i force ∧
        (fits ↔ x < 8 ∧ i < 64)) ∨
      (c = .yieldGain tag x i ∧ k = .yieldGain ∧ ¬ forced ∧ msg = .gainYield tag i ∧
        (fits ↔ x < 8 ∧ i < 64)) →
    let desk : Prop := ∃ e ∈ s.loop.copy.entries, e.id.val = x ∧ e.func = some .desk
    let stopped : Prop := forced ∨ s.start.func = .stage ∨ x = s.start.id.val ∨ desk ∨
      s.start.held = true ∨ s.loop.conflict ≠ none
    let shut : Prop := k = .claimGain ∧ force = true ∧ ∃ l, s.lock.view.getD x none = some l ∧ 2 ≤ l
    (¬ fits → ∃ t, exec c s = .next t ∧ Answered tag (.refused .range) [] s (goodRequest s) t) ∧
    (fits → stopped → ∃ t, exec c s = .next t ∧ Answered tag (.refused .state) [] s (goodRequest s) t) ∧
    (fits → ¬ stopped → shut → ∃ t, exec c s = .next t ∧
      Answered tag (.refused .locked) [] s (goodRequest s) t) ∧
    (fits → ¬ stopped → ¬ shut →
      (∀ r, admission tag true s = some r → ∃ t, exec c s = .next t ∧
        Answered tag r [] s (goodRequest s) t) ∧
      (∀ n : NodeId, n.val = x → admission tag true s = none → ∃ t, exec c s = .next t ∧
        Answered tag .started [] s { goodRequest s with
          queue := queued (.node n) msg (some tag) .loc s
          ctl := { (goodRequest s).ctl with
            ops := placeOp ⟨tag, k, .queued, none, none, some (n, i)⟩ s.ctl.ops } } t))) ∧
  (∀ (w : NodeId) (h : Header) (m : Message) (tag : Byte) (i : Nat) (s : State),
     let t := actOn w h m s
     let e := gainAt s i
     let d := decidedSetting e
     let record (v : Verdict) : GainRec := { s.gain with answers := s.gain.answers.set w.val (some ⟨tag, m.num, v⟩) }
     let answers (v : Verdict) : Prop := t = { s with
       gain := record v, queue := queued (.node w) (.gainAnswer tag v) none .loc s }
     let fresh : Prop := ∀ r, s.gain.answers.getD w.val none = some r → r.tag ≠ tag ∨ r.num ≠ m.num
     let decides : Prop := s.start.func = .stage ∧ fresh ∧ s.queue.items.length < 15
     let changes (new : GainSetting) : Prop := t = { s with
       gain := { record .ok with table := s.gain.table.set i { e with
         issued := e.issued + 1, inFlight := some ⟨new, e.issued + 1⟩ } }
       queue := { s.queue with
         items := s.queue.items ++
           [⟨s.queue.nextNum, .all, .gainNote i new (e.issued + 1), 0, none, none, s.loop.group, .desk w⟩,
             ⟨s.queue.nextNum + 1, .node w, .gainAnswer tag .ok, 0, none, none, s.loop.group, .loc⟩]
         nextNum := s.queue.nextNum + 2 } }
     let granted (new : GainSetting) : Prop := (new = d → answers .ok) ∧ (new ≠ d → changes new)
     ((∃ g p ph, m.body = .gainSet tag i g p ph) ∨ (∃ f, m.body = .gainClaim tag i f) ∨ m.body = .gainYield tag i →
       (s.start.func = .desk → t = s) ∧
       (∀ r, s.start.func = .stage → s.gain.answers.getD w.val none = some r → r.tag = tag → r.num = m.num →
         s.queue.items.length < 16 →
         t = { s with queue := queued (.node w) (.gainAnswer tag r.outcome) none .loc s }) ∧
       (s.start.func = .stage → fresh → s.queue.items.length = 15 → answers (.no .state)) ∧
       (s.start.func = .stage → fresh → 16 ≤ s.queue.items.length → t = s)) ∧
     (∀ g p ph, m.body = .gainSet tag i g p ph → decides →
       let fits : Prop := i < 64 ∧ (g ≠ none ∨ p ≠ none ∨ ph ≠ none) ∧ (∀ x, g = some x → x ≤ 60) ∧
         (∀ x, p = some x → x ≤ 1) ∧ (∀ x, ph = some x → x ≤ 1)
       let new : GainSetting := { d with
         gain := g.getD d.gain, pad := (p.map (· == 1)).getD d.pad, phantom := (ph.map (· == 1)).getD d.phantom }
       let shut : Prop := 2 ≤ s.lock.level ∧ (new.pad ≠ d.pad ∨ new.phantom ≠ d.phantom)
       (¬ fits → answers (.no .range)) ∧
       (fits → d.owner ≠ some w → answers (.no .notOwner)) ∧
       (fits → d.owner = some w → shut → answers (.no .locked)) ∧
       (fits → d.owner = some w → ¬ shut → granted new)) ∧
     (∀ f, m.body = .gainClaim tag i f → decides →
       let free : Prop := d.owner = none ∨ d.owner = some w
       (64 ≤ i → answers (.no .range)) ∧
       (i < 64 → ¬ free → f = false → answers (.no .owned)) ∧
       (i < 64 → ¬ free → f = true → 2 ≤ s.lock.level → answers (.no .locked)) ∧
       (i < 64 → free ∨ (f = true ∧ s.lock.level < 2) → granted { d with owner := some w })) ∧
     (m.body = .gainYield tag i → decides →
       (64 ≤ i → answers (.no .range)) ∧
       (i < 64 → d.owner ≠ some w → answers (.no .notOwner)) ∧
       (i < 64 → d.owner = some w → granted { d with owner := none })) ∧
     (∀ v, m.body = .gainAnswer tag v →
       let awaits (o : Operation) : Prop := o.stage = .awaiting ∧
         (o.kind = .setGain ∨ o.kind = .claimGain ∨ o.kind = .yieldGain)
       ((∀ o, findOp tag s = some o → ¬ awaits o) → t = s) ∧
       (∀ o n j, findOp tag s = some o → awaits o → o.gain = some (n, j) →
         Raised [.done tag o.kind v (.gain n j)] s t ∧
         SameBlocks { s with ctl := (opEnded ⟨tag, o.kind, v, .gain n j⟩ s.ctl) } t)))

/-- PREAMP_RECORD_SEND and PHANTOM_MUTE_EXPIRY (R111, R119): a STAGE node's lane takes the first waiting record, one
in a frame period; an expired mute ends, its input's present sample silent until the next period. Where nothing
is due or waits the rows have no effect (log entries 3 and 5). -/
def Obligations.PreampLane : Prop :=
  ∀ (i : Nat) (s : State), s.inReset = false → Settled s →
    (s.start.func = .desk ∨ s.gain.laneUsed = true ∨ s.gain.records = [] →
      ∃ t, exec .preampRecordSend s = .next t ∧ Happened [] s s t) ∧
    (∀ r l, s.start.func = .stage → s.gain.laneUsed = false → s.gain.records = r :: l →
      ∃ t, exec .preampRecordSend s = .next t ∧
        Happened [] s { s with gain := { s.gain with records := l, lane := some r, laneUsed := true } } t) ∧
    ((gainAt s i).mute ≠ some 0 → ∃ t, exec (.phantomMuteExpiry i) s = .next t ∧ Happened [] s s t) ∧
    ((gainAt s i).mute = some 0 → ∃ t, exec (.phantomMuteExpiry i) s = .next t ∧ Happened [] s { s with
      gain := { s.gain with table := s.gain.table.set i { gainAt s i with mute := none } }
      lanes := { s.lanes with present := s.lanes.present.set i 0 } } t)

/-! ### Talkback (Section 7) -/

/-- The origin's decisions (R135, R136, R137, R139): the table of a claim, that of a release, the TALK_GRANT they
issue under the next serial, into the unsent one that stands there, into the queue, or owed at a full queue, and
what a TALK_CLAIM or TALK_RELEASE acted on calls for.
A TALK_GRANT acted on counts only from the origin's cell; it stops the answer timer of a key it names (R134).
Applied, one that is not newer is passed over; else view, TALK entry and the origin's grant in force take the
talker, and the keys of the bus move (R140, R141, R145); one of another epoch makes no entry (log entry 35, the
model's reading). A TALK_REFUSE ends a CLAIMING key on its bus (R142; on another bus log entry 66). A MAP acted on
becomes the map copy, the own id always in it (R60, R120, R166, R167): the nodes that left lose their last-acted
number and lock view entry, MAP_CHANGE is raised (its ids are those with a position: log entry 50), every tap's
validity is judged anew, and a node newly in it sends its LOCK_NOTE and, at a STAGE node, its gain table; a MAP that
omits the node drops its claims (R144; release owed of keys without one stands: log entry 38). What a node writes
into the talk slots that name it (R143). -/
def Obligations.TalkDecided : Prop :=
  (∀ (c : Claim) (r : BusRec),
    let others := r.stack.filter fun x => decide (x.talker ≠ c.talker)
    (r.decided = none → decideClaim c r = ({ r with decided := some c, stack := others }, .grant)) ∧
    (∀ d, r.decided = some d → d.talker = c.talker → decideClaim c r = (r, .grant)) ∧
    (∀ d, r.decided = some d → d.talker ≠ c.talker → d.priority < c.priority → others.length < 8 →
      decideClaim c r = ({ r with decided := some c, stack := d :: others }, .grant)) ∧
    (∀ d, r.decided = some d → d.talker ≠ c.talker → d.priority < c.priority → 8 ≤ others.length →
      decideClaim c r = ({ r with stack := others }, .refuse .full)) ∧
    (∀ d, r.decided = some d → d.talker ≠ c.talker → c.priority ≤ d.priority →
      decideClaim c r = ({ r with stack := others }, .refuse .lower))) ∧
  (∀ (t : Talker) (r : BusRec),
    (∀ d, r.decided = some d → d.talker = t →
      decideRelease t r = ({ r with decided := r.stack.head?, stack := r.stack.tail }, .grant)) ∧
    ((∀ d, r.decided = some d → d.talker ≠ t) → decideRelease t r =
      ({ r with stack := r.stack.filter fun x => decide (x.talker ≠ t) }, .nothing))) ∧
  (∀ (b : Bus) (s : State),
    let unsent : Prop := ∃ i ∈ s.queue.items, i.sends = 0 ∧ ∃ x n d, i.body = .talkGrant b x n d
    let r : BusRec := { busAt s b with serial := (busAt s b).serial + 1 }
    let body : LoopMsg := .talkGrant b (r.decided.map (·.talker)) r.serial r.stack.length
    (¬ unsent → s.queue.items.length < 16 →
      issueGrant b s = { setBusRec b r s with queue := queued .all body none .loc s }) ∧
    (¬ unsent → 16 ≤ s.queue.items.length → issueGrant b s = setBusRec b { r with owed := true } s) ∧
    (unsent → issueGrant b s = { setBusRec b r s with
      queue := { s.queue with items := replaceUnsent (isGrantOf b) body s.loop.group s.queue.items } })) ∧
  (∀ (c : Claim) (t : Talker) (r : BusRec), r.stack.length ≤ 8 →
    (decideClaim c r).1.stack.length ≤ 8 ∧ (decideRelease t r).1.stack.length ≤ 8) ∧
  (∀ (w : NodeId) (h : Header) (m : Message) (s : State),
    let t := actOn w h m s
    let decides : Prop := s.loop.role = .origin ∧ s.loop.conflict = none
    let drop (k : KeyRec) : KeyRec :=
      if keyActive k.state then { k with
        state := .dropped, latched := false, press := none, answer := none, releaseOwed := false }
      else k
    (∀ b k prio, m.body = .talkClaim b k prio →
      let y := decideClaim ⟨⟨w, k⟩, prio⟩ (busAt s b)
      (¬ decides → t = s) ∧
      (decides → y.2 = .grant → t = issueGrant b (setBusRec b y.1 s)) ∧
      (∀ why, decides → y.2 = .refuse why → w ≠ s.start.id → s.queue.items.length < 16 →
        t = { setBusRec b y.1 s with queue := queued (.node w) (.talkRefuse b w k why) none .loc s })) ∧
    (∀ b k, m.body = .talkRelease b k →
      let y := decideRelease ⟨w, k⟩ (busAt s b)
      (¬ decides → t = s) ∧ (decides → y.2 = .grant → t = issueGrant b (setBusRec b y.1 s)) ∧
      (decides → y.2 = .nothing → t = setBusRec b y.1 s)) ∧
    (∀ b g serial depth, m.body = .talkGrant b g serial depth →
      let heard : State := match g with
        | some x => if x.node = s.start.id then setKeyRec x.key { keyAt s x.key with answer := none } s else s
        | none => s
      (w ≠ h.origin.id → t = s) ∧
      (w = h.origin.id → h.origin.epoch ≠ s.loop.epoch → t = heard) ∧
      (w = h.origin.id → h.origin.epoch = s.loop.epoch → pendingOf s w = none →
        t = { heard with switches := s.switches ++
          [⟨w, .msg m.body, m.switch.getD s.loop.count, s.loop.epoch, none, false, .loc⟩] })) ∧
    (∀ b n k why, m.body = .talkRefuse b n k why →
      let mine : Prop := w = h.origin.id ∧ n = s.start.id ∧ (keyAt s k).state = .claiming ∧ (keyAt s k).bus = b
      (¬ mine → t = s) ∧
      (mine → s.talk.keys.length = 12 →
        SameBlocks (setKeyRec k { keyAt s k with
          state := .refused, latched := false, press := none, answer := none } s) t ∧
        Raised [.keyChange k b .refused false (match why with
          | .lower => .lower
          | .full => .full)] s t)) ∧
    (∀ serial entries, m.body = .map serial entries →
      let own : NodeId := s.start.id
      let was := (s.loop.copy.entries.filter fun e => e.pos.isSome).map (·.id)
      let now := (entries.filter fun e => e.pos.isSome).map (·.id)
      let left (n : NodeId) : Prop := n ∈ was ∧ n ∉ now
      let joins : Prop := own ∈ now ∧ own ∉ was
      ((∃ e ∈ entries, e.id = own) → t.loop.copy = ⟨some serial, entries⟩) ∧
      ((∀ e ∈ entries, e.id ≠ own) → t.loop.copy =
        ⟨some serial, entries ++ [⟨own, some s.start.func, some s.start.role, none, none⟩]⟩) ∧
      t.loop = { s.loop with copy := t.loop.copy, lastActed := t.loop.lastActed } ∧
      (∀ n : NodeId, (left n → t.loop.lastActed.getD n.val none = none ∧
          (n ≠ own → t.lock.view.getD n.val none = none)) ∧
        (¬ left n → t.loop.lastActed.getD n.val none = s.loop.lastActed.getD n.val none) ∧
        (¬ left n ∨ n = own → t.lock.view.getD n.val none = s.lock.view.getD n.val none)) ∧
      (s.ctl.notices.length < 24 → .mapChange (some serial) now (now.filter fun n => decide (n ∉ was))
        (was.filter fun n => decide (n ∉ now)) ∈ t.ctl.notices) ∧
      (∀ x ∈ t.lanes.taps, x.valid = sourceValid t x.source) ∧
      (¬ joins → t.queue = s.queue ∧ t.snap = s.snap) ∧
      (joins →
        ((∀ i ∈ s.queue.items, i.sends = 0 → ∀ n, i.body ≠ .lockNote n) → s.queue.items.length < 16 →
          t.queue = queued .all (.lockNote s.lock.level) none .loc s) ∧
        (s.start.func = .desk → t.snap = s.snap) ∧
        (s.start.func = .stage → s.snap.run ≠ none → t.snap = { s.snap with pendGain := true }) ∧
        (s.start.func = .stage → s.snap.run = none → s.snap.pendAllot = false ∨ s.queue.outstanding ≠ none →
          t.snap = { s.snap with run := some ⟨.gain, 0, 0, 0, none, none⟩, pendGain := false })) ∧
      t.start = s.start ∧ t.portA = s.portA ∧ t.portB = s.portB ∧ t.switches = s.switches ∧ t.slots = s.slots ∧
      t.gain = s.gain ∧ t.supervision = s.supervision ∧ t.lock.level = s.lock.level ∧ t.pending = s.pending ∧
      ((∃ e ∈ entries, e.id = own) → t.talk = s.talk) ∧
      ((∀ e ∈ entries, e.id ≠ s.start.id) → t.talk = { s.talk with keys := s.talk.keys.map drop }))) ∧
  (∀ (x : PendingSwitch) (b : Bus) (g : Option Talker) (serial : Serial) (depth : Nat) (s : State),
    x.item = .msg (.talkGrant b g serial depth) → s.talk.keys.length = 12 → s.talk.views.length = 4 →
    s.talk.records.length = 4 →
    let t := applySwitch x s
    (∀ r, (viewAt s b).serial = some r → newer16 serial r = false → t = s) ∧
    ((∀ r, (viewAt s b).serial = some r → newer16 serial r = true) →
      viewAt t b = ⟨some serial, g.map fun y => (y.node, some y.key)⟩ ∧
      (∀ c, c ≠ b → viewAt t c = viewAt s c) ∧
      (∀ (n : Nat) (e : SlotEntry), s.slots.table[n]? = some e → t.slots.table[n]? = some
        (if n = talkSlot s.start.rate b then { e with writer := g.map (·.node) } else e)) ∧
      (busAt t b).inForce = (if s.loop.role = .origin ∧ x.sender = s.start.id then g else (busAt s b).inForce) ∧
      (t.ctl.notices.length < 32 → t.ctl.notices.getLast? = some (.talkChange b g serial depth)) ∧
      ∀ k,
        let r := keyAt s k
        let named : Prop := g = some ⟨s.start.id, k⟩
        (r.bus ≠ b → keyAt t k = r) ∧
        (r.bus = b → named →
          (r.state = .claiming → keyAt t k = { r with state := .talking, answer := none }) ∧
          (r.state = .stacked → keyAt t k = { r with state := .talking }) ∧
          (r.state = .talking → keyAt t k = r) ∧
          (keyActive r.state = false → s.loop.role = .follower →
            (s.queue.items.length < 16 → keyAt t k = r ∧
              t.queue = queued .origin (.talkRelease b k) none .loc s) ∧
            (16 ≤ s.queue.items.length → keyAt t k = { r with releaseOwed := true } ∧ t.queue = s.queue))) ∧
        (r.bus = b → g ≠ none → ¬ named → keyAt t k = if r.state = .talking then { r with state := .stacked } else r) ∧
        (r.bus = b → g = none → keyAt t k = if r.state = .talking ∨ r.state = .stacked then { r with
          state := .dropped, latched := false, press := none, answer := none } else r))) ∧
  (∀ (l : List Sample) (n : Nat) (b : Bus) (s : State), n < l.length →
    let writes (c : Bus) : Prop := n = talkSlot s.start.rate c ∧ (entryAt s n).writer = some s.start.id ∧
      (s.start.role = .master ∨ s.slots.current = true)
    (writes b → (writeTalk s l)[n]? = some (talkSample s b)) ∧
    ((∀ c, ¬ writes c) → (writeTalk s l)[n]? = l[n]?) ∧
    (∀ k, (viewAt s b).talker = some (s.start.id, some k) → (keyAt s k).state = .talking →
      talkSample s b = delivered s (keyAt s k).source) ∧
    ((∀ k, (viewAt s b).talker = some (s.start.id, some k) → (keyAt s k).state ≠ .talking) → talkSample s b = 0))

/-- SET_KEY (R129, R133, R145, R164): the checks in order; the fields given are stored, and a key that is turned off
gives up its claim, with a message to the origin, a release owed at a full queue, or at an ORIGIN its own decision. A
field that is given with the value it has is no change (log entry 38, the model's choice). -/
def Obligations.KeyStored : Prop :=
  ∀ (tag : Byte) (k : KeyName) (f : KeyFields) (s : State), Taken s → Settled s →
    let r := keyAt s k
    let new : KeyRec := { r with
      enabled := f.enabled.getD r.enabled, bus := f.bus.getD r.bus, source := f.source.getD r.source
      priority := f.priority.getD r.priority, mode := f.mode.getD r.mode
      settleMs := f.settle.getD r.settleMs, tapMs := f.tap.getD r.tapMs }
    let fits : Prop := (∀ x, f.source = some x → x < 64) ∧ (∀ x, f.priority = some x → x ≤ 3) ∧
      (∀ x, f.settle = some x → x ≤ 50 ∧ keyVirtual k = false) ∧
      (∀ x, f.tap = some x → 100 ≤ x ∧ x ≤ 1000)
    let state : Prop := keyActive r.state = true ∧
      (new.bus ≠ r.bus ∨ new.priority ≠ r.priority ∨ new.mode ≠ r.mode)
    let off : Prop := r.enabled = true ∧ new.enabled = false
    let rest : KeyRec := { new with state := .idle, latched := false, press := none, answer := none }
    (¬ fits → ∃ t, exec (.setKey tag k f) s = .next t ∧
      Answered tag (.refused .range) [] s (goodRequest s) t) ∧
    (fits → state → ∃ t, exec (.setKey tag k f) s = .next t ∧
      Answered tag (.refused .state) [] s (goodRequest s) t) ∧
    (fits → ¬ state → 1 ≤ s.lock.level → ∃ t, exec (.setKey tag k f) s = .next t ∧
      Answered tag (.refused .locked) [] s (goodRequest s) t) ∧
    (fits → ¬ state → s.lock.level = 0 → ¬ off ∨ r.state = .idle →
      ∃ t, exec (.setKey tag k f) s = .next t ∧
        Answered tag .ok [] s (setKeyRec k new (goodRequest s)) t) ∧
    (fits → s.lock.level = 0 → off → r.state = .refused ∨ r.state = .dropped →
      ∃ t, exec (.setKey tag k f) s = .next t ∧
        Answered tag .ok [.keyChange k new.bus .idle false .disabled] s
          (setKeyRec k rest (goodRequest s)) t) ∧
    (fits → ¬ state → s.lock.level = 0 → off → keyActive r.state = true →
      ∃ t u, exec (.setKey tag k f) s = .next t ∧
        Answered tag .ok [.keyChange k r.bus .idle false .disabled] s u t ∧
        ReleaseLeaves k r.bus rest (goodRequest s) u)

/-- TALK_PRESS and TALK_LIFT (R130 to R133): a physical key is RANGE, a virtual key that is so already STATE; else
the virtual key's level changes, with its press or lift event, whose claim or release goes to the origin, finds
the queue full, or is decided by the node itself as ORIGIN (R133, R136, R137, R142).
KEY_INPUT_CHANGE, KEY_SETTLE_EXPIRY and KEY_ANSWER_TIMEOUT (R130 to R134): the filter of a physical key, and a claim
that goes without an answer. A change of an input is a sample at once (log entry 80, the model's choice). A timer that
is not due has no effect (log entry 3). -/
def Obligations.KeysPressedAndTimed : Prop :=
  (∀ (tag : Byte) (k : KeyName) (s : State), Taken s → Settled s →
     ∀ (pressed : Bool) (c : Instr), c = (if pressed then .talkPress tag k else .talkLift tag k) →
       (keyVirtual k = false → ∃ t, exec c s = .next t ∧
         Answered tag (.refused .range) [] s (goodRequest s) t) ∧
       (keyVirtual k = true → (keyAt s k).pressed = pressed → ∃ t, exec c s = .next t ∧
         Answered tag (.refused .state) [] s (goodRequest s) t) ∧
       (keyVirtual k = true → (keyAt s k).pressed ≠ pressed → ∃ t l u, exec c s = .next t ∧
         Answered tag .ok l s u t ∧
         FilterLeaves k pressed (setKeyRec k { keyAt s k with raw := pressed } (goodRequest s)) l u)) ∧
  (∀ (i : Fin 8) (high : Bool) (k : KeyName) (s : State), s.inReset = false → Settled s →
     let n := keyOfInput i
     let r := keyAt s n
     let a := keyAt s k
     (high = r.pressed → ∃ t, exec (.keyInputChange i high) s = .next t ∧
       Happened [] s (setKeyRec n { r with raw := high, settle := none } s) t) ∧
     (high ≠ r.pressed → r.settle.isSome = true → ∃ t, exec (.keyInputChange i high) s = .next t ∧
       Happened [] s (setKeyRec n { r with raw := high } s) t) ∧
     (high ≠ r.pressed → r.settle = none → r.settleMs ≠ 0 →
       ∃ t, exec (.keyInputChange i high) s = .next t ∧
         Happened [] s (setKeyRec n { r with raw := high, settle := some (r.settleMs * 96) } s) t) ∧
     (high ≠ r.pressed → r.settle = none → r.settleMs = 0 →
       ∃ t l u, exec (.keyInputChange i high) s = .next t ∧ Happened l s u t ∧
         FilterLeaves n high (setKeyRec n { r with raw := high } s) l u) ∧
     (r.settle ≠ some 0 → ∃ t, exec (.keySettleExpiry i) s = .next t ∧ Happened [] s s t) ∧
     (r.settle = some 0 → ∃ t l u, exec (.keySettleExpiry i) s = .next t ∧ Happened l s u t ∧
       FilterLeaves n r.raw s l u) ∧
     (a.answer ≠ some 0 → ∃ t, exec (.keyAnswerTimeout k) s = .next t ∧ Happened [] s s t) ∧
     (a.answer = some 0 → a.state ≠ .claiming → ∃ t, exec (.keyAnswerTimeout k) s = .next t ∧
       Happened [] s (setKeyRec k { a with answer := none } s) t) ∧
     (a.answer = some 0 → a.state = .claiming → ∃ t u, exec (.keyAnswerTimeout k) s = .next t ∧
       Happened [.keyChange k a.bus .dropped false .noAnswer] s u t ∧
       ReleaseLeaves k a.bus { a with state := .dropped, latched := false, press := none, answer := none } s u))

/-! ### Outputs and supervision (Sections 8 and 9) -/

/-- PANIC_INPUT_CHANGE and PANIC_FILTER_EXPIRY (R147, R157): a raw level that returns stops the filter timer, a
new one starts it, and a level that stands for the filter time, or any with a filter time of 0, takes the PANIC
cause to every output whose tap follows it, or from it. A change of the input is a sample at once (log entry 80, the
model's choice). A timer that is not due has no effect (log entry 3). -/
def Obligations.PanicFiltered : Prop :=
  ∀ (high : Bool) (s : State), s.inReset = false → Settled s →
    let x := s.safety
    let moved (on : Bool) (outs : List OutRec) : Prop := outs.length = x.outs.length ∧
      ∀ n r, x.outs[n]? = some r → outs[n]? = some (if (tapAt s n).panicFollow then
        onCauses (outCtx s (tapAt s n)) { r.causes with panic := on } r else r)
    (high = x.panicOn → ∃ t, exec (.panicInputChange high) s = .next t ∧
      Happened [] s { s with safety := { x with panicRaw := high, panicT := none } } t) ∧
    (high ≠ x.panicOn → x.panicT.isSome = true → ∃ t, exec (.panicInputChange high) s = .next t ∧
      Happened [] s { s with safety := { x with panicRaw := high } } t) ∧
    (high ≠ x.panicOn → x.panicT = none → x.filterMs ≠ 0 →
      ∃ t, exec (.panicInputChange high) s = .next t ∧
        Happened [] s { s with safety := { x with panicRaw := high, panicT := some (x.filterMs * 96) } } t) ∧
    (high ≠ x.panicOn → x.panicT = none → x.filterMs = 0 →
      ∃ t outs, exec (.panicInputChange high) s = .next t ∧ moved high outs ∧
        Happened [] s { s with safety := { x with
          outs := outs, panicRaw := high, panicOn := high, panicT := none } } t) ∧
    (x.panicT ≠ some 0 → ∃ t, exec .panicFilterExpiry s = .next t ∧ Happened [] s s t) ∧
    (x.panicT = some 0 → ∃ t outs, exec .panicFilterExpiry s = .next t ∧ moved x.panicRaw outs ∧
      Happened [] s { s with safety := { x with outs := outs, panicOn := x.panicRaw, panicT := none } } t)

/-- FADE_OUT_END, FADE_IN_END and RESUME_HOLD_EXPIRY (R150, R152, R160): at position 0 FADING_OUT becomes SAFE,
though not in the frame period in which it began (R152), and resumes where its set is empty; at the fade length
FADING_IN becomes LIVE; every fade of the kind that ends in the frame period ends in the one event, and the
others stand (R160; log entry 68, the model's reading); an expired hold begins the fade in. A row whose end has
not come has no effect (log entries 3 and 5). -/
def Obligations.FadesAndHoldsEnd : Prop :=
  ∀ (n : Nat) (r : OutRec) (s : State), s.inReset = false → Settled s → s.safety.outs[n]? = some r →
    let len (i : Nat) : Nat := (tapAt s i).fade * if s.start.rate = .k48 then 48 else 96
    let put (f : Nat → OutRec → OutRec) : State := { s with safety := { s.safety with
      outs := s.safety.outs.zipIdx.map fun (q, i) => f i q } }
    let resumed (i : Nat) (q : OutRec) : OutRec :=
      { q with state := if len i = 0 then .live else .fadingIn, pos := 0, hold := none, stage := .none }
    let safe (i : Nat) (q : OutRec) : OutRec :=
      let q' : OutRec := { q with state := .safe, pos := 0, hold := none, stage := .none }
      if causesEmpty q.causes = false then q'
      else if (tapAt s i).resume = .manual ∧ s.supervision.silent = false then { q' with stage := .await }
      else if s.safety.holdMs ≠ 0 then { q' with hold := some (s.safety.holdMs * 96), stage := .hold }
      else resumed i q
    (r.state ≠ .fadingOut ∨ r.pos ≠ 0 ∨ r.entered = true →
      ∃ t, exec (.fadeOutEnd n) s = .next t ∧ Happened [] s s t) ∧
    (r.state = .fadingOut → r.pos = 0 → r.entered = false →
      ∃ t, exec (.fadeOutEnd n) s = .next t ∧ Happened [] s (put fun i q =>
        if q.state = .fadingOut ∧ q.pos = 0 ∧ q.entered = false then safe i q else q) t) ∧
    (r.state ≠ .fadingIn ∨ r.pos < len n → ∃ t, exec (.fadeInEnd n) s = .next t ∧ Happened [] s s t) ∧
    (r.state = .fadingIn → len n ≤ r.pos → ∃ t, exec (.fadeInEnd n) s = .next t ∧
      Happened [] s (put fun i q =>
        if q.state = .fadingIn ∧ len i ≤ q.pos then { q with state := .live, pos := len i } else q) t) ∧
    (r.hold ≠ some 0 → ∃ t, exec (.resumeHoldExpiry n) s = .next t ∧ Happened [] s s t) ∧
    (r.hold = some 0 → ∃ t, exec (.resumeHoldExpiry n) s = .next t ∧ Happened [] s
      (put fun i q => if i = n then resumed i q else q) t)

/-- The state of an output when its safe cause set takes a new value (R149, R152): the set becomes non-empty, it
empties, or it does neither.
The positions move once in a frame period (R150): the program position by its state, the fallback weight up only in
SAFE under FALLBACK without PANIC, each by 1 and no further than its end.
The samples (R96, R105, R106, R107, R151): a tap's program is its held sample by the trim and, where a listened bus
is heard, the dim depth, in dB; the composed signal adds the heard talk, rounded and limited; the lane carries it by
the program position, with the fallback input by its weight, and the valid flag in LIVE and FADING_IN. An exact tie
of two integers is left free. The input kept with the fallback weight is the tap's FALLBACK input, and stays the
former one after a change to MUTE (log entry 39, the model's choice). -/
def Obligations.OutputStateRules : Prop :=
  (∀ (c : OutCtx) (set : CauseSet) (r : OutRec), (onCauses c set r).causes = set ∧
     (causesEmpty r.causes = true → causesEmpty set = false →
       (r.state = .live → 0 < c.len → onCauses c set r = { r with
         causes := set, state := .fadingOut, pos := c.len, entered := true }) ∧
       (r.state = .fadingIn → 0 < c.len → onCauses c set r = { r with
         causes := set, state := .fadingOut, entered := true }) ∧
       (r.state = .live ∨ r.state = .fadingIn → c.len = 0 → onCauses c set r = { r with
         causes := set, state := .safe, pos := 0, hold := none, stage := .none }) ∧
       (r.state = .fadingOut ∨ r.state = .unused → onCauses c set r = { r with causes := set }) ∧
       (r.state = .safe → onCauses c set r = { r with causes := set, hold := none, stage := .none })) ∧
     (causesEmpty r.causes = false → causesEmpty set = true →
       (r.state ≠ .safe → onCauses c set r = { r with causes := set }) ∧
       (r.state = .safe → c.waits = true → onCauses c set r = { r with
         causes := set, hold := none, stage := .await }) ∧
       (r.state = .safe → c.waits = false → 0 < c.hold → onCauses c set r = { r with
         causes := set, hold := some c.hold, stage := .hold }) ∧
       (r.state = .safe → c.waits = false → c.hold = 0 → onCauses c set r = { r with
         causes := set, state := if c.len = 0 then .live else .fadingIn, pos := 0, hold := none
         stage := .none })) ∧
     (causesEmpty r.causes = causesEmpty set → onCauses c set r = { r with causes := set })) ∧
  (∀ (c : OutCtx) (r : OutRec),
     let m := moveFades c r
     (r.state = .fadingOut → m.pos = r.pos - 1) ∧ (r.state = .fadingIn → m.pos = min (r.pos + 1) c.len) ∧
     (r.state = .live → m.pos = c.len) ∧ (r.state = .safe ∨ r.state = .unused → m.pos = 0) ∧
     (r.state = .unused → m.fallback = 0) ∧
     (r.state = .safe → c.fallback = true → r.causes.panic = false →
       m.fallback = min (r.fallback + 1) c.len) ∧
     (r.state ≠ .unused → r.state ≠ .safe ∨ c.fallback = false ∨ r.causes.panic = true →
       m.fallback = r.fallback - 1) ∧
     m = { r with pos := m.pos, fallback := m.fallback, entered := false }) ∧
  (∀ x : Int, (-8388608 ≤ x → x ≤ 8388607 → (limit24 x).toInt = x) ∧
     (x < -8388608 → (limit24 x).toInt = -8388608) ∧ (8388607 < x → (limit24 x).toInt = 8388607)) ∧
  (∀ (c : OutCtx) (signal fallbackIn : Sample) (r : OutRec),
     let y := outSample c signal fallbackIn r
     let rises : Prop := r.state = .safe ∧ c.fallback = true ∧ r.causes.panic = false
     (r.state = .unused → y = 0) ∧
     (c.len = 0 → (r.state = .live → y = signal) ∧ (rises → y = fallbackIn) ∧
       (r.state ≠ .live → ¬ rises → y = 0)) ∧
     (∀ n : Int, r.state ≠ .unused → 0 < c.len →
       2 * (signal.toInt * r.pos + fallbackIn.toInt * r.fallback) < (2 * n + 1) * c.len →
       (2 * n - 1) * c.len < 2 * (signal.toInt * r.pos + fallbackIn.toInt * r.fallback) → y = limit24 n)) ∧
  (∀ (x : Tap) (s : State),
     let on := allBuses.filter fun b => busHas x.listen b && heard s b
     let talk : Int := (on.map fun b => (s.lanes.heldTalk.getD (busIndex b) 0).toInt).sum
     let gain : Int := x.trim + if x.dim = true ∧ on ≠ [] then x.dimDepth else 0
     (x.source = .unused ∨ x.source = .talkOnly → composed s x = limit24 talk) ∧
     ((∃ n, x.source = .slot n) ∨ (∃ n, x.source = .loc n) →
       composed s x = limit24 (dbSum x.held.toInt gain talk))) ∧
  (∀ h k t : Int,
     (k % 20 = 0 → 0 ≤ k → dbSum h k t = h * 10 ^ (k / 20).toNat + t) ∧
     (∀ n : Int, k % 20 = 0 → k < 0 → 2 * h < (2 * n + 1) * 10 ^ (-k / 20).toNat →
       (2 * n - 1) * 10 ^ (-k / 20).toNat < 2 * h → dbSum h k t = n + t) ∧
     (k % 20 ≠ 0 → dbSum h k t = (if 0 ≤ h then (rootNearest h.natAbs k : Int) else - rootNearest h.natAbs k) + t)) ∧
  (∀ (a : Nat) (k : Int), a ≤ 2 ^ 23 → -80 ≤ k → k ≤ 40 → k % 20 ≠ 0 →
     (2 * rootNearest a k - 1) ^ 20 * 10 ^ (-k).toNat ≤ 2 ^ 20 * a ^ 20 * 10 ^ k.toNat ∧
     2 ^ 20 * a ^ 20 * 10 ^ k.toNat < (2 * rootNearest a k + 1) ^ 20 * 10 ^ (-k).toNat) ∧
  (∀ (n : Nat) (r : OutRec) (s : State), s.safety.outs[n]? = some r → ∃ l, (laneFrame s).lanes.out = some l ∧
     l[n]? = some ⟨outSample (outCtx s (tapAt s n)) (composed s (tapAt s n)) (delivered s r.fbInput) r,
       decide (r.state = .live ∨ r.state = .fadingIn)⟩) ∧
  (∀ (old new : Tap) (panic : Bool) (r : OutRec),
     let u := tapSafeMode old new r
     (∀ i, new.safe = .fallback i → old.safe ≠ .fallback i → u.fbInput = i) ∧
     (new.safe = .mute ∨ new.safe = old.safe → u = r) ∧
     (∀ i j, old.safe = .fallback i → new.safe = .fallback j → i ≠ j → u.fallback = 0) ∧
     (∀ i, old.safe = .mute → new.safe = .fallback i → u = { r with fbInput := i }) ∧
     (∀ i, new.safe = .fallback i → (softOut new panic r).fbInput = i))

/-! ### The Control Port (Section 11) -/

/-- CURRENCY_RETRY_EXPIRY (R14, R92): a SNAP_REQ for the master with the last applied serial is queued unless one
stands unsent, or discarded at a full queue, and the timer starts again; elsewhere no effect (log entry 3).
SILENCE_TIMER_EXPIRY (R154, R169): HOST_SILENT is set with the count and the span at the period, the timer
stops, and a MANUAL output that awaits RESUME begins to resume.
OPERATION_ANSWER_TIMEOUT and GO_TIMEOUT (R177, R184): an operation whose timer has run out leaves the table
with outcome NO_ANSWER; another, or none of that tag, is left. -/
def Obligations.WaitsRunOut : Prop :=
  (∀ s : State, s.inReset = false → Settled s →
     let again : State := { s with slots := { s.slots with retry := some (1000 * 96) } }
     let unsent : Prop := ∃ i ∈ s.queue.items, i.sends = 0 ∧ ∃ n, i.body = .snapReq n
     (s.slots.retry ≠ some 0 → ∃ t, exec .currencyRetryExpiry s = .next t ∧ Happened [] s s t) ∧
     (s.slots.retry = some 0 → unsent → ∃ t, exec .currencyRetryExpiry s = .next t ∧
       Happened [] s again t) ∧
     (s.slots.retry = some 0 → ¬ unsent → s.queue.items.length < 16 →
       ∃ t, exec .currencyRetryExpiry s = .next t ∧ Happened [] s
         { again with queue := queued .origin (.snapReq s.slots.lastApplied) none .loc s } t) ∧
     (s.slots.retry = some 0 → ¬ unsent → 16 ≤ s.queue.items.length →
       ∃ t, exec .currencyRetryExpiry s = .next t ∧
         Happened [.loopChange (loopView s) (.queueFull 4)] s again t)) ∧
  (∀ s : State, s.inReset = false → Settled s →
     (s.supervision.timer ≠ some 0 → ∃ t, exec .silenceTimerExpiry s = .next t ∧ Happened [] s s t) ∧
     (s.supervision.timer = some 0 → ∃ t outs, exec .silenceTimerExpiry s = .next t ∧
       outs.length = s.safety.outs.length ∧
       (∀ (n : Nat) (r : OutRec), s.safety.outs[n]? = some r →
         let x := tapAt s n
         let await : Prop := x.resume = .manual ∧ r.state = .safe ∧ causesEmpty r.causes = true ∧
           r.stage = .await
         (¬ await → outs[n]? = some r) ∧
         (await → s.safety.holdMs ≠ 0 → outs[n]? = some { r with
           hold := some (s.safety.holdMs * 96), stage := .hold }) ∧
         (await → s.safety.holdMs = 0 → outs[n]? = some { r with
           state := if fadeLen s.start.rate x = 0 then .live else .fadingIn
           pos := 0, hold := none, stage := .none })) ∧
       Happened [] s { s with
         safety := { s.safety with outs := outs }
         supervision := { s.supervision with
           timer := none, silent := true, since := some s.loop.count, span := s.supervision.periodMs
           spanTicks := 0 } } t)) ∧
  (∀ (tag : Byte) (s : State), s.inReset = false → Settled s →
     ((∀ o, findOp tag s = some o → o.answer ≠ some 0) →
       ∃ t, exec (.operationAnswerTimeout tag) s = .next t ∧ Happened [] s s t) ∧
     (∀ o, findOp tag s = some o → o.answer = some 0 →
       let res : OpResult := match o.gain with
         | some (n, i) => .gain n i
         | none => .none
       ∃ t, exec (.operationAnswerTimeout tag) s = .next t ∧
         Happened [.done tag o.kind (.no .noAnswer) res] s
           { s with ctl := (opEnded ⟨tag, o.kind, .no .noAnswer, res⟩ s.ctl) } t) ∧
     ((∀ o, findOp tag s = some o → o.kind ≠ .go ∨ o.limit ≠ some 0) →
       ∃ t, exec (.goTimeout tag) s = .next t ∧ Happened [] s s t) ∧
     (∀ o, findOp tag s = some o → o.kind = .go → o.limit = some 0 →
       ∃ t, exec (.goTimeout tag) s = .next t ∧ Happened [.done tag .go (.no .noAnswer) .none] s
         { s with ctl := (opEnded ⟨tag, .go, .no .noAnswer, .none⟩ s.ctl) } t))

/-- SPI_SELECT_FALL (R178, R182, R185): the older of the oldest inbox reply and the overflow reply is chosen, else
the head notice, also a notice cut short before (log entry 75, the model's choice), else an EMPTY frame; in UART mode
nothing is chosen by it. -/
def Obligations.SpiFrameChosen : Prop :=
  ∀ s : State, s.inReset = false → Settled s →
    let sends (c : Chosen) : Prop := exec .spiSelectFall s =
      .next { s with ctl := { s.ctl with chosen := some c, discarded := false } }
    (s.start.line = .spi →
      (∀ e, s.ctl.inbox.head? = some e → (∀ o, s.ctl.overflow = some o → e.made < o.made) →
        sends ⟨.inbox e.made, replyFrame e⟩) ∧
      (∀ o, s.ctl.overflow = some o → (∀ e, s.ctl.inbox.head? = some e → o.made ≤ e.made) →
        sends ⟨.overflow o.made, replyFrame o⟩) ∧
      (∀ n l, s.ctl.inbox = [] → s.ctl.overflow = none → s.ctl.notices = n :: l →
        sends ⟨.notice, noticeFrame s.ctl.lost n⟩) ∧
      (s.ctl.inbox = [] → s.ctl.overflow = none → s.ctl.notices = [] → sends ⟨.empty, emptyFrame⟩)) ∧
    (s.start.line = .uart → ∃ t, exec .spiSelectFall s = .next t ∧ Happened [] s s t)

/-- The bytes of a host frame (R178, R180): a well formed request frame is read as its tag, kind and body, whatever
follows it; a first byte other than A5 is no frame; after A5 a frame is damaged where its class is not 1, its
length above 250, the frame cut short or its check wrong.
SPI_TRANSACTION_END (R178, R179, R180, R181, R182, R185): the chosen item has been delivered when every byte of its
frame was clocked, and waits on otherwise; CPDO carries the frame from its first byte, and FFh once the frame is done
(that the bytes stand recorded after the transaction is log entry 87, the model's own); a damaged frame is answered in
the overflow reply place; a request frame is the request its bytes spell, or RANGE, or UNKNOWN, and BUSY where 4
entries stand. The delivery is taken before the request, so that it makes room (log entry 85, the model's choice). A transaction whose select fell
before the release, so that nothing is chosen, is abandoned (R179); in UART mode the row has no effect (log entry
5). -/
def Obligations.SpiTransactions : Prop :=
  ((∀ (tag kind : Byte) (body rest : List Byte), body.length ≤ 250 →
     judgeBytes (lineFrame 1 tag kind.toNat body ++ rest) = .good tag kind body) ∧
   (∀ l : List Byte, l.length < 4 → judgeBytes (0xA5 :: l) = .damaged) ∧
   (∀ (cls tag kind len : Byte) (rest : List Byte), cls ≠ 1 ∨ 250 < len.toNat ∨ rest.length < len.toNat + 2 →
     judgeBytes (0xA5 :: cls :: tag :: kind :: len :: rest) = .damaged) ∧
   (∀ (tag kind len : Byte) (body check rest : List Byte), body.length = len.toNat → check.length = 2 →
     check ≠ n2 (lineCheck ([1, tag, kind, len] ++ body)).toNat →
     judgeBytes ([0xA5, 1, tag, kind, len] ++ body ++ check ++ rest) = .damaged) ∧
   (∀ (b : Byte) (l : List Byte), b ≠ 0xA5 → judgeBytes (b :: l) = .silent) ∧ judgeBytes [] = .silent) ∧
  (∀ (l : List Byte) (s : State), s.inReset = false → Settled s → s.start.line = .spi →
     let ended (c : Chosen) : ControlRec := { s.ctl with
       chosen := none
       lineOut := c.bytes.take l.length ++ List.replicate (l.length - c.bytes.length) 0xFF }
     let left (c : Chosen) : ControlRec := match c.item with
       | .empty => ended c
       | .inbox n => { ended c with inbox := s.ctl.inbox.filter fun e => decide (e.made ≠ n) }
       | .overflow n => { ended c with overflow := s.ctl.overflow.filter fun e => decide (e.made ≠ n) }
       | .notice => { ended c with notices := s.ctl.notices.tail, lost := s.ctl.discarded }
     let passed (c : Chosen) : State :=
       { s with ctl := if c.bytes.length ≤ l.length then left c else ended c }
     (s.ctl.chosen = none → exec (.spiTransactionEnd l) s = .next s) ∧
     (∀ c, judgeBytes l = .silent → s.ctl.chosen = some c →
       exec (.spiTransactionEnd l) s = .next (passed c)) ∧
     (∀ c, judgeBytes l = .damaged → s.ctl.chosen = some c →
       exec (.spiTransactionEnd l) s = .next { passed c with ctl := { (passed c).ctl with
         overflow := some ⟨0, .damaged, s.ctl.made⟩, made := s.ctl.made + 1 } }) ∧
     (∀ c tag kind body i, judgeBytes l = .good tag kind body → parseRequest tag kind body = .request i →
       s.ctl.chosen = some c → exec (.spiTransactionEnd l) s = exec i (passed c)) ∧
     (∀ c tag kind body, judgeBytes l = .good tag kind body → s.ctl.chosen = some c → Taken (passed c) →
       (parseRequest tag kind body = .unfit → ∃ t, exec (.spiTransactionEnd l) s = .next t ∧
         Answered tag (.refused .range) [] (passed c) (goodRequest (passed c)) t) ∧
       (parseRequest tag kind body = .unknown → ∃ t, exec (.spiTransactionEnd l) s = .next t ∧
         Answered tag .unknown [] (passed c) (goodRequest (passed c)) t)) ∧
     (∀ c tag kind body, judgeBytes l = .good tag kind body → s.ctl.chosen = some c →
       4 ≤ (passed c).ctl.inbox.length → ∃ t, exec (.spiTransactionEnd l) s = .next t ∧
         t.ctl.overflow = some ⟨tag, .busy, s.ctl.made⟩ ∧ t.ctl.made = s.ctl.made + 1 ∧
         t.ctl.inbox = (passed c).ctl.inbox ∧ t.pending = s.pending ∧
         SameBlocks (goodRequest (passed c))
           { t with ctl := { t.ctl with overflow := (passed c).ctl.overflow } })) ∧
  (∀ (l : List Byte) (s : State), s.inReset = false → Settled s → s.start.line = .uart →
     ∃ t, exec (.spiTransactionEnd l) s = .next t ∧ Happened [] s s t)

/-- UART_BYTE_ARRIVAL, UART_FRAME_RECEIVE and UART_GAP_TIMEOUT (R179, R180, R181): a frame opens with A5, takes the
bytes up to the length it carries, and is judged with its last one; one left open for 1 ms is answered DAMAGED
(log entry 32). In SPI mode the rows have no effect (log entry 5), and UART_FRAME_RECEIVE has one with the
frame's last byte alone (log entries 4 and 5).
A complete frame is the request its bytes spell, or RANGE, or UNKNOWN, or DAMAGED, and BUSY where 4 entries stand.
UART_FRAME_SENT (R179, R182, R185): the item whose frame has left is delivered, CPDO having carried the frame alone
(recorded by log entry 87), and the next that waits is chosen: the older of the oldest inbox reply and the overflow
reply, else the head notice, else nothing. After any command a line that sends nothing has nothing waiting: what comes
to wait then is chosen at the end of its event (log entry 43, the model's choice). -/
def Obligations.UartLine : Prop :=
  (∀ (b : Byte) (s : State), s.inReset = false → Settled s →
     let opened (l : List Byte) : State := { s with ctl := { s.ctl with openFrame := some ⟨l, 0⟩ } }
     (∀ c, s.start.line = .spi → c = Instr.uartByteArrival b ∨ c = .uartFrameReceive b ∨ c = .uartGapTimeout ∨
         c = .uartFrameSent →
       ∃ t, exec c s = .next t ∧ Happened [] s s t) ∧
     (s.start.line = .uart →
       (s.ctl.openFrame = none → b ≠ 0xA5 → ∃ t, exec (.uartByteArrival b) s = .next t ∧
         Happened [] s s t) ∧
       (s.ctl.openFrame = none → b = 0xA5 → ∃ t, exec (.uartByteArrival b) s = .next t ∧
         Happened [] s (opened [b]) t) ∧
       (s.ctl.openFrame = none → ∃ t, exec (.uartFrameReceive b) s = .next t ∧ Happened [] s s t) ∧
       (∀ o, s.ctl.openFrame = some o → frameComplete (o.bytes ++ [b]) = false →
         (∃ t, exec (.uartByteArrival b) s = .next t ∧ Happened [] s (opened (o.bytes ++ [b])) t) ∧
         ∃ t, exec (.uartFrameReceive b) s = .next t ∧ Happened [] s s t) ∧
       (∀ o c, s.ctl.openFrame = some o → frameComplete (o.bytes ++ [b]) = true →
         c = Instr.uartByteArrival b ∨ c = .uartFrameReceive b →
         let closed : State := { s with ctl := { s.ctl with openFrame := none } }
         (∀ tag kind body i, judgeBytes (o.bytes ++ [b]) = .good tag kind body →
           parseRequest tag kind body = .request i → exec c s = exec i closed) ∧
         (judgeBytes (o.bytes ++ [b]) = .damaged → ∃ t, exec c s = .next t ∧
           SameBlocks { closed with ctl := { closed.ctl with
             overflow := some ⟨0, .damaged, s.ctl.made⟩ } } t ∧
           t.ctl.made = s.ctl.made + 1 ∧ t.ctl.inbox = s.ctl.inbox ∧ t.pending = s.pending) ∧
         (∀ tag kind body, judgeBytes (o.bytes ++ [b]) = .good tag kind body → Taken s →
           (parseRequest tag kind body = .unfit → ∃ t, exec c s = .next t ∧
             Answered tag (.refused .range) [] closed (goodRequest closed) t) ∧
           (parseRequest tag kind body = .unknown → ∃ t, exec c s = .next t ∧
             Answered tag .unknown [] closed (goodRequest closed) t)) ∧
         (∀ tag kind body, judgeBytes (o.bytes ++ [b]) = .good tag kind body → 4 ≤ s.ctl.inbox.length →
           ∃ t, exec c s = .next t ∧ t.ctl.overflow = some ⟨tag, .busy, s.ctl.made⟩ ∧
             t.ctl.made = s.ctl.made + 1 ∧ t.ctl.inbox = s.ctl.inbox ∧ t.pending = s.pending ∧
             SameBlocks (goodRequest closed)
               { t with ctl := { t.ctl with overflow := s.ctl.overflow } })) ∧
       ((∀ o, s.ctl.openFrame = some o → o.gap < 96) → ∃ t, exec .uartGapTimeout s = .next t ∧
         Happened [] s s t) ∧
       (∀ o, s.ctl.openFrame = some o → 96 ≤ o.gap → ∃ t, exec .uartGapTimeout s = .next t ∧
         SameBlocks { s with ctl := { s.ctl with
           openFrame := none, overflow := some ⟨0, .damaged, s.ctl.made⟩ } } t ∧
         t.ctl.made = s.ctl.made + 1 ∧ t.ctl.inbox = s.ctl.inbox ∧ t.pending = s.pending))) ∧
  (∀ s : State, s.inReset = false → Settled s → s.start.line = .uart →
     (s.ctl.chosen = none → ∃ t, exec .uartFrameSent s = .next t ∧ Happened [] s s t) ∧
     (∀ c, s.ctl.chosen = some c → ∃ t, exec .uartFrameSent s = .next t ∧
       t.ctl.inbox = (match c.item with
         | .inbox n => s.ctl.inbox.filter fun e => decide (e.made ≠ n)
         | .empty | .overflow _ | .notice => s.ctl.inbox) ∧
       t.ctl.notices = (match c.item with
         | .notice => s.ctl.notices.tail
         | .empty | .overflow _ | .inbox _ => s.ctl.notices) ∧
       t.ctl.lost = (match c.item with
         | .notice => s.ctl.discarded
         | .empty | .overflow _ | .inbox _ => s.ctl.lost) ∧
       SameBlocks { s with ctl := { s.ctl with
         lineOut := c.bytes
         overflow := (match c.item with
           | .overflow n => s.ctl.overflow.filter fun e => decide (e.made ≠ n)
           | .empty | .inbox _ | .notice => s.ctl.overflow) } } t ∧
       t.ctl.made = s.ctl.made ∧ t.pending = s.pending ∧ t.ctl.discarded = false ∧
       (∀ e, t.ctl.inbox.head? = some e → (∀ o, t.ctl.overflow = some o → e.made < o.made) →
         t.ctl.chosen = some ⟨.inbox e.made, replyFrame e⟩) ∧
       (∀ o, t.ctl.overflow = some o → (∀ e, t.ctl.inbox.head? = some e → o.made ≤ e.made) →
         t.ctl.chosen = some ⟨.overflow o.made, replyFrame o⟩) ∧
       (∀ n l, t.ctl.inbox = [] → t.ctl.overflow = none → t.ctl.notices = n :: l →
         t.ctl.chosen = some ⟨.notice, noticeFrame t.ctl.lost n⟩) ∧
       (t.ctl.chosen = none ↔ t.ctl.inbox = [] ∧ t.ctl.overflow = none ∧ t.ctl.notices = []))) ∧
  (∀ (c : Instr) (s t : State), exec c s = .next t → t.inReset = false → t.start.line = .uart →
     t.ctl.chosen = none → t.ctl.inbox = [] ∧ t.ctl.overflow = none ∧ t.ctl.notices = [])

/-! ### The frame period -/

/-- FRAME_PERIOD (R2, R8, R21, R48, R95, R96, R111): the input lanes' samples of the new period stand, every port
whose transmitter is on sends a frame with its own link field and check, the next frame position of the line's
rate is open (R25; at a line of the other rate log entry 14), the preamp lane is free, and HOLDN shows its
level. Both ports transmit last, so that no frame is left routed (log entries 7 and 8). The local frame count
rises by one for a period that brought no first visit, and by one with a frame originated (R2); a frame
originated early has moved it already (log entry 6, the model's choice). The lane frame shows the outputs as the
period closed (R96, R150). A running silence or PANIC filter timer counts down, as every timer does (0.5; log
entry 3).
The frame an origin builds (R3, R7, R8): the returned frame's slots, zeroed where no writer stands, and its cells
where it returned in time, those of nodes it did not visit emptied; it leaves by port B, or by port A beside a wrap
at B, with the origin's own entry in the hop list (R9, R48). The samples taps and talk buses take at a visit and in
a period (R95, R101, R103, R104). -/
def Obligations.FramePeriodPasses : Prop :=
  (∀ (inp : PeriodInput) (s : State), s.inReset = false → Settled s →
    ∃ t, exec (.framePeriod inp) s = .next t ∧ t.start = { s.start with holdn := inp.holdn } ∧
      t.lanes.present = (List.range 64).map (fun i => inp.lanes.getD i 0) ∧
      t.gain.laneUsed = false ∧ t.loop.originated = false ∧ t.lock.level = s.lock.level ∧
      t.pending = s.pending ∧ t.lanes.out = (laneFrame (closePeriod s)).lanes.out ∧
      (s.loop.role = .follower → s.start.role ≠ .deputy ∨ (s.loop.takeover ≠ some 0 ∧ 0 < s.loop.takeoverMs) →
        t.loop.count = if s.loop.visited then s.loop.count else s.loop.count + 1) ∧
      (s.loop.role = .origin → s.start.held = false → s.loop.conflict = none →
        let alone : FrameNo := if s.loop.visited then s.loop.count else s.loop.count + 1
        t.loop.count = if s.loop.originated then alone else alone + 1) ∧
      (∀ g, s.loop.role = .origin → s.start.held = false → s.loop.conflict = none → s.loop.originated = false →
        s.loop.group = some g → (∀ e, s.loop.restart ≠ .written e) →
        let q : PortId := if t.loop.wrapB = .none then .b else .a
        t.loop.role = .origin ∧ t.loop.group = some g ∧
          (t.usable q = true → (t.port q).txOn = true → ∃ f, (t.port q).txLine = some (f, frameCheck f) ∧
            f.slots.isSome = true ∧ f.header = ⟨t.loop.count, g, s.start.loopName, s.start.rate, s.lock.level,
              [s.start.id], [⟨s.start.id, match q with
                | .b => .forward
                | .a => .ret⟩]⟩)) ∧
      (∀ n, s.supervision.timer = some n → n ≠ 0 → (∀ e, s.loop.restart ≠ .written e) →
        t.supervision.timer = some (n - frameTicks s.start.rate)) ∧
      (∀ n, s.safety.panicT = some n → n ≠ 0 → t.safety.panicT = some (n - frameTicks s.start.rate)) ∧
      ∀ p, (t.port p).position < frameTicks (t.port p).lineRate ∧
        (frameTicks (t.port p).lineRate ≤ frameTicks s.start.rate → (t.port p).arrived = 0) ∧
        (t.port p).routed = none ∧ (t.port p).time = inp.now ∧
        ((t.port p).txOn = true → ∃ f l, (t.port p).txLine = some (f, frameCheck f) ∧ f.link = some l ∧
          l.sender = s.start.id ∧ l.port = p ∧ l.offer.sendStamp = inp.now) ∧
        ((t.port p).txOn = false → (t.port p).txLine = none)) ∧
  (∀ (d : Nat) (s : State),
    let t := tickAll d s
    let down (x : Timer) : Timer := x.map (· - d)
    (∀ p, (t.port p).settle = down (s.port p).settle ∧ (t.port p).offerT = down (s.port p).offerT ∧
      (t.port p).relock = down (s.port p).relock ∧ (t.port p).window = down (s.port p).window ∧
      (t.port p).drillT = down (s.port p).drillT) ∧
    t.loop.takeover = down s.loop.takeover ∧
    (∀ n p, (linkAt t n p).map (·.heal) = (linkAt s n p).map fun e => down e.heal) ∧
    t.slots.retry = down s.slots.retry ∧
    (∀ (i : Nat) (e : GainEntry), s.gain.table[i]? = some e →
      t.gain.table[i]? = some { e with mute := down e.mute }) ∧
    (∀ (i : Nat) (k : KeyRec), s.talk.keys[i]? = some k → t.talk.keys[i]? = some { k with
      press := k.press.map (fun x => ⟨x.since + d, x.tapMs⟩), answer := down k.answer, settle := down k.settle }) ∧
    (∀ (i : Nat) (r : OutRec), s.safety.outs[i]? = some r →
      t.safety.outs[i]? = some { r with hold := down r.hold }) ∧
    t.safety.panicT = down s.safety.panicT ∧ t.supervision.timer = down s.supervision.timer ∧
    (∀ tag, findOp tag t = (findOp tag s).map fun o => { o with answer := down o.answer, limit := down o.limit })) ∧
  (∀ (g : OriginGroup) (s : State),
    let f := buildFrame g s
    let e (i : Nat) : SlotEntry := entryAt s i
    let silence : List Sample := List.replicate (slotCount s.start.rate) 0
    let base : List Sample := match s.loop.orig.returned with
      | some r => r.slots.getD silence
      | none => silence
    f.header = ⟨s.loop.count, g, s.start.loopName, s.start.rate, s.lock.level, [], []⟩ ∧ f.link = none ∧
    (s.loop.orig.returned = none ∨ s.loop.orig.inTime = false → f.cells = List.replicate 8 none) ∧
    (∀ (r : Frame) (i : NodeId) (c : Option Message), s.loop.orig.returned = some r → s.loop.orig.inTime = true →
      r.cells[i.val]? = some c → f.cells[i.val]? = some (if i ∈ r.header.visited then c else none)) ∧
    ∃ l, f.slots = some l ∧ ∀ (i : Nat) (x : Sample), base[i]? = some x → l[i]? = some
      (if (e i).state = .free ∨ ((e i).state = .talk ∧ (e i).writer = none) then 0 else x)) ∧
  (∀ (l : List Sample) (i : Nat) (x : Tap) (s : State), s.lanes.taps[i]? = some x →
    ((∀ n, x.source = .slot n → loopMode s ≠ .isolated → x.valid = true →
        (visitSamples l s).lanes.taps[i]? = some { x with held := l.getD n 0 }) ∧
      ((∀ n, x.source ≠ .slot n) ∨ loopMode s = .isolated ∨ x.valid = false →
        (visitSamples l s).lanes.taps[i]? = some x) ∧
      ∀ b, (visitSamples l s).lanes.heldTalk[busIndex b]? = some
        (if heard s b then l.getD (talkSlot s.start.rate b) 0 else 0)) ∧
    (∀ n, x.source = .loc n → (periodSamples s).lanes.taps[i]? = some { x with held := delivered s n }) ∧
    (∀ n k, x.source = .slot n → loopMode s = .isolated → x.valid = true → (entryAt s n).input = some k →
      (periodSamples s).lanes.taps[i]? = some { x with held := delivered s k }) ∧
    ((∀ n, x.source ≠ .loc n) → loopMode s ≠ .isolated ∨ x.valid = false ∨ (∀ n, x.source ≠ .slot n) →
      (periodSamples s).lanes.taps[i]? = some x))

/-! ### Invariants that every step keeps -/

/-- No output may be heard, or come to be heard by its hold timer, under a safe cause (R149, R152). -/
def Obligations.StepKeepsOutputsSafe : Prop :=
  ∀ s t : State, (s.inReset = true → ResetClear s) → OutputsSafe s → step s = .next t → OutputsSafe t

/-- No place of the part is overfilled (R14, R181, R183, R184, R185). -/
def Obligations.StepKeepsRoom : Prop :=
  ∀ s t : State, (s.inReset = true → ResetClear s) → WithinRoom s → step s = .next t → WithinRoom t

/-- The pending switch list holds one entry per sender at most, all of the present epoch (R18).
A wrap stands at one port at most, a PLANNED one at a usable port, a LOSS one at an unusable port beside a
usable one (R43, R52, R53). -/
def Obligations.StepKeepsListsAndWraps : Prop :=
  (∀ s t : State, (s.inReset = true → ResetClear s) → PendingInOrder s → step s = .next t → PendingInOrder t) ∧
  (∀ s t : State, (s.inReset = true → ResetClear s) → WrapsInOrder s → step s = .next t → WrapsInOrder t)

/-- While a POWER or PIN reset is held every block stands at its values after the reset (R171); else what is derived
stands as the rest of the state gives it (R63, R77, R92, R102, R104, R147). That a takeover timer and a copy's
currency follow the loop mode at the close of every event is the model's reading (log entry 37); the identity
that stands while a reset is held is the model's choice (log entry 1). -/
def Obligations.StepKeepsDerived : Prop :=
  ∀ s t : State, (s.inReset = true → ResetClear s) → (s.inReset = false → Settled s) → step s = .next t →
    (t.inReset = true → ResetClear t) ∧ (t.inReset = false → Settled t)

/-- The machine right after reset, while the first POWER reset is held, is in order: its blocks at their values after
the reset, its outputs safe, its places within their bounds. The identity with which the blocks stand until the straps
are read (node id 0, STAGE, MEMBER, with the gain table and the lock view that go with it) is the model's choice (log
entry 1). -/
def Obligations.ResetInOrder : Prop :=
  State.reset.inReset = true ∧ ResetClear State.reset ∧ OutputsSafe State.reset ∧ WithinRoom State.reset ∧
    PendingInOrder State.reset ∧ WrapsInOrder State.reset
end

