-- ==== Sys2Proof/Laws/State.lean ====
section
/-! SUPPORT. Reading a field after an update of the state: one lemma per field per named update, true by
`rfl`, so that no proof unfolds a record update. -/

namespace Sys2Proof.Machine

open Sys2Proof

/-! ### A port record is replaced -/

@[simp] theorem port_setPort (s : State) (p : PortId) (r : PortRec) : (s.setPort p r).port p = r := by
  cases p <;> rfl
@[simp] theorem port_setPort_other (s : State) (p : PortId) (r : PortRec) :
    (s.setPort p r).port (portOther p) = s.port (portOther p) := by
  cases p <;> rfl
@[simp] theorem port_other_setPort (s : State) (p : PortId) (r : PortRec) :
    (s.setPort (portOther p) r).port p = s.port p := by
  cases p <;> rfl
@[simp] theorem portOther_portOther (p : PortId) : portOther (portOther p) = p := by cases p <;> rfl
@[simp] theorem setPort_port (s : State) (p : PortId) : s.setPort p (s.port p) = s := by
  cases p <;> rfl
@[simp] theorem setPort_setPort (s : State) (p : PortId) (q r : PortRec) :
    (s.setPort p q).setPort p r = s.setPort p r := by
  cases p <;> rfl
@[simp] theorem usable_setPort (s : State) (p : PortId) (r : PortRec) :
    (s.setPort p r).usable p = portUsable r := by
  cases p <;> rfl
@[simp] theorem usable_setPort_other (s : State) (p : PortId) (r : PortRec) :
    (s.setPort p r).usable (portOther p) = s.usable (portOther p) := by
  cases p <;> rfl
@[simp] theorem wrapAt_setPort (s : State) (p q : PortId) (r : PortRec) :
    (s.setPort p r).wrapAt q = s.wrapAt q := by
  cases p <;> cases q <;> rfl
@[simp] theorem start_setPort (s : State) (p : PortId) (r : PortRec) :
    (s.setPort p r).start = s.start := by cases p <;> rfl
@[simp] theorem loop_setPort (s : State) (p : PortId) (r : PortRec) :
    (s.setPort p r).loop = s.loop := by cases p <;> rfl
@[simp] theorem queue_setPort (s : State) (p : PortId) (r : PortRec) :
    (s.setPort p r).queue = s.queue := by cases p <;> rfl
@[simp] theorem snap_setPort (s : State) (p : PortId) (r : PortRec) :
    (s.setPort p r).snap = s.snap := by cases p <;> rfl
@[simp] theorem switches_setPort (s : State) (p : PortId) (r : PortRec) :
    (s.setPort p r).switches = s.switches := by cases p <;> rfl
@[simp] theorem slots_setPort (s : State) (p : PortId) (r : PortRec) :
    (s.setPort p r).slots = s.slots := by cases p <;> rfl
@[simp] theorem lanes_setPort (s : State) (p : PortId) (r : PortRec) :
    (s.setPort p r).lanes = s.lanes := by cases p <;> rfl
@[simp] theorem gain_setPort (s : State) (p : PortId) (r : PortRec) :
    (s.setPort p r).gain = s.gain := by cases p <;> rfl
@[simp] theorem talk_setPort (s : State) (p : PortId) (r : PortRec) :
    (s.setPort p r).talk = s.talk := by cases p <;> rfl
@[simp] theorem safety_setPort (s : State) (p : PortId) (r : PortRec) :
    (s.setPort p r).safety = s.safety := by cases p <;> rfl
@[simp] theorem lock_setPort (s : State) (p : PortId) (r : PortRec) :
    (s.setPort p r).lock = s.lock := by cases p <;> rfl
@[simp] theorem supervision_setPort (s : State) (p : PortId) (r : PortRec) :
    (s.setPort p r).supervision = s.supervision := by cases p <;> rfl
@[simp] theorem ctl_setPort (s : State) (p : PortId) (r : PortRec) :
    (s.setPort p r).ctl = s.ctl := by cases p <;> rfl
@[simp] theorem pending_setPort (s : State) (p : PortId) (r : PortRec) :
    (s.setPort p r).pending = s.pending := by cases p <;> rfl

/-! ### A wrap is replaced -/

@[simp] theorem wrapAt_setWrap (s : State) (p : PortId) (w : Wrap) : (s.setWrap p w).wrapAt p = w := by
  cases p <;> rfl
@[simp] theorem wrapAt_setWrap_other (s : State) (p : PortId) (w : Wrap) :
    (s.setWrap p w).wrapAt (portOther p) = s.wrapAt (portOther p) := by
  cases p <;> rfl
@[simp] theorem wrapAt_other_setWrap (s : State) (p : PortId) (w : Wrap) :
    (s.setWrap (portOther p) w).wrapAt p = s.wrapAt p := by
  cases p <;> rfl
@[simp] theorem port_setWrap (s : State) (p q : PortId) (w : Wrap) : (s.setWrap p w).port q = s.port q := by
  cases p <;> cases q <;> rfl
@[simp] theorem usable_setWrap (s : State) (p q : PortId) (w : Wrap) :
    (s.setWrap p w).usable q = s.usable q := by
  cases p <;> cases q <;> rfl
@[simp] theorem start_setWrap (s : State) (p : PortId) (w : Wrap) :
    (s.setWrap p w).start = s.start := by cases p <;> rfl
@[simp] theorem queue_setWrap (s : State) (p : PortId) (w : Wrap) :
    (s.setWrap p w).queue = s.queue := by cases p <;> rfl
@[simp] theorem snap_setWrap (s : State) (p : PortId) (w : Wrap) :
    (s.setWrap p w).snap = s.snap := by cases p <;> rfl
@[simp] theorem switches_setWrap (s : State) (p : PortId) (w : Wrap) :
    (s.setWrap p w).switches = s.switches := by cases p <;> rfl
@[simp] theorem slots_setWrap (s : State) (p : PortId) (w : Wrap) :
    (s.setWrap p w).slots = s.slots := by cases p <;> rfl
@[simp] theorem lanes_setWrap (s : State) (p : PortId) (w : Wrap) :
    (s.setWrap p w).lanes = s.lanes := by cases p <;> rfl
@[simp] theorem gain_setWrap (s : State) (p : PortId) (w : Wrap) :
    (s.setWrap p w).gain = s.gain := by cases p <;> rfl
@[simp] theorem talk_setWrap (s : State) (p : PortId) (w : Wrap) :
    (s.setWrap p w).talk = s.talk := by cases p <;> rfl
@[simp] theorem safety_setWrap (s : State) (p : PortId) (w : Wrap) :
    (s.setWrap p w).safety = s.safety := by cases p <;> rfl
@[simp] theorem lock_setWrap (s : State) (p : PortId) (w : Wrap) :
    (s.setWrap p w).lock = s.lock := by cases p <;> rfl
@[simp] theorem supervision_setWrap (s : State) (p : PortId) (w : Wrap) :
    (s.setWrap p w).supervision = s.supervision := by cases p <;> rfl
@[simp] theorem ctl_setWrap (s : State) (p : PortId) (w : Wrap) :
    (s.setWrap p w).ctl = s.ctl := by cases p <;> rfl
@[simp] theorem pending_setWrap (s : State) (p : PortId) (w : Wrap) :
    (s.setWrap p w).pending = s.pending := by cases p <;> rfl
@[simp] theorem loop_role_setWrap (s : State) (p : PortId) (w : Wrap) :
    (s.setWrap p w).loop.role = s.loop.role := by cases p <;> rfl
@[simp] theorem loop_group_setWrap (s : State) (p : PortId) (w : Wrap) :
    (s.setWrap p w).loop.group = s.loop.group := by cases p <;> rfl
@[simp] theorem loop_following_setWrap (s : State) (p : PortId) (w : Wrap) :
    (s.setWrap p w).loop.following = s.loop.following := by cases p <;> rfl
@[simp] theorem loop_epoch_setWrap (s : State) (p : PortId) (w : Wrap) :
    (s.setWrap p w).loop.epoch = s.loop.epoch := by cases p <;> rfl
@[simp] theorem loop_count_setWrap (s : State) (p : PortId) (w : Wrap) :
    (s.setWrap p w).loop.count = s.loop.count := by cases p <;> rfl
@[simp] theorem loop_timeout_setWrap (s : State) (p : PortId) (w : Wrap) :
    (s.setWrap p w).loop.timeout = s.loop.timeout := by cases p <;> rfl
@[simp] theorem loop_takeover_setWrap (s : State) (p : PortId) (w : Wrap) :
    (s.setWrap p w).loop.takeover = s.loop.takeover := by cases p <;> rfl
@[simp] theorem loop_conflict_setWrap (s : State) (p : PortId) (w : Wrap) :
    (s.setWrap p w).loop.conflict = s.loop.conflict := by cases p <;> rfl
@[simp] theorem loop_policy_setWrap (s : State) (p : PortId) (w : Wrap) :
    (s.setWrap p w).loop.policy = s.loop.policy := by cases p <;> rfl
@[simp] theorem loop_healDelay_setWrap (s : State) (p : PortId) (w : Wrap) :
    (s.setWrap p w).loop.healDelay = s.loop.healDelay := by cases p <;> rfl
@[simp] theorem loop_takeoverMs_setWrap (s : State) (p : PortId) (w : Wrap) :
    (s.setWrap p w).loop.takeoverMs = s.loop.takeoverMs := by cases p <;> rfl
@[simp] theorem loop_preempt_setWrap (s : State) (p : PortId) (w : Wrap) :
    (s.setWrap p w).loop.preempt = s.loop.preempt := by cases p <;> rfl
@[simp] theorem loop_links_setWrap (s : State) (p : PortId) (w : Wrap) :
    (s.setWrap p w).loop.links = s.loop.links := by cases p <;> rfl
@[simp] theorem loop_plan_setWrap (s : State) (p : PortId) (w : Wrap) :
    (s.setWrap p w).loop.plan = s.loop.plan := by cases p <;> rfl
@[simp] theorem loop_restart_setWrap (s : State) (p : PortId) (w : Wrap) :
    (s.setWrap p w).loop.restart = s.loop.restart := by cases p <;> rfl

/-! ### Small named updates -/

@[simp] theorem portA_setGainEntry (i : Nat) (e : GainEntry) (s : State) :
    (setGainEntry i e s).portA = s.portA := rfl
@[simp] theorem portB_setGainEntry (i : Nat) (e : GainEntry) (s : State) :
    (setGainEntry i e s).portB = s.portB := rfl
@[simp] theorem start_setGainEntry (i : Nat) (e : GainEntry) (s : State) :
    (setGainEntry i e s).start = s.start := rfl
@[simp] theorem loop_setGainEntry (i : Nat) (e : GainEntry) (s : State) :
    (setGainEntry i e s).loop = s.loop := rfl
@[simp] theorem queue_setGainEntry (i : Nat) (e : GainEntry) (s : State) :
    (setGainEntry i e s).queue = s.queue := rfl
@[simp] theorem snap_setGainEntry (i : Nat) (e : GainEntry) (s : State) :
    (setGainEntry i e s).snap = s.snap := rfl
@[simp] theorem switches_setGainEntry (i : Nat) (e : GainEntry) (s : State) :
    (setGainEntry i e s).switches = s.switches := rfl
@[simp] theorem slots_setGainEntry (i : Nat) (e : GainEntry) (s : State) :
    (setGainEntry i e s).slots = s.slots := rfl
@[simp] theorem lanes_setGainEntry (i : Nat) (e : GainEntry) (s : State) :
    (setGainEntry i e s).lanes = s.lanes := rfl
@[simp] theorem talk_setGainEntry (i : Nat) (e : GainEntry) (s : State) :
    (setGainEntry i e s).talk = s.talk := rfl
@[simp] theorem safety_setGainEntry (i : Nat) (e : GainEntry) (s : State) :
    (setGainEntry i e s).safety = s.safety := rfl
@[simp] theorem lock_setGainEntry (i : Nat) (e : GainEntry) (s : State) :
    (setGainEntry i e s).lock = s.lock := rfl
@[simp] theorem supervision_setGainEntry (i : Nat) (e : GainEntry) (s : State) :
    (setGainEntry i e s).supervision = s.supervision := rfl
@[simp] theorem ctl_setGainEntry (i : Nat) (e : GainEntry) (s : State) :
    (setGainEntry i e s).ctl = s.ctl := rfl
@[simp] theorem pending_setGainEntry (i : Nat) (e : GainEntry) (s : State) :
    (setGainEntry i e s).pending = s.pending := rfl
@[simp] theorem portA_setKeyRec (k : KeyName) (r : KeyRec) (s : State) :
    (setKeyRec k r s).portA = s.portA := rfl
@[simp] theorem portB_setKeyRec (k : KeyName) (r : KeyRec) (s : State) :
    (setKeyRec k r s).portB = s.portB := rfl
@[simp] theorem start_setKeyRec (k : KeyName) (r : KeyRec) (s : State) :
    (setKeyRec k r s).start = s.start := rfl
@[simp] theorem loop_setKeyRec (k : KeyName) (r : KeyRec) (s : State) :
    (setKeyRec k r s).loop = s.loop := rfl
@[simp] theorem queue_setKeyRec (k : KeyName) (r : KeyRec) (s : State) :
    (setKeyRec k r s).queue = s.queue := rfl
@[simp] theorem snap_setKeyRec (k : KeyName) (r : KeyRec) (s : State) :
    (setKeyRec k r s).snap = s.snap := rfl
@[simp] theorem switches_setKeyRec (k : KeyName) (r : KeyRec) (s : State) :
    (setKeyRec k r s).switches = s.switches := rfl
@[simp] theorem slots_setKeyRec (k : KeyName) (r : KeyRec) (s : State) :
    (setKeyRec k r s).slots = s.slots := rfl
@[simp] theorem lanes_setKeyRec (k : KeyName) (r : KeyRec) (s : State) :
    (setKeyRec k r s).lanes = s.lanes := rfl
@[simp] theorem gain_setKeyRec (k : KeyName) (r : KeyRec) (s : State) :
    (setKeyRec k r s).gain = s.gain := rfl
@[simp] theorem safety_setKeyRec (k : KeyName) (r : KeyRec) (s : State) :
    (setKeyRec k r s).safety = s.safety := rfl
@[simp] theorem lock_setKeyRec (k : KeyName) (r : KeyRec) (s : State) :
    (setKeyRec k r s).lock = s.lock := rfl
@[simp] theorem supervision_setKeyRec (k : KeyName) (r : KeyRec) (s : State) :
    (setKeyRec k r s).supervision = s.supervision := rfl
@[simp] theorem ctl_setKeyRec (k : KeyName) (r : KeyRec) (s : State) :
    (setKeyRec k r s).ctl = s.ctl := rfl
@[simp] theorem pending_setKeyRec (k : KeyName) (r : KeyRec) (s : State) :
    (setKeyRec k r s).pending = s.pending := rfl
@[simp] theorem portA_setBusRec (b : Bus) (r : BusRec) (s : State) :
    (setBusRec b r s).portA = s.portA := rfl
@[simp] theorem portB_setBusRec (b : Bus) (r : BusRec) (s : State) :
    (setBusRec b r s).portB = s.portB := rfl
@[simp] theorem start_setBusRec (b : Bus) (r : BusRec) (s : State) :
    (setBusRec b r s).start = s.start := rfl
@[simp] theorem loop_setBusRec (b : Bus) (r : BusRec) (s : State) :
    (setBusRec b r s).loop = s.loop := rfl
@[simp] theorem queue_setBusRec (b : Bus) (r : BusRec) (s : State) :
    (setBusRec b r s).queue = s.queue := rfl
@[simp] theorem snap_setBusRec (b : Bus) (r : BusRec) (s : State) :
    (setBusRec b r s).snap = s.snap := rfl
@[simp] theorem switches_setBusRec (b : Bus) (r : BusRec) (s : State) :
    (setBusRec b r s).switches = s.switches := rfl
@[simp] theorem slots_setBusRec (b : Bus) (r : BusRec) (s : State) :
    (setBusRec b r s).slots = s.slots := rfl
@[simp] theorem lanes_setBusRec (b : Bus) (r : BusRec) (s : State) :
    (setBusRec b r s).lanes = s.lanes := rfl
@[simp] theorem gain_setBusRec (b : Bus) (r : BusRec) (s : State) :
    (setBusRec b r s).gain = s.gain := rfl
@[simp] theorem safety_setBusRec (b : Bus) (r : BusRec) (s : State) :
    (setBusRec b r s).safety = s.safety := rfl
@[simp] theorem lock_setBusRec (b : Bus) (r : BusRec) (s : State) :
    (setBusRec b r s).lock = s.lock := rfl
@[simp] theorem supervision_setBusRec (b : Bus) (r : BusRec) (s : State) :
    (setBusRec b r s).supervision = s.supervision := rfl
@[simp] theorem ctl_setBusRec (b : Bus) (r : BusRec) (s : State) :
    (setBusRec b r s).ctl = s.ctl := rfl
@[simp] theorem pending_setBusRec (b : Bus) (r : BusRec) (s : State) :
    (setBusRec b r s).pending = s.pending := rfl
@[simp] theorem portA_setTalkWriter (b : Bus) (w : Option NodeId) (s : State) :
    (setTalkWriter b w s).portA = s.portA := rfl
@[simp] theorem portB_setTalkWriter (b : Bus) (w : Option NodeId) (s : State) :
    (setTalkWriter b w s).portB = s.portB := rfl
@[simp] theorem start_setTalkWriter (b : Bus) (w : Option NodeId) (s : State) :
    (setTalkWriter b w s).start = s.start := rfl
@[simp] theorem loop_setTalkWriter (b : Bus) (w : Option NodeId) (s : State) :
    (setTalkWriter b w s).loop = s.loop := rfl
@[simp] theorem queue_setTalkWriter (b : Bus) (w : Option NodeId) (s : State) :
    (setTalkWriter b w s).queue = s.queue := rfl
@[simp] theorem snap_setTalkWriter (b : Bus) (w : Option NodeId) (s : State) :
    (setTalkWriter b w s).snap = s.snap := rfl
@[simp] theorem switches_setTalkWriter (b : Bus) (w : Option NodeId) (s : State) :
    (setTalkWriter b w s).switches = s.switches := rfl
@[simp] theorem lanes_setTalkWriter (b : Bus) (w : Option NodeId) (s : State) :
    (setTalkWriter b w s).lanes = s.lanes := rfl
@[simp] theorem gain_setTalkWriter (b : Bus) (w : Option NodeId) (s : State) :
    (setTalkWriter b w s).gain = s.gain := rfl
@[simp] theorem talk_setTalkWriter (b : Bus) (w : Option NodeId) (s : State) :
    (setTalkWriter b w s).talk = s.talk := rfl
@[simp] theorem safety_setTalkWriter (b : Bus) (w : Option NodeId) (s : State) :
    (setTalkWriter b w s).safety = s.safety := rfl
@[simp] theorem lock_setTalkWriter (b : Bus) (w : Option NodeId) (s : State) :
    (setTalkWriter b w s).lock = s.lock := rfl
@[simp] theorem supervision_setTalkWriter (b : Bus) (w : Option NodeId) (s : State) :
    (setTalkWriter b w s).supervision = s.supervision := rfl
@[simp] theorem ctl_setTalkWriter (b : Bus) (w : Option NodeId) (s : State) :
    (setTalkWriter b w s).ctl = s.ctl := rfl
@[simp] theorem pending_setTalkWriter (b : Bus) (w : Option NodeId) (s : State) :
    (setTalkWriter b w s).pending = s.pending := rfl
@[simp] theorem portA_modifyOut (i : Nat) (f : OutRec → OutRec) (s : State) :
    (modifyOut i f s).portA = s.portA := rfl
@[simp] theorem portB_modifyOut (i : Nat) (f : OutRec → OutRec) (s : State) :
    (modifyOut i f s).portB = s.portB := rfl
@[simp] theorem start_modifyOut (i : Nat) (f : OutRec → OutRec) (s : State) :
    (modifyOut i f s).start = s.start := rfl
@[simp] theorem loop_modifyOut (i : Nat) (f : OutRec → OutRec) (s : State) :
    (modifyOut i f s).loop = s.loop := rfl
@[simp] theorem queue_modifyOut (i : Nat) (f : OutRec → OutRec) (s : State) :
    (modifyOut i f s).queue = s.queue := rfl
@[simp] theorem snap_modifyOut (i : Nat) (f : OutRec → OutRec) (s : State) :
    (modifyOut i f s).snap = s.snap := rfl
@[simp] theorem switches_modifyOut (i : Nat) (f : OutRec → OutRec) (s : State) :
    (modifyOut i f s).switches = s.switches := rfl
@[simp] theorem slots_modifyOut (i : Nat) (f : OutRec → OutRec) (s : State) :
    (modifyOut i f s).slots = s.slots := rfl
@[simp] theorem lanes_modifyOut (i : Nat) (f : OutRec → OutRec) (s : State) :
    (modifyOut i f s).lanes = s.lanes := rfl
@[simp] theorem gain_modifyOut (i : Nat) (f : OutRec → OutRec) (s : State) :
    (modifyOut i f s).gain = s.gain := rfl
@[simp] theorem talk_modifyOut (i : Nat) (f : OutRec → OutRec) (s : State) :
    (modifyOut i f s).talk = s.talk := rfl
@[simp] theorem lock_modifyOut (i : Nat) (f : OutRec → OutRec) (s : State) :
    (modifyOut i f s).lock = s.lock := rfl
@[simp] theorem supervision_modifyOut (i : Nat) (f : OutRec → OutRec) (s : State) :
    (modifyOut i f s).supervision = s.supervision := rfl
@[simp] theorem ctl_modifyOut (i : Nat) (f : OutRec → OutRec) (s : State) :
    (modifyOut i f s).ctl = s.ctl := rfl
@[simp] theorem pending_modifyOut (i : Nat) (f : OutRec → OutRec) (s : State) :
    (modifyOut i f s).pending = s.pending := rfl
@[simp] theorem portA_mapOuts (f : Nat → Tap → OutRec → OutRec) (s : State) :
    (mapOuts f s).portA = s.portA := rfl
@[simp] theorem portB_mapOuts (f : Nat → Tap → OutRec → OutRec) (s : State) :
    (mapOuts f s).portB = s.portB := rfl
@[simp] theorem start_mapOuts (f : Nat → Tap → OutRec → OutRec) (s : State) :
    (mapOuts f s).start = s.start := rfl
@[simp] theorem loop_mapOuts (f : Nat → Tap → OutRec → OutRec) (s : State) :
    (mapOuts f s).loop = s.loop := rfl
@[simp] theorem queue_mapOuts (f : Nat → Tap → OutRec → OutRec) (s : State) :
    (mapOuts f s).queue = s.queue := rfl
@[simp] theorem snap_mapOuts (f : Nat → Tap → OutRec → OutRec) (s : State) :
    (mapOuts f s).snap = s.snap := rfl
@[simp] theorem switches_mapOuts (f : Nat → Tap → OutRec → OutRec) (s : State) :
    (mapOuts f s).switches = s.switches := rfl
@[simp] theorem slots_mapOuts (f : Nat → Tap → OutRec → OutRec) (s : State) :
    (mapOuts f s).slots = s.slots := rfl
@[simp] theorem lanes_mapOuts (f : Nat → Tap → OutRec → OutRec) (s : State) :
    (mapOuts f s).lanes = s.lanes := rfl
@[simp] theorem gain_mapOuts (f : Nat → Tap → OutRec → OutRec) (s : State) :
    (mapOuts f s).gain = s.gain := rfl
@[simp] theorem talk_mapOuts (f : Nat → Tap → OutRec → OutRec) (s : State) :
    (mapOuts f s).talk = s.talk := rfl
@[simp] theorem lock_mapOuts (f : Nat → Tap → OutRec → OutRec) (s : State) :
    (mapOuts f s).lock = s.lock := rfl
@[simp] theorem supervision_mapOuts (f : Nat → Tap → OutRec → OutRec) (s : State) :
    (mapOuts f s).supervision = s.supervision := rfl
@[simp] theorem ctl_mapOuts (f : Nat → Tap → OutRec → OutRec) (s : State) :
    (mapOuts f s).ctl = s.ctl := rfl
@[simp] theorem pending_mapOuts (f : Nat → Tap → OutRec → OutRec) (s : State) :
    (mapOuts f s).pending = s.pending := rfl
@[simp] theorem portA_addOp (o : Operation) (s : State) :
    (addOp o s).portA = s.portA := rfl
@[simp] theorem portB_addOp (o : Operation) (s : State) :
    (addOp o s).portB = s.portB := rfl
@[simp] theorem start_addOp (o : Operation) (s : State) :
    (addOp o s).start = s.start := rfl
@[simp] theorem loop_addOp (o : Operation) (s : State) :
    (addOp o s).loop = s.loop := rfl
@[simp] theorem queue_addOp (o : Operation) (s : State) :
    (addOp o s).queue = s.queue := rfl
@[simp] theorem snap_addOp (o : Operation) (s : State) :
    (addOp o s).snap = s.snap := rfl
@[simp] theorem switches_addOp (o : Operation) (s : State) :
    (addOp o s).switches = s.switches := rfl
@[simp] theorem slots_addOp (o : Operation) (s : State) :
    (addOp o s).slots = s.slots := rfl
@[simp] theorem lanes_addOp (o : Operation) (s : State) :
    (addOp o s).lanes = s.lanes := rfl
@[simp] theorem gain_addOp (o : Operation) (s : State) :
    (addOp o s).gain = s.gain := rfl
@[simp] theorem talk_addOp (o : Operation) (s : State) :
    (addOp o s).talk = s.talk := rfl
@[simp] theorem safety_addOp (o : Operation) (s : State) :
    (addOp o s).safety = s.safety := rfl
@[simp] theorem lock_addOp (o : Operation) (s : State) :
    (addOp o s).lock = s.lock := rfl
@[simp] theorem supervision_addOp (o : Operation) (s : State) :
    (addOp o s).supervision = s.supervision := rfl
@[simp] theorem pending_addOp (o : Operation) (s : State) :
    (addOp o s).pending = s.pending := rfl
@[simp] theorem portA_push (d : QDest) (m : LoopMsg) (o : Option Byte) (c : GainCause) (s : State) :
    (push d m o c s).portA = s.portA := rfl
@[simp] theorem portB_push (d : QDest) (m : LoopMsg) (o : Option Byte) (c : GainCause) (s : State) :
    (push d m o c s).portB = s.portB := rfl
@[simp] theorem start_push (d : QDest) (m : LoopMsg) (o : Option Byte) (c : GainCause) (s : State) :
    (push d m o c s).start = s.start := rfl
@[simp] theorem loop_push (d : QDest) (m : LoopMsg) (o : Option Byte) (c : GainCause) (s : State) :
    (push d m o c s).loop = s.loop := rfl
@[simp] theorem snap_push (d : QDest) (m : LoopMsg) (o : Option Byte) (c : GainCause) (s : State) :
    (push d m o c s).snap = s.snap := rfl
@[simp] theorem switches_push (d : QDest) (m : LoopMsg) (o : Option Byte) (c : GainCause) (s : State) :
    (push d m o c s).switches = s.switches := rfl
@[simp] theorem slots_push (d : QDest) (m : LoopMsg) (o : Option Byte) (c : GainCause) (s : State) :
    (push d m o c s).slots = s.slots := rfl
@[simp] theorem lanes_push (d : QDest) (m : LoopMsg) (o : Option Byte) (c : GainCause) (s : State) :
    (push d m o c s).lanes = s.lanes := rfl
@[simp] theorem gain_push (d : QDest) (m : LoopMsg) (o : Option Byte) (c : GainCause) (s : State) :
    (push d m o c s).gain = s.gain := rfl
@[simp] theorem talk_push (d : QDest) (m : LoopMsg) (o : Option Byte) (c : GainCause) (s : State) :
    (push d m o c s).talk = s.talk := rfl
@[simp] theorem safety_push (d : QDest) (m : LoopMsg) (o : Option Byte) (c : GainCause) (s : State) :
    (push d m o c s).safety = s.safety := rfl
@[simp] theorem lock_push (d : QDest) (m : LoopMsg) (o : Option Byte) (c : GainCause) (s : State) :
    (push d m o c s).lock = s.lock := rfl
@[simp] theorem supervision_push (d : QDest) (m : LoopMsg) (o : Option Byte) (c : GainCause) (s : State) :
    (push d m o c s).supervision = s.supervision := rfl
@[simp] theorem ctl_push (d : QDest) (m : LoopMsg) (o : Option Byte) (c : GainCause) (s : State) :
    (push d m o c s).ctl = s.ctl := rfl
@[simp] theorem pending_push (d : QDest) (m : LoopMsg) (o : Option Byte) (c : GainCause) (s : State) :
    (push d m o c s).pending = s.pending := rfl
@[simp] theorem portA_modifyLink (n : NodeId) (p : PortId) (f : LinkEntry → LinkEntry) (s : State) :
    (modifyLink n p f s).portA = s.portA := rfl
@[simp] theorem portB_modifyLink (n : NodeId) (p : PortId) (f : LinkEntry → LinkEntry) (s : State) :
    (modifyLink n p f s).portB = s.portB := rfl
@[simp] theorem start_modifyLink (n : NodeId) (p : PortId) (f : LinkEntry → LinkEntry) (s : State) :
    (modifyLink n p f s).start = s.start := rfl
@[simp] theorem queue_modifyLink (n : NodeId) (p : PortId) (f : LinkEntry → LinkEntry) (s : State) :
    (modifyLink n p f s).queue = s.queue := rfl
@[simp] theorem snap_modifyLink (n : NodeId) (p : PortId) (f : LinkEntry → LinkEntry) (s : State) :
    (modifyLink n p f s).snap = s.snap := rfl
@[simp] theorem switches_modifyLink (n : NodeId) (p : PortId) (f : LinkEntry → LinkEntry) (s : State) :
    (modifyLink n p f s).switches = s.switches := rfl
@[simp] theorem slots_modifyLink (n : NodeId) (p : PortId) (f : LinkEntry → LinkEntry) (s : State) :
    (modifyLink n p f s).slots = s.slots := rfl
@[simp] theorem lanes_modifyLink (n : NodeId) (p : PortId) (f : LinkEntry → LinkEntry) (s : State) :
    (modifyLink n p f s).lanes = s.lanes := rfl
@[simp] theorem gain_modifyLink (n : NodeId) (p : PortId) (f : LinkEntry → LinkEntry) (s : State) :
    (modifyLink n p f s).gain = s.gain := rfl
@[simp] theorem talk_modifyLink (n : NodeId) (p : PortId) (f : LinkEntry → LinkEntry) (s : State) :
    (modifyLink n p f s).talk = s.talk := rfl
@[simp] theorem safety_modifyLink (n : NodeId) (p : PortId) (f : LinkEntry → LinkEntry) (s : State) :
    (modifyLink n p f s).safety = s.safety := rfl
@[simp] theorem lock_modifyLink (n : NodeId) (p : PortId) (f : LinkEntry → LinkEntry) (s : State) :
    (modifyLink n p f s).lock = s.lock := rfl
@[simp] theorem supervision_modifyLink (n : NodeId) (p : PortId) (f : LinkEntry → LinkEntry) (s : State) :
    (modifyLink n p f s).supervision = s.supervision := rfl
@[simp] theorem ctl_modifyLink (n : NodeId) (p : PortId) (f : LinkEntry → LinkEntry) (s : State) :
    (modifyLink n p f s).ctl = s.ctl := rfl
@[simp] theorem pending_modifyLink (n : NodeId) (p : PortId) (f : LinkEntry → LinkEntry) (s : State) :
    (modifyLink n p f s).pending = s.pending := rfl
@[simp] theorem portA_setHead (i : QItem) (s : State) :
    (setHead i s).portA = s.portA := rfl
@[simp] theorem portB_setHead (i : QItem) (s : State) :
    (setHead i s).portB = s.portB := rfl
@[simp] theorem start_setHead (i : QItem) (s : State) :
    (setHead i s).start = s.start := rfl
@[simp] theorem loop_setHead (i : QItem) (s : State) :
    (setHead i s).loop = s.loop := rfl
@[simp] theorem snap_setHead (i : QItem) (s : State) :
    (setHead i s).snap = s.snap := rfl
@[simp] theorem switches_setHead (i : QItem) (s : State) :
    (setHead i s).switches = s.switches := rfl
@[simp] theorem slots_setHead (i : QItem) (s : State) :
    (setHead i s).slots = s.slots := rfl
@[simp] theorem lanes_setHead (i : QItem) (s : State) :
    (setHead i s).lanes = s.lanes := rfl
@[simp] theorem gain_setHead (i : QItem) (s : State) :
    (setHead i s).gain = s.gain := rfl
@[simp] theorem talk_setHead (i : QItem) (s : State) :
    (setHead i s).talk = s.talk := rfl
@[simp] theorem safety_setHead (i : QItem) (s : State) :
    (setHead i s).safety = s.safety := rfl
@[simp] theorem lock_setHead (i : QItem) (s : State) :
    (setHead i s).lock = s.lock := rfl
@[simp] theorem supervision_setHead (i : QItem) (s : State) :
    (setHead i s).supervision = s.supervision := rfl
@[simp] theorem ctl_setHead (i : QItem) (s : State) :
    (setHead i s).ctl = s.ctl := rfl
@[simp] theorem pending_setHead (i : QItem) (s : State) :
    (setHead i s).pending = s.pending := rfl
@[simp] theorem portA_choose (c : Option Chosen) (s : State) :
    (choose c s).portA = s.portA := rfl
@[simp] theorem portB_choose (c : Option Chosen) (s : State) :
    (choose c s).portB = s.portB := rfl
@[simp] theorem start_choose (c : Option Chosen) (s : State) :
    (choose c s).start = s.start := rfl
@[simp] theorem loop_choose (c : Option Chosen) (s : State) :
    (choose c s).loop = s.loop := rfl
@[simp] theorem queue_choose (c : Option Chosen) (s : State) :
    (choose c s).queue = s.queue := rfl
@[simp] theorem snap_choose (c : Option Chosen) (s : State) :
    (choose c s).snap = s.snap := rfl
@[simp] theorem switches_choose (c : Option Chosen) (s : State) :
    (choose c s).switches = s.switches := rfl
@[simp] theorem slots_choose (c : Option Chosen) (s : State) :
    (choose c s).slots = s.slots := rfl
@[simp] theorem lanes_choose (c : Option Chosen) (s : State) :
    (choose c s).lanes = s.lanes := rfl
@[simp] theorem gain_choose (c : Option Chosen) (s : State) :
    (choose c s).gain = s.gain := rfl
@[simp] theorem talk_choose (c : Option Chosen) (s : State) :
    (choose c s).talk = s.talk := rfl
@[simp] theorem safety_choose (c : Option Chosen) (s : State) :
    (choose c s).safety = s.safety := rfl
@[simp] theorem lock_choose (c : Option Chosen) (s : State) :
    (choose c s).lock = s.lock := rfl
@[simp] theorem supervision_choose (c : Option Chosen) (s : State) :
    (choose c s).supervision = s.supervision := rfl
@[simp] theorem pending_choose (c : Option Chosen) (s : State) :
    (choose c s).pending = s.pending := rfl
@[simp] theorem portA_endLine (l : List Byte) (s : State) :
    (endLine l s).portA = s.portA := rfl
@[simp] theorem portB_endLine (l : List Byte) (s : State) :
    (endLine l s).portB = s.portB := rfl
@[simp] theorem start_endLine (l : List Byte) (s : State) :
    (endLine l s).start = s.start := rfl
@[simp] theorem loop_endLine (l : List Byte) (s : State) :
    (endLine l s).loop = s.loop := rfl
@[simp] theorem queue_endLine (l : List Byte) (s : State) :
    (endLine l s).queue = s.queue := rfl
@[simp] theorem snap_endLine (l : List Byte) (s : State) :
    (endLine l s).snap = s.snap := rfl
@[simp] theorem switches_endLine (l : List Byte) (s : State) :
    (endLine l s).switches = s.switches := rfl
@[simp] theorem slots_endLine (l : List Byte) (s : State) :
    (endLine l s).slots = s.slots := rfl
@[simp] theorem lanes_endLine (l : List Byte) (s : State) :
    (endLine l s).lanes = s.lanes := rfl
@[simp] theorem gain_endLine (l : List Byte) (s : State) :
    (endLine l s).gain = s.gain := rfl
@[simp] theorem talk_endLine (l : List Byte) (s : State) :
    (endLine l s).talk = s.talk := rfl
@[simp] theorem safety_endLine (l : List Byte) (s : State) :
    (endLine l s).safety = s.safety := rfl
@[simp] theorem lock_endLine (l : List Byte) (s : State) :
    (endLine l s).lock = s.lock := rfl
@[simp] theorem supervision_endLine (l : List Byte) (s : State) :
    (endLine l s).supervision = s.supervision := rfl
@[simp] theorem pending_endLine (l : List Byte) (s : State) :
    (endLine l s).pending = s.pending := rfl
@[simp] theorem ctl_endLine (l : List Byte) (s : State) :
    (endLine l s).ctl = { s.ctl with chosen := none, lineOut := l } := rfl

end Sys2Proof.Machine
end

