-- ==== Sys2Proof/Laws/Keeps.lean ====
section
/-! SUPPORT. What an operation keeps: the relation between the state before it and after it, its closure
properties, and the operations of Ops, Outputs and Lanes. -/

namespace Sys2Proof.Machine

open Sys2Proof

/-- An operation keeps the invariants of Safety.lean that concern no derived value, the lock level and the
start record, and takes no notice back. -/
structure Keeps (s t : State) : Prop where
  outs : OutputsSafe s → OutputsSafe t
  room : WithinRoom s → WithinRoom t
  pend : PendingInOrder s → PendingInOrder t
  wraps : WrapsInOrder s → WrapsInOrder t
  lock : t.lock.level = s.lock.level
  start : t.start = s.start
  notices : s.ctl.notices <+: t.ctl.notices

/-- An operation keeps them and the loop epoch, and enters nothing in the pending switch list. -/
structure Steady (s t : State) : Prop extends Keeps s t where
  epoch : t.loop.epoch = s.loop.epoch
  senders : (t.switches.map (·.sender)).Sublist (s.switches.map (·.sender))

/-- The parts of the state on which the invariants depend. -/
def vitals (s : State) :=
  (s.safety.outs, s.ctl.notices, s.ctl.inbox, s.ctl.ops, s.ctl.ended, s.queue.items, s.switches,
    s.loop.epoch, s.loop.wrapA, s.loop.wrapB, s.usable .a, s.usable .b, s.lock.level, s.start)

theorem Keeps.refl (s : State) : Keeps s s := ⟨id, id, id, id, rfl, rfl, List.prefix_refl _⟩
theorem Steady.refl (s : State) : Steady s s := ⟨.refl s, rfl, .refl _⟩
theorem Keeps.trans {s t u : State} (h : Keeps s t) (k : Keeps t u) : Keeps s u :=
  ⟨k.outs ∘ h.outs, k.room ∘ h.room, k.pend ∘ h.pend, k.wraps ∘ h.wraps, k.lock.trans h.lock,
    k.start.trans h.start, h.notices.trans k.notices⟩
theorem Steady.trans {s t u : State} (h : Steady s t) (k : Steady t u) : Steady s u :=
  ⟨h.toKeeps.trans k.toKeeps, k.epoch.trans h.epoch, k.senders.trans h.senders⟩

/-- The invariants of wraps, by cases of the port. -/
theorem wrapsInOrder_iff (s : State) : WrapsInOrder s ↔
    (s.loop.wrapA = .none ∨ s.loop.wrapB = .none) ∧
    (isPlanned s.loop.wrapA = true → s.usable .a = true) ∧
    (isPlanned s.loop.wrapB = true → s.usable .b = true) ∧
    (s.loop.wrapA = .loss → s.usable .a = false ∧ s.usable .b = true) ∧
    (s.loop.wrapB = .loss → s.usable .b = false ∧ s.usable .a = true) := by
  constructor
  · intro h
    exact ⟨h.one, h.planned .a, h.planned .b, h.loss .a, h.loss .b⟩
  · rintro ⟨h1, h2, h3, h4, h5⟩
    refine ⟨h1, ?_, ?_⟩
    · intro p; cases p
      · exact h2
      · exact h3
    · intro p; cases p
      · exact h4
      · exact h5

/-- States that agree in the vital parts. -/
theorem Steady.of_vitals {s t : State} (h : vitals t = vitals s) : Steady s t := by
  simp only [vitals, Prod.mk.injEq] at h
  obtain ⟨ho, hn, hi, hp, he, hq, hw, hc, ha, hb, hua, hub, hl, hr⟩ := h
  refine ⟨⟨?_, ?_, ?_, ?_, hl, hr, by rw [hn]⟩, hc, by rw [hw]⟩
  · intro k; unfold OutputsSafe; rw [ho]; exact k
  · rintro ⟨k1, k2, k3, k4, k5⟩
    exact ⟨hn ▸ k1, hq ▸ k2, hi ▸ k3, hp ▸ k4, he ▸ k5⟩
  · rintro ⟨k1, k2⟩
    refine ⟨hw ▸ k1, ?_⟩
    rw [hw, hc]; exact k2
  · intro k
    rw [wrapsInOrder_iff] at k ⊢
    rw [ha, hb, hua, hub]; exact k

/-- States that agree in the vital parts but for the output records, each of which stays clean. -/
theorem Steady.of_outs {s t : State} (h : OutputsSafe s → OutputsSafe t)
    (k : vitals { t with safety := { t.safety with outs := s.safety.outs } } = vitals s) : Steady s t := by
  have := Steady.of_vitals k
  exact ⟨⟨h, fun x => ⟨(this.room x).1, (this.room x).2, (this.room x).3, (this.room x).4, (this.room x).5⟩,
    fun x => ⟨(this.pend x).1, (this.pend x).2⟩,
    fun x => by
      have w := this.wraps x
      rw [wrapsInOrder_iff] at w ⊢
      exact w, this.lock, this.start, this.notices⟩, this.epoch, this.senders⟩

theorem Keeps.of_vitals {s t : State} (h : vitals t = vitals s) : Keeps s t := (Steady.of_vitals h).toKeeps

/-- An operation on the outcome of another: the outer one first. -/
theorem Steady.on {s t u : State} (k : Steady t u) (h : Steady s t) : Steady s u := h.trans k
theorem Keeps.on {s t u : State} (k : Keeps t u) (h : Keeps s t) : Keeps s u := h.trans k

/-- An operation on a state that agrees with `s` in the vital parts. -/
theorem Steady.after {s t u : State} (k : Steady t u) (h : vitals t = vitals s) : Steady s u :=
  (Steady.of_vitals h).trans k

theorem Steady.foldl {α : Type} {f : State → α → State} (h : ∀ a x, Steady a (f a x)) (l : List α)
    (s : State) : Steady s (l.foldl f s) := by
  induction l generalizing s with
  | nil => exact .refl s
  | cons x l ih => exact (h s x).trans (ih (f s x))

theorem Keeps.foldl {α : Type} {f : State → α → State} (h : ∀ a x, Keeps a (f a x)) (l : List α)
    (s : State) : Keeps s (l.foldl f s) := by
  induction l generalizing s with
  | nil => exact .refl s
  | cons x l ih => exact (h s x).trans (ih (f s x))

theorem Steady.ite {c : Prop} [Decidable c] {s t u : State} (h : Steady s t) (k : Steady s u) :
    Steady s (if c then t else u) := by
  split <;> assumption

theorem Keeps.ite {c : Prop} [Decidable c] {s t u : State} (h : Keeps s t) (k : Keeps s u) :
    Keeps s (if c then t else u) := by
  split <;> assumption

/-! ### Ops -/

/-- A notice joins the queue or is discarded; nothing else changes (R185). -/
theorem notify_steady (n : Notice) (s : State) : Steady s (notify n s) := by
  unfold notify
  split
  · rename_i h
    refine ⟨⟨id, fun k => ⟨?_, k.2, k.3, k.4, k.5⟩, fun k => ⟨k.1, k.2⟩, fun k => ?_, rfl, rfl,
      List.prefix_append _ _⟩, rfl, .refl _⟩
    · simp only [List.length_append, List.length_cons, List.length_nil]; omega
    · exact (wrapsInOrder_iff _).2 ((wrapsInOrder_iff s).1 k)
  · exact .of_vitals rfl

theorem notifyLoop_steady (c : LoopCause) (s : State) : Steady s (notifyLoop c s) := notify_steady _ _

/-- A change of the outgoing queue that leaves it within its room. -/
theorem Steady.of_queue {s : State} {q : QueueRec}
    (h : s.queue.items.length ≤ Config.queueMax → q.items.length ≤ Config.queueMax) :
    Steady s { s with queue := q } :=
  ⟨⟨id, fun k => ⟨k.1, h k.2, k.3, k.4, k.5⟩, fun k => ⟨k.1, k.2⟩,
    fun k => (wrapsInOrder_iff _).2 ((wrapsInOrder_iff s).1 k), rfl, rfl, List.prefix_refl _⟩, rfl, .refl _⟩

/-- A message enters a queue that has room (R14). -/
theorem push_steady (d : QDest) (m : LoopMsg) (o : Option Byte) (c : GainCause) (s : State)
    (h : queueRoom s = true) : Steady s (push d m o c s) := by
  refine .of_queue fun _ => ?_
  have := of_decide_eq_true h
  simp only [queueLen] at this
  simp only [List.length_append, List.length_cons, List.length_nil]; omega

theorem pushInternal_steady (d : QDest) (m : LoopMsg) (s : State) : Steady s (pushInternal d m s) := by
  unfold pushInternal
  split
  · exact push_steady _ _ _ _ _ ‹_›
  · exact notifyLoop_steady _ _

theorem pushGainNote_steady (m : LoopMsg) (c : GainCause) (s : State) : Steady s (pushGainNote m c s) := by
  unfold pushGainNote
  split
  · exact push_steady _ _ _ _ _ ‹_›
  · exact notifyLoop_steady _ _

@[simp] theorem length_replaceUnsent (f : LoopMsg → Bool) (m : LoopMsg) (e : Option OriginGroup) (l : List QItem) :
    (replaceUnsent f m e l).length = l.length := by
  induction l with
  | nil => rfl
  | cons i l ih => simp only [replaceUnsent]; split <;> simp [ih]

theorem replace_steady (f : LoopMsg → Bool) (m : LoopMsg) (e : Option OriginGroup) (s : State) :
    Steady s { s with queue := { s.queue with items := replaceUnsent f m e s.queue.items } } :=
  .of_queue fun k => by simpa using k

/-- A change of the operation table and the ended list that leaves them within their room. -/
theorem Steady.of_ops {s : State} {ops : List (Option Operation)} {ended : List EndedOp}
    (h : s.ctl.ops.length = Config.opMax → ops.length = Config.opMax)
    (k : s.ctl.ended.length ≤ Config.opMax → ended.length ≤ Config.opMax) :
    Steady s { s with ctl := { s.ctl with ops := ops, ended := ended } } :=
  ⟨⟨id, fun r => ⟨r.1, r.2, r.3, h r.4, k r.5⟩, fun k => ⟨k.1, k.2⟩,
    fun k => (wrapsInOrder_iff _).2 ((wrapsInOrder_iff s).1 k), rfl, rfl, List.prefix_refl _⟩, rfl, .refl _⟩

@[simp] theorem length_placeOp (o : Operation) (l : List (Option Operation)) :
    (placeOp o l).length = l.length := by
  induction l with
  | nil => rfl
  | cons x l ih => cases x <;> simp [placeOp, ih]

theorem addOp_steady (o : Operation) (s : State) : Steady s (addOp o s) :=
  .of_ops (fun h => by simpa using h) id

theorem modifyOp_steady (tag : Byte) (f : Operation → Operation) (s : State) :
    Steady s (modifyOp tag f s) :=
  .of_ops (fun h => by simpa using h) id

theorem endOp_steady (tag : Byte) (v : Verdict) (r : OpResult) (s : State) :
    Steady s (endOp tag v r s) := by
  unfold endOp
  split
  · exact .refl s
  · exact (Steady.of_ops (fun h => by simpa using h)
      (fun _ => by simp only [List.length_take, Config.opMax]; omega)).trans (notify_steady _ _)

/-- A change of the pending switch list that moves neither senders nor epochs. -/
theorem mapSwitches_steady {s : State} {f : PendingSwitch → PendingSwitch}
    (h : ∀ p, (f p).sender = p.sender) (k : ∀ p, (f p).epoch = p.epoch) :
    Steady s { s with switches := s.switches.map f } := by
  have e : (s.switches.map f).map (·.sender) = s.switches.map (·.sender) := by
    rw [List.map_map]; exact List.map_congr_left fun p _ => h p
  refine ⟨⟨id, fun r => ⟨r.1, r.2, r.3, r.4, r.5⟩, fun r => ⟨?_, ?_⟩,
    fun r => (wrapsInOrder_iff _).2 ((wrapsInOrder_iff s).1 r), rfl, rfl, List.prefix_refl _⟩, rfl, ?_⟩
  · show ((s.switches.map f).map (·.sender)).Nodup
    rw [e]; exact r.1
  · intro p hp
    simp only [List.mem_map] at hp
    obtain ⟨q, hq, rfl⟩ := hp
    rw [k]; exact r.2 q hq
  · show ((s.switches.map f).map (·.sender)).Sublist _
    rw [e]

theorem forgetEntry_steady (t : Byte) (s : State) : Steady s (forgetEntry t s) :=
  mapSwitches_steady (fun p => by split <;> rfl) (fun p => by split <;> rfl)

theorem forgetItem_steady (t : Byte) (s : State) : Steady s (forgetItem t s) :=
  .of_queue fun h => by simpa using h

theorem endOutstanding_steady (s : State) : Steady s (endOutstanding s) := by
  unfold endOutstanding
  repeat' split
  all_goals exact .of_vitals rfl

theorem setCount_steady (c : FrameNo) (s : State) : Steady s (setCount c s) :=
  (endOutstanding_steady _).after rfl

theorem loseOp_steady (o : Option Byte) (s : State) : Steady s (loseOp o s) := by
  unfold loseOp
  split
  · exact .refl s
  · split
    · exact .refl s
    · exact (endOp_steady _ _ _ _).on (forgetEntry_steady _ _)

theorem snapshotStart_steady (s : State) : Steady s (snapshotStart s) := by
  unfold snapshotStart
  repeat' split
  all_goals exact .of_vitals rfl

theorem needAllotSnap_steady (s : State) : Steady s (needAllotSnap s) :=
  (snapshotStart_steady _).after rfl

theorem needGainSnap_steady (s : State) : Steady s (needGainSnap s) := by
  unfold needGainSnap
  split
  · exact (snapshotStart_steady _).after rfl
  · exact .refl s

/-! ### Output records (Section 8): each operation leaves a record clean -/

theorem beginResume_clean (c : OutCtx) (r : OutRec) (h : r.state = .safe) (k : causesEmpty r.causes = true) :
    OutClean (beginResume c r) := by
  unfold beginResume
  repeat' split
  · exact ⟨fun x => by simp_all, fun x => by simp at x⟩
  · unfold enterFadeIn; exact ⟨fun _ => k, fun x => by simp at x⟩
  · exact ⟨fun _ => k, fun _ => ⟨h, k⟩⟩

theorem becomeSafe_clean (c : OutCtx) (r : OutRec) : OutClean (becomeSafe c r) := by
  unfold becomeSafe
  split
  · exact beginResume_clean _ _ rfl ‹_›
  · exact ⟨fun x => by simp at x, fun x => by simp at x⟩

theorem enterFadeOut_clean (c : OutCtx) (n : Nat) (r : OutRec) (h : r.hold = none) :
    OutClean (enterFadeOut c n r) := by
  unfold enterFadeOut
  split
  · exact becomeSafe_clean _ _
  · exact ⟨fun x => by simp at x, fun x => by simp [h] at x⟩

/-- A record whose state is not SAFE runs no hold timer. -/
theorem OutClean.hold_none {r : OutRec} (h : OutClean r) (k : r.state ≠ .safe) : r.hold = none := by
  cases hr : r.hold with
  | none => rfl
  | some t => exact absurd (h.2 (by simp [hr])).1 k

theorem onCauses_clean (c : OutCtx) (set : CauseSet) (r : OutRec) (h : OutClean r) :
    OutClean (onCauses c set r) := by
  unfold onCauses
  simp only
  split
  · rename_i hc
    simp only [Bool.and_eq_true, Bool.not_eq_true'] at hc
    split
    · exact enterFadeOut_clean _ _ _ (h.hold_none (by simp_all))
    · exact enterFadeOut_clean _ _ _ (h.hold_none (by simp_all))
    · exact ⟨fun x => by simp_all, fun x => by have := h.hold_none (r := r) (by simp_all); simp_all⟩
    · exact ⟨fun x => by simp_all, fun x => by simp at x⟩
    · exact ⟨fun x => by simp_all, fun x => by have := h.hold_none (r := r) (by simp_all); simp_all⟩
  · split
    · rename_i hc
      simp only [Bool.and_eq_true, Bool.not_eq_true'] at hc
      split
      · exact beginResume_clean _ _ ‹_› hc.2
      all_goals exact ⟨fun _ => hc.2, fun x => by have := h.hold_none (r := r) (by simp_all); simp_all⟩
    · rename_i h1 h2
      simp only [Bool.and_eq_true, Bool.not_eq_true', not_and, Bool.not_eq_true, Bool.not_eq_false] at h1 h2
      have hs : causesEmpty r.causes = causesEmpty set := by
        cases ha : causesEmpty r.causes <;> cases hb : causesEmpty set <;> simp_all
      exact ⟨fun x => hs ▸ h.1 x, fun x => hs ▸ h.2 x⟩

theorem endFadeOut_clean (c : OutCtx) (r : OutRec) (h : OutClean r) : OutClean (endFadeOut c r) := by
  unfold endFadeOut
  split
  · exact becomeSafe_clean _ _
  · exact h

theorem endFadeIn_clean (c : OutCtx) (r : OutRec) (h : OutClean r) : OutClean (endFadeIn c r) := by
  unfold endFadeIn
  split
  · rename_i hc
    simp only [fadeInDue, Bool.and_eq_true, beq_iff_eq] at hc
    exact ⟨fun _ => h.1 (.inr hc.1), fun x => by have := h.hold_none (r := r) (by simp_all); simp_all⟩
  · exact h

theorem enterFadeIn_clean (c : OutCtx) (r : OutRec) (h : causesEmpty r.causes = true) :
    OutClean (enterFadeIn c r) := by
  unfold enterFadeIn; exact ⟨fun _ => h, fun x => by simp at x⟩

theorem endHold_clean (c : OutCtx) (r : OutRec) (h : OutClean r) : OutClean (endHold c r) := by
  unfold endHold
  split
  · rename_i hc
    simp only [isDue, beq_iff_eq] at hc
    exact enterFadeIn_clean _ _ (h.2 (by simp [hc])).2
  · exact h

theorem rescale_clean (n : Nat) (c : OutCtx) (r : OutRec) (h : OutClean r) : OutClean (rescale n c r) := by
  unfold rescale
  split
  · exact h
  · split
    · split
      · exact becomeSafe_clean _ _
      · exact ⟨fun _ => h.1 (.inr ‹_›), fun x => by have := h.hold_none (r := r) (by simp_all); simp_all⟩
      all_goals exact ⟨h.1, h.2⟩
    · split
      · exact ⟨h.1, h.2⟩
      · exact ⟨h.1, h.2⟩

theorem toUnused_clean (r : OutRec) : OutClean (toUnused r) :=
  ⟨fun x => by simp [toUnused] at x, fun x => by simp [toUnused] at x⟩

theorem fromUnused_clean (c : OutCtx) (v : Bool) (r : OutRec) : OutClean (fromUnused c v r) :=
  becomeSafe_clean _ _

/-- A change of every output record that leaves each clean. -/
theorem mapOuts_steady {f : Nat → Tap → OutRec → OutRec} {s : State}
    (h : ∀ i t r, OutClean r → OutClean (f i t r)) : Steady s (mapOuts f s) := by
  refine .of_outs ?_ rfl
  intro k r hr
  simp only [mapOuts, List.mem_map] at hr
  obtain ⟨⟨q, i⟩, hq, rfl⟩ := hr
  exact h _ _ _ (k q (by
    obtain ⟨_, _, e⟩ := List.mem_zipIdx hq
    rw [e]; exact List.getElem_mem _))

/-- A change of one output record that leaves it clean. -/
theorem modifyOut_steady {i : Nat} {f : OutRec → OutRec} {s : State}
    (h : ∀ r, OutClean r → OutClean (f r)) : Steady s (modifyOut i f s) := by
  refine .of_outs ?_ rfl
  intro k r hr
  simp only [modifyOut] at hr
  rw [List.mem_iff_getElem?] at hr
  obtain ⟨j, hj⟩ := hr
  rw [List.getElem?_modify] at hj
  cases hs : s.safety.outs[j]? with
  | none => simp [hs] at hj
  | some q =>
    have hq : OutClean q := k q (List.mem_of_getElem? hs)
    rw [hs] at hj
    split at hj
    · cases hj; exact h q hq
    · cases hj; exact hq

theorem syncCauses_steady (s : State) : Steady s (syncCauses s) :=
  mapOuts_steady fun _ _ _ h => onCauses_clean _ _ _ h

theorem setPanic_steady (on : Bool) (s : State) : Steady s (setPanic on s) := by
  refine Steady.trans (t := { s with safety := { s.safety with panicOn := on, panicT := none } })
    (.of_vitals rfl) (mapOuts_steady fun _ _ _ h => ?_)
  split
  · exact onCauses_clean _ _ _ h
  · exact h

theorem onSilenceSet_steady (s : State) : Steady s (onSilenceSet s) := by
  refine mapOuts_steady fun _ _ _ h => ?_
  split
  · rename_i hc; simp only [Bool.and_eq_true, decide_eq_true_eq] at hc
    exact beginResume_clean _ _ hc.1.1.2 hc.1.2
  · exact h

theorem onSilenceClear_steady (s : State) : Steady s (onSilenceClear s) := by
  refine mapOuts_steady fun _ _ _ h => ?_
  split
  · exact ⟨h.1, fun x => by simp at x⟩
  · exact h

theorem reportOutputs_steady (l : List OutRec) (s : State) : Steady s (reportOutputs l s) :=
  .foldl (fun _ _ => notify_steady _ _) _ _

/-! ### Lanes (Section 5, gain cache and tracking) -/

theorem rejudge_steady (s : State) : Steady s (rejudge s) :=
  (syncCauses_steady _).after rfl

theorem noticeLimit_steady (i : Nat) (a b : Tap) (s : State) : Steady s (noticeLimit i a b s) := by
  unfold noticeLimit
  repeat' split
  all_goals first | exact .refl s | exact notify_steady _ _

theorem updateTaps_steady (f : Tap → Tap) (s : State) : Steady s (updateTaps f s) :=
  (Steady.foldl (fun _ _ => noticeLimit_steady _ _ _ _) _ _).after rfl

theorem setCache_steady (n : Nat) (e : CacheEntry) (s : State) : Steady s (setCache n e s) := by
  unfold setCache
  simp only
  split
  · exact .refl s
  · exact (updateTaps_steady _ _).after rfl

theorem clearCache_steady (s : State) : Steady s (clearCache s) := .of_vitals rfl

theorem refreshOwnCache_steady (s : State) : Steady s (refreshOwnCache s) := by
  unfold refreshOwnCache
  split
  · refine .foldl (fun a x => ?_) _ _
    obtain ⟨slot, inp⟩ := x
    simp only
    split
    · exact setCache_steady _ _ _
    · exact .refl a
  · exact .refl s

theorem cacheUpdate_steady (n : NodeId) (i : Nat) (g : GainSetting) (e : GainSerial) (s : State) :
    Steady s (cacheUpdate n i g e s) :=
  .foldl (fun _ _ => setCache_steady _ _ _) _ _

theorem periodSamples_steady (s : State) : Steady s (periodSamples s) := .of_vitals rfl
theorem visitSamples_steady (l : List Sample) (s : State) : Steady s (visitSamples l s) := .of_vitals rfl
theorem laneFrame_steady (s : State) : Steady s (laneFrame s) := .of_vitals rfl

end Sys2Proof.Machine
end

