-- ==== Sys2Proof/Laws/KeepsUnits.lean ====
section
/-! SUPPORT. What the operations of the Slot Router, the Gain Controller, the Talk Unit and of Lock and
Supervision keep. -/

namespace Sys2Proof.Machine

open Sys2Proof

/-! ### Slot Router -/

theorem retryCheck_steady (s : State) : Steady s (retryCheck s) := by
  unfold retryCheck
  repeat' split
  all_goals first | exact .refl s | exact .of_vitals rfl

theorem retryRestart_steady (s : State) : Steady s (retryRestart s) := .of_vitals rfl

theorem loseCurrency_steady (s : State) : Steady s (loseCurrency s) := by
  unfold loseCurrency
  split
  · exact .refl s
  · exact .of_vitals rfl

theorem pushSnapReq_steady (s : State) : Steady s (pushSnapReq s) := by
  unfold pushSnapReq
  repeat' split
  all_goals first | exact .refl s | exact pushInternal_steady _ _ _

theorem setTalkWriter_steady (b : Bus) (w : Option NodeId) (s : State) : Steady s (setTalkWriter b w s) :=
  .of_vitals rfl
theorem clearTalkEntries_steady (s : State) : Steady s (clearTalkEntries s) := .of_vitals rfl

theorem issueChanges_steady (l : List SlotChange) (s : State) : Steady s (issueChanges l s) := by
  unfold issueChanges
  split
  · exact .refl s
  · exact (pushInternal_steady _ _ _).after rfl

theorem recordAnswer_steady (w : NodeId) (tag : Byte) (n : MsgNo) (r : List PairResult) (s : State) :
    Steady s (recordAnswer w tag n r s) := .of_vitals rfl

theorem pushAnswer_steady (w : NodeId) (tag : Byte) (r : List PairResult) (s : State) :
    Steady s (pushAnswer w tag r s) := pushInternal_steady _ _ _

theorem takeSlotAsk_steady (w : NodeId) (tag : Byte) (n : MsgNo) (a : SlotAsk) (s : State) :
    Steady s (takeSlotAsk w tag n a s) := by
  unfold takeSlotAsk
  simp only
  split
  · split
    · exact pushAnswer_steady _ _ _ _
    · exact .refl s
  · have fresh : Steady s (if queueLen s = 15 then
        recordAnswer w tag n (List.replicate (askSize a) (.refused .state))
          (pushAnswer w tag (List.replicate (askSize a) (.refused .state)) s)
      else if 16 ≤ queueLen s then s
      else recordAnswer w tag n (arbitrate s w a).1
        (pushAnswer w tag (arbitrate s w a).1 (issueChanges (arbitrate s w a).2 s))) := by
      repeat' split
      · exact (recordAnswer_steady _ _ _ _ _).on (pushAnswer_steady _ _ _ _)
      · exact .refl s
      · exact (recordAnswer_steady _ _ _ _ _).on
          ((pushAnswer_steady _ _ _ _).on (issueChanges_steady _ _))
    split
    · split
      · exact pushAnswer_steady _ _ _ _
      · exact fresh
    · exact fresh

theorem markUnsettled_steady (l : List Nat) (v : Bool) (s : State) : Steady s (markUnsettled l v s) :=
  .of_vitals rfl

theorem allotDropped_steady (l : List SlotChange) (s : State) : Steady s (allotDropped l s) :=
  (needAllotSnap_steady _).after rfl

theorem allotConfirmed_steady (e : Serial) (l : List SlotChange) (s : State) :
    Steady s (allotConfirmed e l s) := .of_vitals rfl

theorem allotLost_steady (e : Serial) (s : State) : Steady s (allotLost e s) := .of_vitals rfl

theorem replaceTable_steady (l : List SlotEntry) (told : List Nat) (s : State) :
    Steady s (replaceTable l told s) :=
  (refreshOwnCache_steady _).on ((Steady.foldl (fun _ _ => setCache_steady _ _ _) _ _).after rfl)

theorem makeChanges_steady (e : Serial) (l : List SlotChange) (s : State) : Steady s (makeChanges e l s) := by
  unfold makeChanges
  simp only
  split
  · exact (rejudge_steady _).on ((needGainSnap_steady _).on (replaceTable_steady _ _ _))
  · exact (rejudge_steady _).on (replaceTable_steady _ _ _)

theorem applyAllot_steady (e : Serial) (l : List SlotChange) (c : Bool) (s : State) :
    Steady s (applyAllot e l c s) := by
  unfold applyAllot
  simp only
  split
  · exact (makeChanges_steady e l s).trans (.of_vitals rfl)
  · split
    · split
      · exact (makeChanges_steady e l s).trans (.of_vitals rfl)
      · exact .refl s
    · split
      · exact (makeChanges_steady e l s).trans (.of_vitals rfl)
      · exact .refl s

theorem goDone_steady (e : GoEnd) (s : State) : Steady s (goDone e s) := by
  unfold goDone
  split
  · exact endOp_steady _ _ _ _
  · exact .refl s

theorem snapViews_steady (a b : List SlotEntry) (s : State) : Steady s (snapViews a b s) := .of_vitals rfl

theorem applySnapshot_steady (f : FrameNo) (s : State) : Steady s (applySnapshot f s) := by
  unfold applySnapshot
  split
  · split
    · exact (needGainSnap_steady _).after rfl
    · exact .refl s
  · split
    · exact .refl s
    · simp only
      repeat' split
      · exact (goDone_steady _ _).on ((rejudge_steady _).on ((retryCheck_steady _).on
          ((needGainSnap_steady _).on ((snapViews_steady _ _ _).on ((replaceTable_steady _ _ _).after rfl)))))
      · exact (goDone_steady _ _).on ((rejudge_steady _).on ((retryCheck_steady _).on
          ((needGainSnap_steady _).on ((snapViews_steady _ _ _).on ((replaceTable_steady _ _ _).after rfl)))))
      · exact .of_vitals rfl
      · exact (retryRestart_steady _).on ((pushSnapReq_steady _).after rfl)

theorem storePiece_steady (n : Nat) (l : List SlotEntry) (s : State) : Steady s (storePiece n l s) :=
  .of_vitals rfl
theorem beginCollection_steady (e : Serial) (f : FrameNo) (n : Nat) (l : List SlotEntry) (s : State) :
    Steady s (beginCollection e f n l s) := .of_vitals rfl

theorem takeSnapReq_steady (w : NodeId) (l : Option Serial) (s : State) : Steady s (takeSnapReq w l s) := by
  unfold takeSnapReq
  split
  · exact (needAllotSnap_steady _).after rfl
  · exact .refl s

/-! ### Gain Controller -/

theorem setGainEntry_steady (i : Nat) (e : GainEntry) (s : State) : Steady s (setGainEntry i e s) :=
  .of_vitals rfl

theorem sendRecord_steady (s : State) : Steady s (sendRecord s) := by
  unfold sendRecord
  repeat' split
  all_goals first | exact .refl s | exact .of_vitals rfl

theorem refreshInputCache_steady (i : Nat) (s : State) : Steady s (refreshInputCache i s) := by
  unfold refreshInputCache
  split
  · exact .foldl (fun _ _ => setCache_steady _ _ _) _ _
  · exact .refl s

theorem applyGainQuiet_steady (i : Nat) (g : GainSetting) (e : GainSerial) (s : State) :
    Steady s (applyGainQuiet i g e s) := by
  unfold applyGainQuiet
  simp only
  split
  · exact .refl s
  · split
    · exact (refreshInputCache_steady _ _).after rfl
    · exact .refl s

theorem applyGain_steady (i : Nat) (g : GainSetting) (e : GainSerial) (c : GainCause) (s : State) :
    Steady s (applyGain i g e c s) := by
  unfold applyGain
  repeat' split
  · exact .refl s
  · exact (notify_steady _ _).on (applyGainQuiet_steady _ _ _ _)
  · exact .refl s

theorem applyNote_steady (n : NodeId) (i : Nat) (g : GainSetting) (e : GainSerial) (c : GainCause)
    (s : State) : Steady s (applyNote n i g e c s) := by
  unfold applyNote
  simp only
  repeat' split
  · exact applyGain_steady _ _ _ _ _
  · exact .refl s
  · exact (notify_steady _ _).on (cacheUpdate_steady _ _ _ _ _)

theorem takeGainSnap_steady (n : NodeId) (p : Nat) (l : List (GainSetting × GainSerial)) (s : State) :
    Steady s (takeGainSnap n p l s) :=
  .foldl (fun _ _ => cacheUpdate_steady _ _ _ _ _) _ _

theorem loseGain_steady (i : Nat) (e : GainSerial) (s : State) : Steady s (loseGain i e s) := by
  unfold loseGain
  repeat' split
  · exact .refl s
  · exact .refl s
  · exact (notify_steady _ _).on ((needGainSnap_steady _).on ((refreshInputCache_steady _ _).after rfl))
  · exact .refl s

theorem decideGain_steady (i : Nat) (g : GainSetting) (c : GainCause) (s : State) :
    Steady s (decideGain i g c s) := (pushGainNote_steady _ _ _).after rfl

theorem decideAtOnce_steady (i : Nat) (g : GainSetting) (s : State) : Steady s (decideAtOnce i g s) :=
  (needGainSnap_steady _).on ((applyGain_steady _ _ _ _ _).after rfl)

theorem pushGainAnswer_steady (w : NodeId) (tag : Byte) (v : Verdict) (s : State) :
    Steady s (pushGainAnswer w tag v s) := pushInternal_steady _ _ _

theorem answerGain_steady (w : NodeId) (tag : Byte) (n : MsgNo) (v : Verdict) (s : State) :
    Steady s (answerGain w tag n v s) :=
  (pushGainAnswer_steady w tag v s).trans (.of_vitals rfl)

theorem decideAsk_steady (w : NodeId) (tag : Byte) (n : MsgNo) (i : Nat) (a : GainAsk) (s : State) :
    Steady s (decideAsk w tag n i a s) := by
  unfold decideAsk
  split
  · exact answerGain_steady _ _ _ _ _
  · exact (answerGain_steady _ _ _ _ _).on (.ite (decideGain_steady _ _ _ _) (.refl s))

theorem takeGainAsk_steady (w : NodeId) (tag : Byte) (n : MsgNo) (i : Nat) (a : GainAsk) (s : State) :
    Steady s (takeGainAsk w tag n i a s) := by
  unfold takeGainAsk
  simp only
  split
  · exact .refl s
  · have fresh : Steady s (if queueLen s = 15 then answerGain w tag n (.no .state) s
        else if 16 ≤ queueLen s then s else decideAsk w tag n i a s) :=
      .ite (answerGain_steady _ _ _ _ _) (.ite (.refl s) (decideAsk_steady _ _ _ _ _ _))
    repeat' split
    · exact pushGainAnswer_steady _ _ _ _
    all_goals first | exact fresh | simp_all

theorem takeGainAnswer_steady (tag : Byte) (v : Verdict) (s : State) : Steady s (takeGainAnswer tag v s) := by
  unfold takeGainAnswer
  repeat' split
  all_goals first | exact .refl s | exact endOp_steady _ _ _ _

theorem endMute_steady (i : Nat) (s : State) : Steady s (endMute i s) := by
  unfold endMute
  split
  · exact .of_vitals rfl
  · exact .refl s

theorem applySentNotes_steady (s : State) : Steady s (applySentNotes s) := by
  unfold applySentNotes
  refine .foldl (fun a m => ?_) _ _
  split
  · exact applyGainQuiet_steady _ _ _ _
  · exact .refl a

/-! ### Talk Unit -/

theorem setKeyRec_steady (k : KeyName) (r : KeyRec) (s : State) : Steady s (setKeyRec k r s) := .of_vitals rfl
theorem modifyKey_steady (k : KeyName) (f : KeyRec → KeyRec) (s : State) : Steady s (modifyKey k f s) :=
  .of_vitals rfl
theorem notifyKey_steady (k : KeyName) (c : KeyCause) (s : State) : Steady s (notifyKey k c s) :=
  notify_steady _ _
theorem endKey_steady (k : KeyName) (st : KeyState) (c : KeyCause) (s : State) : Steady s (endKey k st c s) :=
  (notifyKey_steady _ _ _).on (modifyKey_steady _ _ _)
theorem moveKey_steady (k : KeyName) (st : KeyState) (c : KeyCause) (s : State) :
    Steady s (moveKey k st c s) := (notifyKey_steady _ _ _).on (modifyKey_steady _ _ _)
theorem oweRelease_steady (k : KeyName) (s : State) : Steady s (oweRelease k s) := modifyKey_steady _ _ _
theorem setBusRec_steady (b : Bus) (r : BusRec) (s : State) : Steady s (setBusRec b r s) := .of_vitals rfl

theorem issueGrant_steady (b : Bus) (s : State) : Steady s (issueGrant b s) := by
  unfold issueGrant
  simp only
  repeat' split
  · exact (replace_steady _ _ _ _).after rfl
  · exact (push_steady _ _ _ _ (setBusRec b _ s) ‹_›).after rfl
  · exact .of_vitals rfl

theorem applyRefuse_steady (b : Bus) (n : NodeId) (k : KeyName) (w : TalkReason) (s : State) :
    Steady s (applyRefuse b n k w s) := by
  unfold applyRefuse
  simp only
  split
  · exact endKey_steady _ _ _ _
  · exact .refl s

theorem refuseClaim_steady (b : Bus) (t : Talker) (w : TalkReason) (s : State) :
    Steady s (refuseClaim b t w s) := by
  unfold refuseClaim
  split
  · exact applyRefuse_steady _ _ _ _ _
  · exact pushInternal_steady _ _ _

theorem carryOut_steady (b : Bus) (t : Talker) (d : TalkDecision) (s : State) :
    Steady s (carryOut b t d s) := by
  unfold carryOut
  split
  · exact issueGrant_steady _ _
  · exact refuseClaim_steady _ _ _ _
  · exact .refl s

theorem takeTalkClaim_steady (b : Bus) (c : Claim) (s : State) : Steady s (takeTalkClaim b c s) := by
  unfold takeTalkClaim
  split
  · exact (carryOut_steady _ _ _ _).after rfl
  · exact .refl s

theorem takeTalkRelease_steady (b : Bus) (t : Talker) (s : State) : Steady s (takeTalkRelease b t s) := by
  unfold takeTalkRelease
  split
  · exact (carryOut_steady _ _ _ _).after rfl
  · exact .refl s

theorem purgeBus_steady (n : NodeId) (s : State) (b : Bus) : Steady s (purgeBus n s b) := by
  unfold purgeBus
  simp only
  repeat' split
  · exact (issueGrant_steady _ _).after rfl
  · exact .of_vitals rfl
  · exact .of_vitals rfl

theorem purgeTalk_steady (l : List NodeId) (s : State) : Steady s (purgeTalk l s) :=
  .foldl (fun _ _ => .foldl (fun _ _ => purgeBus_steady _ _ _) _ _) _ _

theorem admitGrant_steady (s : State) (b : Bus) : Steady s (admitGrant s b) := by
  unfold admitGrant
  split
  · exact (issueGrant_steady _ _).after rfl
  · exact .refl s

theorem sendClaim_steady (k : KeyName) (s : State) : Steady s (sendClaim k s) := by
  unfold sendClaim
  simp only
  repeat' split
  · exact takeTalkClaim_steady _ _ _
  · exact push_steady _ _ _ _ _ ‹_›
  · exact (oweRelease_steady _ _).on ((endKey_steady _ _ _ _).on (pushInternal_steady _ _ _))

theorem sendRelease_steady (k : KeyName) (s : State) : Steady s (sendRelease k s) := by
  unfold sendRelease
  simp only
  repeat' split
  · exact takeTalkRelease_steady _ _ _
  · exact push_steady _ _ _ _ _ ‹_›
  · exact oweRelease_steady _ _

theorem admitRelease_steady (s : State) (k : KeyName) : Steady s (admitRelease s k) := by
  unfold admitRelease
  split
  · exact (sendRelease_steady _ _).on (modifyKey_steady _ _ _)
  · exact .refl s

theorem claimDropped_steady (k : KeyName) (s : State) : Steady s (claimDropped k s) := by
  unfold claimDropped
  split
  · exact (sendRelease_steady _ _).on (endKey_steady _ _ _ _)
  · exact .refl s

theorem claimSent_steady (k : KeyName) (s : State) : Steady s (claimSent k s) := modifyKey_steady _ _ _

theorem answerExpired_steady (k : KeyName) (s : State) : Steady s (answerExpired k s) := by
  unfold answerExpired
  simp only
  repeat' split
  · exact (sendRelease_steady _ _).on (endKey_steady _ _ _ _)
  · exact modifyKey_steady _ _ _
  · exact .refl s

theorem pressKey_steady (k : KeyName) (s : State) : Steady s (pressKey k s) := by
  unfold pressKey
  simp only
  have latched : Steady s (if (keyAt s k).latched then sendRelease k (endKey k .idle .lift s) else s) :=
    .ite ((sendRelease_steady _ _).on (endKey_steady _ _ _ _)) (.refl s)
  split
  · exact .refl s
  · split
    · split
      · exact (sendClaim_steady _ _).on ((notifyKey_steady _ _ _).on (modifyKey_steady _ _ _))
      · exact endKey_steady _ _ _ _
    · exact latched
    · exact latched
    · exact latched
    · exact .refl s
    · exact .refl s

theorem liftKey_steady (k : KeyName) (s : State) : Steady s (liftKey k s) := by
  unfold liftKey
  simp only
  have active : Steady s (if (keyAt s k).latched then s else if latches (keyAt s k) then
        notifyKey k .latch (modifyKey k (fun r => { r with latched := true, press := none }) s)
      else sendRelease k (endKey k .idle .lift s)) :=
    .ite (.refl s) (.ite ((notifyKey_steady _ _ _).on (modifyKey_steady _ _ _))
      ((sendRelease_steady _ _).on (endKey_steady _ _ _ _)))
  split
  · exact .refl s
  · split
    · exact active
    · exact active
    · exact active
    · exact endKey_steady _ _ _ _
    · exact endKey_steady _ _ _ _
    · exact .refl s

theorem filterTo_steady (k : KeyName) (v : Bool) (s : State) : Steady s (filterTo k v s) := by
  unfold filterTo
  simp only
  split
  · exact (pressKey_steady _ _).on (modifyKey_steady _ _ _)
  · exact (liftKey_steady _ _).on (modifyKey_steady _ _ _)

theorem keyRaw_steady (k : KeyName) (v : Bool) (s : State) : Steady s (keyRaw k v s) := by
  unfold keyRaw
  simp only
  repeat' split
  all_goals first
    | exact setKeyRec_steady _ _ _
    | exact (filterTo_steady _ _ _).on (setKeyRec_steady _ _ _)

theorem keySettled_steady (k : KeyName) (s : State) : Steady s (keySettled k s) := by
  unfold keySettled
  simp only
  split
  · exact filterTo_steady _ _ _
  · exact .refl s

theorem grantKey_steady (b : Bus) (t : Option Talker) (s : State) (k : KeyName) :
    Steady s (grantKey b t s k) := by
  unfold grantKey
  simp only
  split
  · exact .refl s
  · split
    · split
      · exact (moveKey_steady _ _ _ _).on (modifyKey_steady _ _ _)
      · exact moveKey_steady _ _ _ _
      · exact .refl s
      · exact sendRelease_steady _ _
      · exact sendRelease_steady _ _
      · exact sendRelease_steady _ _
    · split
      · split
        · exact moveKey_steady _ _ _ _
        all_goals exact .refl s
      · split
        · exact endKey_steady _ _ _ _
        · exact endKey_steady _ _ _ _
        all_goals exact .refl s

theorem setView_steady (b : Bus) (e : Serial) (t : Option Talker) (s : State) : Steady s (setView b e t s) :=
  .of_vitals rfl

theorem applyGrant_steady (n : NodeId) (b : Bus) (t : Option Talker) (e : Serial) (d : Nat) (s : State) :
    Steady s (applyGrant n b t e d s) := by
  unfold applyGrant
  simp only
  split
  · exact .refl s
  · refine Steady.trans (t := if s.isOrigin && decide (n = s.start.id) then
        setBusRec b { busAt s b with inForce := t } (setView b e t (setTalkWriter b (t.map (·.node)) s))
      else setView b e t (setTalkWriter b (t.map (·.node)) s)) ?_ ?_
    · exact .ite (.of_vitals rfl) (.of_vitals rfl)
    · exact (notify_steady _ _).on ((rejudge_steady _).on
        (Steady.foldl (fun _ _ => grantKey_steady _ _ _ _) _ _))

theorem grantHeard_steady (t : Option Talker) (s : State) : Steady s (grantHeard t s) := by
  unfold grantHeard
  repeat' split
  all_goals first | exact .refl s | exact modifyKey_steady _ _ _

theorem dropKeys_steady (c : DropCause) (s : State) : Steady s (dropKeys c s) :=
  (notify_steady _ _).after rfl

theorem talkEpoch_steady (s : State) : Steady s (talkEpoch s) :=
  (dropKeys_steady .epoch s).trans (.of_vitals rfl)

theorem writeTalk_eq (s : State) (l : List Sample) (h : copyCurrent s = false) : writeTalk s l = l := by
  simp [writeTalk, h]

/-! ### Lock and Supervision -/

theorem pushLockNote_steady (s : State) : Steady s (pushLockNote s) := by
  unfold pushLockNote
  repeat' split
  · exact replace_steady _ _ _ _
  · exact push_steady _ _ _ _ _ ‹_›
  · exact .of_vitals rfl

theorem admitLockNote_steady (s : State) : Steady s (admitLockNote s) := by
  unfold admitLockNote
  split
  · exact (pushLockNote_steady _).after rfl
  · exact .refl s

theorem setLockView_steady (n : NodeId) (v : Option Nat) (s : State) : Steady s (setLockView n v s) := by
  unfold setLockView
  split
  · exact .refl s
  · exact (notify_steady _ _).after rfl

theorem clearLockView_steady (s : State) : Steady s (clearLockView s) :=
  .foldl (fun _ _ => setLockView_steady _ _ _) _ _

theorem lockEpoch_steady (s : State) : Steady s (lockEpoch s) :=
  (pushLockNote_steady _).on (clearLockView_steady _)

theorem lockVisit_steady (h : Header) (s : State) : Steady s (lockVisit h s) := by
  unfold lockVisit
  split
  · exact .refl s
  · simp only
    exact (setLockView_steady _ _ _).on (.ite (.refl s) ((notify_steady _ _).after rfl))

theorem goodRequest_steady (s : State) : Steady s (goodRequest s) := by
  unfold goodRequest
  simp only
  split
  · exact (onSilenceClear_steady _).on ((notify_steady _ _).after rfl)
  · exact .of_vitals rfl

theorem silenceExpired_steady (s : State) : Steady s (silenceExpired s) := by
  unfold silenceExpired
  split
  · exact (onSilenceSet_steady _).after rfl
  · exact .refl s

theorem supervisionLoopReset_steady (s : State) : Steady s (supervisionLoopReset s) := .of_vitals rfl

end Sys2Proof.Machine
end

