-- ==== Sys2Proof/Laws/KeepsLoop.lean ====
section
/-! SUPPORT. What the operations of the Loop Engine keep: loop events, epochs, the link table, wraps at
port events, the pending switch list, the loop map. -/

namespace Sys2Proof.Machine

open Sys2Proof

/-! ### After a change of the loop record -/

/-- Entries leave the pending switch list. -/
theorem Steady.of_filter (s : State) (f : PendingSwitch → Bool) :
    Steady s { s with switches := s.switches.filter f } := by
  have sub : ((s.switches.filter f).map (·.sender)).Sublist (s.switches.map (·.sender)) :=
    List.filter_sublist.map _
  exact ⟨⟨id, fun k => ⟨k.1, k.2, k.3, k.4, k.5⟩,
    fun k => ⟨k.1.sublist sub, fun p hp => k.2 p (List.mem_of_mem_filter hp)⟩,
    fun k => (wrapsInOrder_iff _).2 ((wrapsInOrder_iff s).1 k), rfl, rfl, List.prefix_refl _⟩, rfl, sub⟩

theorem takeoverCheck_steady (b : LoopMode) (s : State) : Steady s (takeoverCheck b s) := by
  unfold takeoverCheck
  repeat' split
  all_goals first | exact .refl s | exact .of_vitals rfl

theorem dropPlans_steady (b : LoopMode) (s : State) : Steady s (dropPlans b s) := by
  unfold dropPlans
  split
  · exact .of_filter _ _
  · exact .refl s

/-- A port record changes neither in state nor in flags. -/
theorem setPort_steady (p : PortId) (r : PortRec) (s : State) (h : r.state = (s.port p).state)
    (k : r.flags = (s.port p).flags) : Steady s (s.setPort p r) := by
  have u : portUsable r = s.usable p := by simp [portUsable, State.usable, h, k]
  cases p
  · refine .of_vitals ?_
    unfold vitals
    rw [show (s.setPort .a r).usable .a = s.usable .a from u]; rfl
  · refine .of_vitals ?_
    unfold vitals
    rw [show (s.setPort .b r).usable .b = s.usable .b from u]; rfl

theorem drillWrap_steady (b : LoopMode) (s : State) (p : PortId) : Steady s (drillWrap b s p) := by
  unfold drillWrap
  simp only
  repeat' split
  · exact .refl s
  · exact setPort_steady _ _ _ rfl rfl
  · exact .refl s

theorem afterLoop_steady (c : LoopCause) (old s : State) : Steady s (afterLoop c old s) := by
  unfold afterLoop
  simp only
  have lose (a : State) : Steady a (if modeLosesCopy a then loseCurrency a else a) :=
    .ite (loseCurrency_steady _) (.refl _)
  have base : Steady s (drillWrap (loopMode old) (drillWrap (loopMode old)
      (dropPlans (loopMode old) (takeoverCheck (loopMode old) s)) .a) .b) :=
    (drillWrap_steady _ _ _).on ((drillWrap_steady _ _ _).on
      ((dropPlans_steady _ _).on (takeoverCheck_steady _ _)))
  have all := (base.trans (lose _)).trans ((retryCheck_steady _).on (rejudge_steady _))
  split
  · exact all.trans (notifyLoop_steady _ _)
  · exact all

/-! ### Emptying the queue, epochs -/

theorem loseItem_steady (s : State) (i : QItem) : Steady s (loseItem s i) := by
  unfold loseItem
  simp only
  split
  · split
    · exact (allotLost_steady _ _).on ((Steady.of_filter _ _).on (loseOp_steady _ _))
    · exact loseOp_steady _ _
  · exact (loseGain_steady _ _ _).on (loseOp_steady _ _)
  · exact loseOp_steady _ _

@[simp] theorem items_emptied (q : QueueRec) : (emptied q).items = [] := rfl
/-- A written message goes with the queue, a written piece stays to be assessed (R12, R73). -/
theorem written_emptied (q : QueueRec) (w : WrittenItem) :
    (emptied q).written = some w ↔ q.written = some w ∧ w.piece = true := by
  simp [emptied, Option.filter_eq_some_iff]

theorem emptyQueue_steady (s : State) : Steady s (emptyQueue s) :=
  (Steady.foldl (fun _ _ => loseItem_steady _ _) _ _).on (.of_queue fun _ => by simp)

theorem loseHeal_steady (op : Option Byte) (s : State) : Steady s (loseHeal op s) := by
  unfold loseHeal
  split
  · exact (forgetItem_steady _ _).on (loseOp_steady _ _)
  · exact .refl s

theorem loseEntry_steady (s : State) (p : PendingSwitch) : Steady s (loseEntry s p) := by
  unfold loseEntry
  repeat' split
  all_goals first
    | exact .refl s
    | exact allotLost_steady _ _
    | exact loseGain_steady _ _ _
    | exact loseHeal_steady _ _

theorem epochChange_keeps (g : OriginGroup) (r : OriginRole) (s : State) : Keeps s (epochChange g r s) := by
  unfold epochChange
  simp only
  refine Keeps.trans (t := { s with
    loop := epochLoop g r s
    queue := { s.queue with
      items := s.queue.items.map fun i => { i with stamp := none }
      written := none
      outstanding := none }
    snap := .idle
    switches := s.switches.filter (outlivesEpoch g s) }) ?_ ?_
  · refine ⟨id, fun k => ⟨k.1, by simpa using k.2, k.3, k.4, k.5⟩, fun k => ?_, fun k => ?_, rfl, rfl,
      List.prefix_refl _⟩
    · refine ⟨k.1.sublist (List.filter_sublist.map _), fun p hp => ?_⟩
      have := (List.mem_filter.1 hp).2
      simp only [outlivesEpoch, Bool.and_eq_true, decide_eq_true_eq] at this
      exact this.1
    · exact (wrapsInOrder_iff _).2 ((wrapsInOrder_iff s).1 k)
  · refine Steady.toKeeps ?_
    refine (needGainSnap_steady _).on ((lockEpoch_steady _).on ((talkEpoch_steady _).on
      ((loseCurrency_steady _).on ?_)))
    exact Steady.trans (Steady.on (Steady.foldl (fun _ _ => loseEntry_steady _ _) _ _)
      (.ite (needAllotSnap_steady _) (.refl _))) (.of_vitals rfl)

theorem askSnapshot_steady (g : OriginGroup) (s : State) : Steady s (askSnapshot g s) := by
  unfold askSnapshot
  split
  · exact pushSnapReq_steady _
  · exact .refl s

theorem adopt_keeps (g : OriginGroup) (s : State) : Keeps s (adopt g s) := by
  unfold adopt
  simp only
  refine (afterLoop_steady _ _ _).toKeeps.on ((askSnapshot_steady _ _).toKeeps.on ?_)
  split
  · exact .of_vitals rfl
  · exact (epochChange_keeps _ _ _).on (.of_vitals rfl)

theorem switchTo_keeps (g : OriginGroup) (a : Bool) (s : State) : Keeps s (switchTo g a s) := by
  unfold switchTo
  simp only
  refine (afterLoop_steady _ _ _).toKeeps.on ?_
  split
  · exact (askSnapshot_steady _ _).toKeeps.on (epochChange_keeps _ _ _)
  · exact epochChange_keeps _ _ _

theorem yieldTo_keeps (g : OriginGroup) (s : State) : Keeps s (yieldTo g s) :=
  (afterLoop_steady _ _ _).toKeeps.on ((askSnapshot_steady _ _).toKeeps.on (epochChange_keeps _ _ _))

theorem becomeOrigin_keeps (r : Rank) (c : LoopCause) (s : State) : Keeps s (becomeOrigin r c s) :=
  (goDone_steady _ _).toKeeps.on ((afterLoop_steady _ _ _).toKeeps.on (epochChange_keeps _ _ _))

theorem takeoverExpired_keeps (s : State) : Keeps s (takeoverExpired s) := by
  unfold takeoverExpired
  split
  · exact becomeOrigin_keeps _ _ _
  · exact .refl s

theorem originLost_steady (s : State) : Steady s (originLost s) :=
  (afterLoop_steady _ _ _).on ((dropKeys_steady _ _).after rfl)

theorem enterConflict_steady (c : ConflictCause) (s : State) : Steady s (enterConflict c s) := by
  unfold enterConflict
  simp only
  split
  · exact .refl s
  · split
    · exact (afterLoop_steady _ _ _).on ((dropKeys_steady _ _).after rfl)
    · exact (notifyLoop_steady _ _).on ((afterLoop_steady _ _ _).on ((dropKeys_steady _ _).after rfl))

/-! ### The link table -/

theorem modifyLink_steady (n : NodeId) (p : PortId) (f : LinkEntry → LinkEntry) (s : State) :
    Steady s (modifyLink n p f s) := .of_vitals rfl

theorem ceaseReady_steady (n : NodeId) (p : PortId) (s : State) : Steady s (ceaseReady n p s) := by
  unfold ceaseReady
  simp only
  split <;> exact .of_vitals rfl

theorem moveReady_steady (n : NodeId) (p : PortId) (m : NodeId) (q : PortId) (s : State) :
    Steady s (moveReady n p m q s) := by
  unfold moveReady
  split
  · exact .refl s
  · exact .of_vitals rfl

theorem judgeEntry_steady (s : State) (n : NodeId) (p : PortId) : Steady s (judgeEntry s n p) := by
  unfold judgeEntry
  repeat' split
  all_goals first
    | exact .refl s
    | exact moveReady_steady _ _ _ _ _
    | exact ceaseReady_steady _ _ _
    | exact modifyLink_steady _ _ _ _

theorem judgeLinks_steady (s : State) : Steady s (judgeLinks s) := by
  unfold judgeLinks
  split
  · exact .foldl (fun _ _ => judgeEntry_steady _ _ _) _ _
  · exact .refl s

theorem clearPlan_steady (l : Link) (s : State) : Steady s (clearPlan l s) := by
  unfold clearPlan
  repeat' split
  all_goals first | exact .refl s | exact .of_vitals rfl

theorem sendUnwrap_steady (l : Link) (s : State) : Steady s (sendUnwrap l s) := by
  unfold sendUnwrap
  repeat' split
  · exact (clearPlan_steady _ _).on (push_steady _ _ _ _ _ ‹_›)
  · exact .refl s
  · exact .of_vitals rfl

theorem healExpired_steady (n : NodeId) (p : PortId) (s : State) : Steady s (healExpired n p s) := by
  unfold healExpired
  simp only
  repeat' split
  all_goals first
    | exact .refl s
    | exact (sendUnwrap_steady _ _).on (modifyLink_steady _ _ _ _)
    | exact modifyLink_steady _ _ _ _

theorem sendWrap_steady (l : Link) (s : State) : Steady s (sendWrap l s) := by
  unfold sendWrap
  split
  · exact (push_steady _ _ _ _ { s with loop := { s.loop with plan := some l } } ‹_›).after rfl
  · exact pushInternal_steady _ _ _

theorem markLost_steady (n : NodeId) (p : PortId) (f : Option NodeId) (s : State) :
    Steady s (markLost n p f s) := by
  unfold markLost
  simp only
  repeat' split
  all_goals exact .of_vitals rfl

theorem takeLinkNote_steady (n : NodeId) (p : PortId) (st : LinkState) (m : Bool) (f : Option NodeId)
    (g : Option OriginGroup) (s : State) : Steady s (takeLinkNote n p st m f g s) := by
  unfold takeLinkNote
  simp only
  split
  · exact .refl s
  · have lost (k : Option NodeId) (a : State) : Steady a (if linkUsable st then a else markLost n p k a) :=
      .ite (.refl _) (markLost_steady _ _ _ _)
    have kept (k : Option NodeId) :
        Steady s (if k = ((linkAt s n p).getD .empty).partner then s else ceaseReady n p s) :=
      .ite (.refl s) (ceaseReady_steady n p s)
    have base := ((Steady.on (modifyLink_steady n p (fun e => { e with
      state := some st, marginal := m,
      partner := f.orElse fun _ => ((linkAt s n p).getD .empty).partner, group := g }) _)
        (kept (f.orElse fun _ => ((linkAt s n p).getD .empty).partner))).trans
        (lost (f.orElse fun _ => ((linkAt s n p).getD .empty).partner) _)).trans (judgeLinks_steady _)
    have plan (k : Option NodeId) (a : State) : Steady a (match k with
        | some far => sendWrap ⟨n, p, far, portOther p⟩ a
        | none => a) := by
      cases k
      · exact .refl _
      · exact sendWrap_steady _ _
    exact base.trans (.ite (plan _ _) (.refl _))

theorem pushLinkNote_steady (p : PortId) (s : State) : Steady s (pushLinkNote p s) := by
  unfold pushLinkNote
  split
  · exact push_steady _ _ _ _ _ ‹_›
  · cases p <;> exact .of_vitals rfl

/-! ### Wraps at port events -/

/-- The wrap contents after a port event are in order when they were before it (R52, R53). -/
theorem wrapStep_wraps (p : PortId) (old : PortRec) (s : State) (h : WrapsInOrder (s.setPort p old)) :
    WrapsInOrder (wrapStep p (portUsable old) s) := by
  rw [wrapsInOrder_iff] at h
  cases p
  · have ha : (s.setPort .a old).usable .a = portUsable old := rfl
    have hb : (s.setPort .a old).usable .b = s.usable .b := rfl
    rw [ha, hb, loop_setPort] at h
    clear ha hb
    unfold wrapStep
    generalize portUsable old = was at h ⊢
    cases was <;> cases hn : s.usable .a <;> cases ho : s.usable .b <;>
      simp only [portOther, ho, Bool.not_true, Bool.not_false, Bool.and_true, Bool.true_and, Bool.false_and,
        Bool.and_false, if_true, if_false, Bool.false_eq_true] at h ⊢
    all_goals repeat' split
    all_goals rw [wrapsInOrder_iff]
    all_goals try simp only [usable_setWrap]
    all_goals try simp only [State.setWrap, State.wrapAt] at *
    all_goals simp_all [isPlanned, plannedWrap]
    cases hw : s.loop.wrapA <;> simp_all
  · have ha : (s.setPort .b old).usable .b = portUsable old := rfl
    have hb : (s.setPort .b old).usable .a = s.usable .a := rfl
    rw [ha, hb, loop_setPort] at h
    clear ha hb
    unfold wrapStep
    generalize portUsable old = was at h ⊢
    cases was <;> cases hn : s.usable .b <;> cases ho : s.usable .a <;>
      simp only [portOther, ho, Bool.not_true, Bool.not_false, Bool.and_true, Bool.true_and, Bool.false_and,
        Bool.and_false, if_true, if_false, Bool.false_eq_true] at h ⊢
    all_goals repeat' split
    all_goals rw [wrapsInOrder_iff]
    all_goals try simp only [usable_setWrap]
    all_goals try simp only [State.setWrap, State.wrapAt] at *
    all_goals simp_all [isPlanned, plannedWrap]
    cases hw : s.loop.wrapB <;> simp_all

theorem wrapStep_steady (p : PortId) (old : PortRec) (s : State) :
    Steady (s.setPort p old) (wrapStep p (portUsable old) s) := by
  have w := wrapStep_wraps p old s
  refine ⟨⟨?_, ?_, ?_, w, ?_, ?_, ?_⟩, ?_, ?_⟩
  all_goals clear w
  · have : (wrapStep p (portUsable old) s).safety = s.safety := by
      unfold wrapStep; simp only; repeat' split
      all_goals simp
    intro k; unfold OutputsSafe; rw [this]; simpa [OutputsSafe] using k
  · have hc : (wrapStep p (portUsable old) s).ctl = s.ctl := by
      unfold wrapStep; simp only; repeat' split
      all_goals simp
    have hq : (wrapStep p (portUsable old) s).queue = s.queue := by
      unfold wrapStep; simp only; repeat' split
      all_goals simp
    rintro ⟨k1, k2, k3, k4, k5⟩
    simp only [ctl_setPort, queue_setPort] at k1 k2 k3 k4 k5
    exact ⟨hc ▸ k1, hq ▸ k2, hc ▸ k3, hc ▸ k4, hc ▸ k5⟩
  all_goals
    have hs : (wrapStep p (portUsable old) s).switches = s.switches := by
      unfold wrapStep; simp only; repeat' split
      all_goals simp
    have he : (wrapStep p (portUsable old) s).loop.epoch = s.loop.epoch := by
      unfold wrapStep; simp only; repeat' split
      all_goals simp
    have hl : (wrapStep p (portUsable old) s).lock = s.lock := by
      unfold wrapStep; simp only; repeat' split
      all_goals simp
  · rintro ⟨k1, k2⟩
    simp only [switches_setPort, loop_setPort] at k1 k2
    exact ⟨hs ▸ k1, by rw [hs, he]; exact k2⟩
  · rw [hl, lock_setPort]
  · have : (wrapStep p (portUsable old) s).start = s.start := by
      unfold wrapStep; simp only; repeat' split
      all_goals simp
    rw [this, start_setPort]
  · have : (wrapStep p (portUsable old) s).ctl = s.ctl := by
      unfold wrapStep; simp only; repeat' split
      all_goals simp
    rw [this, ctl_setPort]
  · rw [he, loop_setPort]
  · rw [hs, switches_setPort]

theorem markUsable_steady (p : PortId) (s : State) : Steady s (markUsable p s) := by
  unfold markUsable
  split
  · exact setPort_steady _ _ _ rfl rfl
  · exact .refl s

/-- A port event, seen from the state before the port's record changed (R37, R51 to R55). -/
theorem portEvent_steady (p : PortId) (old : PortRec) (s : State) :
    Steady (s.setPort p old) (portEvent p old s) := by
  unfold portEvent
  simp only
  have note (c : Bool) (a : State) (n : NodeId) (q : PortId) (st : LinkState) (m : Bool)
      (f : Option NodeId) (g : Option OriginGroup) :
      Steady a (if c then takeLinkNote n q st m f g (pushLinkNote q a) else a) :=
    .ite ((takeLinkNote_steady _ _ _ _ _ _ _).on (pushLinkNote_steady _ _)) (.refl _)
  have base := ((wrapStep_steady p old s).trans (markUsable_steady p _)).trans
    (note (noteDue old (s.port p)) _ s.start.id p (linkState (s.port p)) (s.port p).flags.marginal
      ((s.port p).partner.map (·.sender)) ((s.port p).partner.bind (·.offer.origin)))
  have last (c : Bool) (a : State) : Steady a
      (if c then afterLoop .originLost (s.setPort p old)
          (dropKeys .originLost { a with loop := { a.loop with following := false } })
        else afterLoop .port (s.setPort p old) a) :=
    .ite ((afterLoop_steady _ _ _).on ((dropKeys_steady _ _).after rfl)) (afterLoop_steady _ _ _)
  exact base.trans (last _ _)

/-! ### Plans and the pending switch list -/

/-- A wrap is placed at a usable port while the other holds none, or is removed. -/
theorem setWrap_steady (p : PortId) (w : Wrap) (s : State)
    (h : w = .none ∨ ((∃ far, w = .planned far) ∧ s.usable p = true ∧ s.wrapAt (portOther p) = .none)) :
    Steady s (s.setWrap p w) := by
  refine ⟨⟨?_, ?_, ?_, ?_, by simp, by simp, by simp⟩, by simp, by simp⟩
  · intro k; unfold OutputsSafe; rw [safety_setWrap]; exact k
  · rintro ⟨k1, k2, k3, k4, k5⟩
    exact ⟨by simpa using k1, by simpa using k2, by simpa using k3, by simpa using k4, by simpa using k5⟩
  · rintro ⟨k1, k2⟩
    exact ⟨by simpa using k1, by simpa using k2⟩
  · intro k
    rw [wrapsInOrder_iff] at k ⊢
    simp only [usable_setWrap]
    obtain ⟨k1, k2, k3, k4, k5⟩ := k
    cases p <;> rcases h with h | ⟨⟨far, hf⟩, hu, ho⟩ <;>
      simp_all [State.setWrap, State.wrapAt, portOther, isPlanned]

theorem loopMode_closed_wraps {s : State} (h : (loopMode s == .closed) = true) (p : PortId) :
    s.wrapAt p = .none := by
  unfold loopMode at h
  repeat' split at h
  all_goals simp_all
  cases p <;> simp_all [State.wrapAt]

theorem applyWrapPlan_steady (n : NodeId) (l : Link) (s : State) : Steady s (applyWrapPlan n l s) := by
  unfold applyWrapPlan
  simp only
  have mark (a : State) : Steady a (if a.isMaster && n = a.start.id then
      modifyLink l.node l.port (fun e => { e with wrapped := true })
        (modifyLink l.farNode l.farPort (fun e => { e with wrapped := true }) a) else a) :=
    .ite (.of_vitals rfl) (.refl _)
  split
  · exact mark s
  · split
    · rename_i p _ hc
      simp only [Bool.and_eq_true] at hc
      exact ((setWrap_steady p _ s (.inr ⟨⟨_, rfl⟩, hc.2, loopMode_closed_wraps hc.1 _⟩)).trans
        (mark _)).trans (afterLoop_steady _ _ _)
    · exact .refl s

theorem healApplied_steady (l : Link) (o : Option Byte) (s : State) : Steady s (healApplied l o s) := by
  unfold healApplied
  simp only
  have base : Steady s (if endStillUsable s l.node l.port && endStillUsable s l.farNode l.farPort then
      judgeLinks (modifyLink l.node l.port (fun e => { e with wrapped := false })
        (modifyLink l.farNode l.farPort (fun e => { e with wrapped := false }) s)) else s) :=
    .ite ((judgeLinks_steady _).after rfl) (.refl s)
  cases o
  · exact base
  · exact base.trans ((endOp_steady _ _ _ _).on (forgetItem_steady _ _))

theorem applyUnwrapPlan_steady (n : NodeId) (l : Link) (o : Option Byte) (s : State) :
    Steady s (applyUnwrapPlan n l o s) := by
  unfold applyUnwrapPlan
  simp only
  have heal (a : State) : Steady a (if a.isMaster && n = a.start.id then healApplied l o a else a) :=
    .ite (healApplied_steady _ _ _) (.refl _)
  have off (p : PortId) : Steady s
      (if isPlanned (s.wrapAt p) && s.usable p then afterLoop .unwrap s (s.setWrap p .none) else s) :=
    .ite ((afterLoop_steady _ _ _).on (setWrap_steady _ _ _ (.inl rfl))) (.refl s)
  cases linkPortOf l s.start.id with
  | none => exact heal s
  | some p => exact (off p).trans (heal _)

theorem mergeRelease_steady (p : PortId) (s : State) : Steady s (mergeRelease p s) :=
  (afterLoop_steady _ _ _).on (setWrap_steady _ _ _ (.inl rfl))

theorem applySwitch_steady (p : PendingSwitch) (s : State) : Steady s (applySwitch p s) := by
  unfold applySwitch
  split
  · exact applySnapshot_steady _ _
  · split
    · split
      · exact .refl s
      · exact applyAllot_steady _ _ _ _
    · exact applyNote_steady _ _ _ _ _ _
    · exact applyGrant_steady _ _ _ _ _ _
    · exact applyWrapPlan_steady _ _ _
    · exact applyUnwrapPlan_steady _ _ _ _
    · exact .refl s

theorem dropPending_steady (n : NodeId) (s : State) : Steady s (dropPending n s) := .of_filter _ _

theorem applyPending_steady (n : NodeId) (s : State) : Steady s (applyPending n s) := by
  unfold applyPending
  split
  · exact (applySwitch_steady _ _).on (dropPending_steady _ _)
  · exact .refl s

/-- After an entry is applied its sender holds none. -/
theorem applyPending_none (n : NodeId) (s : State) : n ∉ (applyPending n s).switches.map (·.sender) := by
  unfold applyPending
  split
  · intro h
    have := (applySwitch_steady ‹_› (dropPending n s)).senders.subset h
    simp only [dropPending, List.mem_map, List.mem_filter, decide_eq_true_eq] at this
    obtain ⟨a, ⟨_, h1⟩, h2⟩ := this
    exact h1 h2
  · rename_i h
    intro hm
    obtain ⟨p, hp, rfl⟩ := List.mem_map.1 hm
    have := List.find?_eq_none.1 h p hp
    simp at this

theorem applyDue_steady (s : State) : Steady s (applyDue s) :=
  .foldl (fun _ _ => applyPending_steady _ _) _ _

/-- An entry of the present epoch joins the pending switch list (R18). -/
theorem enterSwitch_keeps (p : PendingSwitch) (s : State) (h : p.epoch = s.loop.epoch) :
    Keeps s (enterSwitch p s) := by
  have a := applyPending_steady p.sender s
  unfold enterSwitch
  refine a.toKeeps.trans ⟨id, fun k => ⟨k.1, k.2, k.3, k.4, k.5⟩, fun k => ⟨?_, ?_⟩,
    fun k => (wrapsInOrder_iff _).2 ((wrapsInOrder_iff (applyPending p.sender s)).1 k), rfl, rfl, List.prefix_refl _⟩
  · have := applyPending_none p.sender s
    simp only [List.map_append, List.map_cons, List.map_nil]
    exact List.Nodup.append k.1 (by simp) (by simpa using this)
  · intro q hq
    rcases List.mem_append.1 hq with hq | hq
    · exact k.2 q hq
    · rw [List.mem_singleton.1 hq, h]; exact a.epoch.symm

/-! ### The loop map -/

theorem nodeLeaves_steady (s : State) (n : NodeId) : Steady s (nodeLeaves s n) :=
  (setLockView_steady _ _ _).after rfl

theorem setCopy_steady (e : Serial) (l : List MapEntry) (s : State) : Steady s (setCopy e l s) := by
  unfold setCopy
  simp only
  have joins (c : Bool) (a : State) : Steady a (if c then pushLockNote (needGainSnap a) else a) :=
    .ite ((pushLockNote_steady _).on (needGainSnap_steady _)) (.refl a)
  refine (rejudge_steady _).on ((notify_steady _ _).on (Steady.trans ?_ (joins _ _)))
  exact (Steady.foldl nodeLeaves_steady _ _).after rfl

theorem takeMap_steady (e : Serial) (l : List MapEntry) (s : State) : Steady s (takeMap e l s) := by
  unfold takeMap
  simp only
  split
  · exact setCopy_steady _ _ _
  · exact (dropKeys_steady _ _).on (setCopy_steady _ _ _)

theorem publishMap_steady (s : State) : Steady s (publishMap s) := by
  unfold publishMap
  repeat' split
  · exact replace_steady _ _ _ _
  · exact push_steady _ _ _ _ _ ‹_›
  · exact .of_vitals rfl

theorem circuitMap_steady (l : List Hop) (s : State) : Steady s (circuitMap l s) := by
  unfold circuitMap
  simp only
  split
  · exact .of_vitals rfl
  · have need (c : Bool) (a : State) : Steady a (if c then needAllotSnap a else a) :=
      .ite (needAllotSnap_steady _) (.refl a)
    refine (judgeLinks_steady _).on (Steady.trans ?_ (need _ _))
    exact (purgeTalk_steady _ _).on ((setCopy_steady _ _ _).on ((publishMap_steady _).after rfl))

end Sys2Proof.Machine
end

