-- ==== Sys2Proof/Laws/KeepsPorts.lean ====
section
/-! SUPPORT. What the operations of the optical ports keep. -/

namespace Sys2Proof.Machine

open Sys2Proof

/-! ### Committing a change -/

theorem notifyPort_steady (p : PortId) (c : PortCause) (s : State) : Steady s (notifyPort p c s) :=
  notify_steady _ _

theorem endDrill_steady (p : PortId) (d : DrillRec) (v : Verdict) (b : Option FrameNo) (s : State) :
    Steady s (endDrill p d v b s) :=
  (endOp_steady _ _ _ _).on (setPort_steady _ _ _ rfl rfl)

theorem setPort_notify (p : PortId) (r : PortRec) (n : Notice) (s : State) :
    (notify n s).setPort p r = notify n (s.setPort p r) := by
  unfold notify
  rw [ctl_setPort]
  split <;> cases p <;> rfl

theorem not_stateOrFlags {a b : PortRec} (h : stateOrFlags a b = false) :
    b.state = a.state ∧ b.flags = a.flags := by
  simp only [stateOrFlags, Bool.or_eq_false_iff, bne_eq_false_iff_eq] at h
  exact ⟨h.1.symm, h.2.symm⟩

theorem commitBase_steady (p : PortId) (c : PortCause) (r : PortRec) (s : State) :
    Steady s (commitBase p c r s) := by
  unfold commitBase
  simp only
  cases h : stateOrFlags (s.port p) r
  · simp only [Bool.false_eq_true, if_false, Bool.false_or]
    split
    · have := portEvent_steady p (s.port p) (s.setPort p r)
      rwa [setPort_setPort, setPort_port] at this
    · exact setPort_steady _ _ _ (not_stateOrFlags h).1 (not_stateOrFlags h).2
  · simp only [if_true, Bool.true_or]
    have := portEvent_steady p (s.port p) (notifyPort p c (s.setPort p r))
    unfold notifyPort at this ⊢
    rw [setPort_notify, setPort_setPort, setPort_port] at this
    exact (notify_steady _ _).trans this

theorem overtakeDrill_steady (p : PortId) (s : State) : Steady s (overtakeDrill p s) := by
  unfold overtakeDrill
  simp only
  split
  · exact (endDrill_steady _ _ _ _ _).on (commitBase_steady _ _ _ _)
  · exact commitBase_steady _ _ _ _

theorem commit_steady (p : PortId) (c : PortCause) (r : PortRec) (s : State) : Steady s (commit p c r s) := by
  unfold commit
  simp only
  have beaten (b : Bool) (a : State) : Steady a (if b then overtakeDrill (portOther p) a else a) :=
    .ite (overtakeDrill_steady _ _) (.refl _)
  have base := (commitBase_steady p c r s).trans
    (beaten (overtakes (s.port p) r && ((commitBase p c r s).port (portOther p)).state == .drill) _)
  split
  · split
    · exact base.trans (endDrill_steady _ _ _ _ _)
    · exact base
  · exact base

/-! ### Light -/

theorem lightMeasured_steady (p : PortId) (l : Option Int) (s : State) : Steady s (lightMeasured p l s) := by
  unfold lightMeasured
  simp only
  repeat' split
  all_goals first
    | exact commit_steady _ _ _ _
    | exact setPort_steady _ _ _ rfl rfl

/-! ### Offers -/

theorem reOffer_steady (p : PortId) (c : PortCause) (f : Option LinkField) (r : PortRec) (s : State) :
    Steady s (reOffer p c f r s) := by
  unfold reOffer
  simp only
  split
  · exact commit_steady _ _ _ _
  · exact (commit_steady _ _ _ _).on (commit_steady _ _ _ _)

theorem upFrame_steady (p : PortId) (f : Option LinkField) (r : PortRec) (s : State) :
    Steady s (upFrame p f r s) := by
  unfold upFrame
  repeat' split
  all_goals first | exact commit_steady _ _ _ _ | exact reOffer_steady _ _ _ _ _

theorem mismatchFrame_steady (p : PortId) (f : Option LinkField) (r : PortRec) (s : State)
    (h : r.state = (s.port p).state) (k : r.flags = (s.port p).flags) :
    Steady s (mismatchFrame p f r s) := by
  unfold mismatchFrame
  repeat' split
  · exact setPort_steady _ _ _ h k
  · exact reOffer_steady _ _ _ _ _
  · exact commit_steady _ _ _ _

/-! ### Frames -/

theorem state_countGood (r : PortRec) : (countGood r).state = r.state ∧ (countGood r).flags = r.flags := by
  unfold countGood; simp only; split <;> exact ⟨rfl, rfl⟩
theorem state_measureDelay (f : Option LinkField) (n : Nanos) (r : PortRec) :
    (measureDelay f n r).state = r.state ∧ (measureDelay f n r).flags = r.flags := by
  unfold measureDelay; simp only; repeat' split
  all_goals exact ⟨rfl, rfl⟩
theorem state_noteStamp (f : Option LinkField) (n : Nanos) (r : PortRec) :
    (noteStamp f n r).state = r.state ∧ (noteStamp f n r).flags = r.flags := by
  unfold noteStamp; split <;> exact ⟨rfl, rfl⟩

theorem alignFrame_steady (p : PortId) (r : PortRec) (s : State) (h : r.state = (s.port p).state)
    (k : r.flags = (s.port p).flags) : Steady s (alignFrame p r s) := by
  unfold alignFrame
  split
  · exact commit_steady _ _ _ _
  · exact setPort_steady _ _ _ h k

theorem goodFrame_steady (p : PortId) (f : Option LinkField) (now : Nanos) (s : State) :
    Steady s (goodFrame p f now s) := by
  unfold goodFrame
  simp only
  generalize hr : noteStamp f now (measureDelay f now (countGood (s.port p))) = r
  have h : r.state = (s.port p).state := by
    rw [← hr, (state_noteStamp _ _ _).1, (state_measureDelay _ _ _).1, (state_countGood _).1]
  have k : r.flags = (s.port p).flags := by
    rw [← hr, (state_noteStamp _ _ _).2, (state_measureDelay _ _ _).2, (state_countGood _).2]
  clear hr
  refine Steady.trans (t := match r.state with
    | .drill => s
    | .dark => s.setPort p r
    | .seek => alignFrame p r s
    | .settle => s.setPort p r
    | .offer => commit p (examineOffer s f r).2 (examineOffer s f r).1 s
    | .up =>
      if r.flags.fixed then
        match f with
        | none => s.setPort p r
        | some _ => reOffer p .fixedEnd f r s
      else upFrame p f r s
    | .mismatch => mismatchFrame p f r s) ?_ ?_
  · split
    · exact .refl s
    · exact setPort_steady _ _ _ h k
    · exact alignFrame_steady _ _ _ h k
    · exact setPort_steady _ _ _ h k
    · exact commit_steady _ _ _ _
    · split
      · split
        · exact setPort_steady _ _ _ h k
        · exact reOffer_steady _ _ _ _ _
      · exact upFrame_steady _ _ _ _
    · exact mismatchFrame_steady _ _ _ _ h k
  · cases (s.port p).state
    all_goals first
      | exact .refl _
      | exact Steady.ite (enterConflict_steady _ _) (.refl _)

theorem alignedBad_steady (p : PortId) (s : State) : Steady s (alignedBad p s) := by
  unfold alignedBad
  simp only
  split <;> exact commit_steady _ _ _ _

theorem failedFrame_steady (p : PortId) (s : State) : Steady s (failedFrame p s) := by
  unfold failedFrame
  simp only
  split
  all_goals first
    | exact .refl s
    | exact setPort_steady _ _ _ rfl rfl
    | exact alignedBad_steady _ _

theorem missingFrame_steady (p : PortId) (s : State) : Steady s (missingFrame p s) := by
  unfold missingFrame
  split
  · exact alignedBad_steady _ _
  · exact .refl s

/-! ### Timers -/

theorem settleExpired_steady (p : PortId) (s : State) : Steady s (settleExpired p s) := by
  unfold settleExpired
  simp only
  split
  · exact commit_steady _ _ _ _
  · exact .refl s

theorem offerExpired_steady (p : PortId) (s : State) : Steady s (offerExpired p s) := by
  unfold offerExpired
  simp only
  repeat' split
  · exact setPort_steady _ _ _ rfl rfl
  · exact commit_steady _ _ _ _
  · exact .refl s

theorem relockExpired_steady (p : PortId) (s : State) : Steady s (relockExpired p s) := by
  unfold relockExpired
  simp only
  repeat' split
  · exact setPort_steady _ _ _ rfl rfl
  · exact (endDrill_steady _ _ _ _ _).on (setPort_steady _ _ _ rfl rfl)
  · exact setPort_steady _ _ _ rfl rfl
  · exact .refl s

theorem windowEnded_steady (p : PortId) (s : State) : Steady s (windowEnded p s) := by
  unfold windowEnded
  simp only
  split
  · exact commit_steady _ _ _ _
  · exact .refl s

theorem drillExpired_steady (p : PortId) (s : State) : Steady s (drillExpired p s) := by
  unfold drillExpired
  simp only
  split
  · exact commit_steady _ _ _ _
  · exact .refl s

theorem startDrill_steady (p : PortId) (ms : Nat) (tag : Byte) (s : State) :
    Steady s (startDrill p ms tag s) := commit_steady _ _ _ _

end Sys2Proof.Machine
end

