-- ==== Sys2Proof/Laws/KeepsVisit.lean ====
section
/-! SUPPORT. What a frame at the Loop Engine keeps: acting on cells, confirmation and drops, the cell
written, first visits, dispatch, origination. -/

namespace Sys2Proof.Machine

open Sys2Proof

/-! ### Acting on loop messages -/

theorem enterReceived_keeps (n : NodeId) (h : Header) (i : SwitchItem) (f : FrameNo) (s : State) :
    Keeps s (enterReceived n h i f s) := by
  unfold enterReceived
  split
  · exact enterSwitch_keeps _ _ rfl
  · exact .refl s

theorem takeAllot_keeps (n : NodeId) (h : Header) (m : Message) (e : Serial) (s : State) :
    Keeps s (takeAllot n h m e s) := by
  unfold takeAllot
  simp only
  split
  · exact .refl s
  · refine (enterReceived_keeps _ _ _ _ _).on (Steady.toKeeps ?_)
    exact .ite ((retryCheck_steady _).on ((rejudge_steady _).on ((pushSnapReq_steady _).on
      (loseCurrency_steady _)))) (.refl s)

theorem supersede_steady (n : NodeId) (s : State) : Steady s (supersede n s) := by
  unfold supersede
  simp only
  repeat' split
  · exact .refl s
  · exact .refl s
  · exact (dropPending_steady n s).trans (.of_vitals rfl)
  · exact .refl s

theorem takeSnap_keeps (n : NodeId) (h : Header) (m : Message) (e : Serial) (p : Nat) (l : List SlotEntry)
    (s : State) : Keeps s (takeSnap n h m e p l s) := by
  unfold takeSnap
  split
  · exact .refl s
  · split
    · exact (storePiece_steady _ _ _).toKeeps
    · exact (beginCollection_steady _ _ _ _ _).toKeeps.on ((enterReceived_keeps _ _ _ _ _).on
        (supersede_steady _ _).toKeeps)

theorem takeSlotAnswer_steady (t : Byte) (l : List PairResult) (s : State) :
    Steady s (takeSlotAnswer t l s) := by
  unfold takeSlotAnswer
  repeat' split
  all_goals first | exact .refl s | exact endOp_steady _ _ _ _

theorem takeRestart_keeps (e : Epoch) (s : State) : Keeps s (takeRestart e s) := by
  unfold takeRestart
  simp only
  repeat' split
  · exact .refl s
  · exact .refl s
  · exact (afterLoop_steady _ _ _).toKeeps.on ((epochChange_keeps _ _ _).on
      ((supervisionLoopReset_steady _).toKeeps.on (emptyQueue_steady _).toKeeps))

theorem actOn_keeps (n : NodeId) (h : Header) (m : Message) (s : State) : Keeps s (actOn n h m s) := by
  unfold actOn
  split
  · exact (takeMap_steady _ _ _).toKeeps
  · exact takeAllot_keeps _ _ _ _ _
  · exact takeSnap_keeps _ _ _ _ _ _ _
  · exact (takeSnapReq_steady _ _ _).toKeeps
  · exact (takeSlotAsk_steady _ _ _ _ _).toKeeps
  · exact (takeSlotAsk_steady _ _ _ _ _).toKeeps
  · exact (takeSlotAnswer_steady _ _ _).toKeeps
  · exact (takeGainAsk_steady _ _ _ _ _ _).toKeeps
  · exact (takeGainAsk_steady _ _ _ _ _ _).toKeeps
  · exact (takeGainAsk_steady _ _ _ _ _ _).toKeeps
  · exact (takeGainAnswer_steady _ _ _).toKeeps
  · exact enterReceived_keeps _ _ _ _ _
  · exact (takeGainSnap_steady _ _ _ _).toKeeps
  · exact (takeTalkClaim_steady _ _ _).toKeeps
  · exact (takeTalkRelease_steady _ _ _).toKeeps
  · exact .ite ((enterReceived_keeps _ _ _ _ _).on (grantHeard_steady _ _).toKeeps) (.refl s)
  · exact .ite (applyRefuse_steady _ _ _ _ _).toKeeps (.refl s)
  · exact (takeLinkNote_steady _ _ _ _ _ _ _).toKeeps
  · exact enterReceived_keeps _ _ _ _ _
  · exact enterReceived_keeps _ _ _ _ _
  · exact takeRestart_keeps _ _
  · exact (setLockView_steady _ _ _).toKeeps

theorem readCell_keeps (h : Header) (s : State) (n : NodeId) (c : Option Message) :
    Keeps s (readCell h s n c) := by
  unfold readCell
  repeat' split
  · exact .refl s
  · exact .refl s
  · exact .refl s
  · exact (actOn_keeps _ _ _ _).on (.of_vitals rfl)

theorem readCells_keeps (f : Frame) (s : State) : Keeps s (readCells f s) :=
  .foldl (fun _ _ => readCell_keeps _ _ _ _) _ _

/-! ### Confirmation and drops -/

theorem advancePiece_steady (s : State) : Steady s (advancePiece s) := by
  unfold advancePiece
  simp only
  repeat' split
  · exact .refl s
  all_goals first
    | exact (snapshotStart_steady _).after rfl
    | exact .of_vitals rfl

/-- The head is ready unless it bears a switch while an item other than itself is outstanding (R13, R17). -/
theorem headReady_cons {s : State} {i : QItem} {l : List QItem} (h : s.queue.items = i :: l) :
    headReady s = true ↔
      bearsSwitch i.body = false ∨ s.queue.outstanding = none ∨ s.queue.outstanding = i.stamp := by
  rcases o : s.queue.outstanding with _ | f <;> cases b : bearsSwitch i.body <;>
    simp [headReady, otherOutstanding, outstanding, h, o, b]

/-- The head of the queue leaves it. -/
theorem dropHead_steady {s : State} {i : QItem} {l : List QItem} (h : s.queue.items = i :: l) :
    Steady s { s with queue := { s.queue with items := l } } :=
  .of_queue fun k => by
    rw [h] at k
    simp only [List.length_cons] at k
    show l.length ≤ _
    omega

theorem confirmHead_steady (s : State) : Steady s (confirmHead s) := by
  unfold confirmHead
  simp only
  split
  · exact .refl s
  · rename_i i l h
    have base := dropHead_steady h
    split
    · refine base.trans (Steady.trans (mapSwitches_steady (fun p => ?_) fun p => ?_) (.of_vitals rfl))
      all_goals split <;> rfl
    · exact base

theorem tellConfirmed_steady (f : Frame) (s : State) : Steady s (tellConfirmed f s) := by
  unfold tellConfirmed
  repeat' split
  all_goals first | exact .refl s | exact modifyOp_steady _ _ _

theorem assess_steady (f : Frame) (s : State) : Steady s (assess f s) := by
  unfold assess
  simp only
  repeat' split
  · exact .refl s
  · exact (advancePiece_steady _).after rfl
  · exact (confirmHead_steady _).after rfl
  · exact .of_vitals rfl

theorem dropEffect_steady (i : QItem) (s : State) : Steady s (dropEffect i s) := by
  unfold dropEffect
  simp only
  split
  · exact (loseOp_steady i.op s).trans ((needAllotSnap_steady _).after rfl)
  · exact (needGainSnap_steady _).on (loseOp_steady _ _)
  · exact (claimDropped_steady _ _).on (loseOp_steady _ _)
  · exact (oweRelease_steady _ _).on (loseOp_steady _ _)
  · exact (loseOp_steady _ _).trans (.of_vitals rfl)
  · exact (loseOp_steady _ _).trans (.of_vitals rfl)
  · exact loseOp_steady _ _

theorem dropSpent_steady (s : State) : Steady s (dropSpent s) := by
  unfold dropSpent
  simp only
  have adv (a : State) : Steady a (if pieceSpent a then advancePiece a else a) :=
    .ite (advancePiece_steady _) (.refl _)
  refine Steady.trans ?_ (adv _)
  split
  · split
    · exact .refl s
    · rename_i h
      exact (dropEffect_steady _ _).on (dropHead_steady h)
  · exact .refl s

theorem dropStale_steady (s : State) : Steady s (dropStale s) :=
  .of_queue fun k => (List.dropWhile_suffix _).length_le.trans k

/-! ### Owed messages -/

theorem admitMap_steady (s : State) : Steady s (admitMap s) := by
  unfold admitMap
  split
  · exact (publishMap_steady _).after rfl
  · exact .refl s

theorem admitNotes_steady (s : State) : Steady s (admitNotes s) := by
  unfold admitNotes
  simp only
  have second (a : State) : Steady a (if a.loop.noteOwedB && queueRoom a then
      pushLinkNote .b { a with loop := { a.loop with noteOwedB := false } } else a) :=
    .ite ((pushLinkNote_steady _ _).after rfl) (.refl _)
  have first : Steady s (if s.loop.noteOwedA && queueRoom s then
      pushLinkNote .a { s with loop := { s.loop with noteOwedA := false } } else s) :=
    .ite ((pushLinkNote_steady _ _).after rfl) (.refl _)
  exact first.trans (second _)

theorem admitUnwrap_steady (s : State) (l : Link) : Steady s (admitUnwrap s l) := by
  unfold admitUnwrap
  simp only
  split
  · exact (sendUnwrap_steady _ _).after rfl
  · exact .refl s

theorem admitOwed_steady (s : State) : Steady s (admitOwed s) := by
  unfold admitOwed
  simp only
  refine (admitLockNote_steady _).on ((Steady.foldl (fun _ _ => admitUnwrap_steady _ _) _ _).on ?_)
  exact (admitNotes_steady _).on ((admitMap_steady _).on
    ((Steady.foldl (fun _ _ => admitRelease_steady _ _) _ _).on
      (Steady.foldl (fun _ _ => admitGrant_steady _ _) _ _)))

/-! ### Writing the cell -/

theorem firstSend_steady (i : QItem) (s : State) : Steady s (firstSend i s) := by
  unfold firstSend
  simp only
  have op : Steady s (match i.op with
      | some t => modifyOp t (fun o => { o with stage := .sent }) s
      | none => s) := by
    cases i.op
    · exact .refl s
    · exact modifyOp_steady _ _ _
  split
  · exact op.trans (claimSent_steady _ _)
  · exact op

theorem stampHead_keeps (i : QItem) (s : State) : Keeps s (stampHead i s).2 := by
  unfold stampHead
  simp only
  split
  · exact (enterSwitch_keeps _ { s with queue := { s.queue with
      outstanding := some (s.loop.count + BitVec.ofNat 32 s.queue.lead) } } rfl).on (.of_vitals rfl)
  · exact .refl s

theorem setHead_steady (i : QItem) (s : State) : Steady s (setHead i s) :=
  .of_queue fun k => by
    simp only [List.length_cons, List.length_tail]
    have : Config.queueMax = 16 := rfl
    omega

theorem sendHead_keeps (h : Header) (s : State) : Keeps s (sendHead h s).1 := by
  unfold sendHead
  simp only
  split
  · exact .refl s
  · rename_i i l _
    have first (c : Prop) [Decidable c] (a : State) : Steady a (if c then firstSend i a else a) :=
      .ite (firstSend_steady _ _) (.refl _)
    have snap (a : State) : Steady a (match i.body with
        | .snapReq _ => retryRestart a
        | _ => a) := by
      cases i.body <;> first | exact retryRestart_steady _ | exact .refl _
    have base := (stampHead_keeps i s).trans ((first (i.sends = 0) _).trans (snap _)).toKeeps
    exact (base.trans (setHead_steady _ _).toKeeps).trans (.of_vitals rfl)

theorem stampSnap_keeps (r : SnapRun) (s : State) : Keeps s (stampSnap r s).2 := by
  unfold stampSnap
  simp only
  split
  · exact (enterSwitch_keeps _ { s with queue := { s.queue with
      outstanding := some (s.loop.count +
        BitVec.ofNat 32 (s.queue.lead + 2 * pieceCount s.start.rate)) } } rfl).on (.of_vitals rfl)
  · exact .refl s
  · exact .refl s

theorem sendPiece_keeps (h : Header) (s : State) : Keeps s (sendPiece h s).1 := by
  unfold sendPiece
  simp only
  split
  · exact .refl s
  · rename_i r _
    refine (stampSnap_keeps r s).trans ?_
    split
    · exact .of_vitals rfl
    · exact .of_vitals rfl

theorem sendRestart_steady (e : Epoch) (s : State) : Steady s (sendRestart e s).1 := .of_vitals rfl

theorem chooseCell_keeps (h : Header) (s : State) : Keeps s (chooseCell h s).1 := by
  unfold chooseCell
  repeat' split
  all_goals first
    | exact (sendRestart_steady _ _).toKeeps
    | exact .refl s
    | exact sendHead_keeps _ _
    | exact sendPiece_keeps _ _
    | exact .of_vitals rfl

theorem writeCell_fst (f : Frame) (s : State) : (writeCell f s).1 =
    if writesCells (loopMode (admitOwed s)) then
      (chooseCell f.header (dropStale (dropSpent (dropStale (admitOwed s))))).1
    else { admitOwed s with queue := { (admitOwed s).queue with last := .neither } } := by
  unfold writeCell
  simp only
  rw [apply_ite Prod.fst]

theorem writeCell_keeps (f : Frame) (s : State) : Keeps s (writeCell f s).1 := by
  rw [writeCell_fst]
  have base := admitOwed_steady s
  generalize admitOwed s = t at base ⊢
  refine base.toKeeps.trans ?_
  split
  · exact (chooseCell_keeps f.header _).on ((dropStale_steady _).on ((dropSpent_steady _).on
      (dropStale_steady t))).toKeeps
  · exact .of_vitals rfl

/-! ### First visits -/

theorem visitStart_steady (h : Header) (s : State) : Steady s (visitStart h s) := by
  unfold visitStart
  refine (lockVisit_steady _ _).on ((snapshotStart_steady _).on ((applyDue_steady _).on (setCount_steady _ _)))

theorem visitRead_keeps (f : Frame) (s : State) : Keeps s (visitRead f s) := by
  unfold visitRead
  exact (assess_steady _ _).toKeeps.on ((readCells_keeps _ _).on ((tellConfirmed_steady _ _).on
    (visitSamples_steady _ _)).toKeeps)

theorem visitWrite_fst (f : Frame) (d : Direction) (s : State) :
    (visitWrite f d s).1 = (writeCell f s).1 := by
  cases h : writeCell f s
  simp [visitWrite, h]

theorem visitWrite_keeps (f : Frame) (d : Direction) (s : State) : Keeps s (visitWrite f d s).1 := by
  rw [visitWrite_fst]; exact writeCell_keeps f s

theorem noteVisit_steady (h : Header) (s : State) : Steady s (noteVisit h s) := .of_vitals rfl

theorem firstVisit_fst (f : Frame) (d : Direction) (s : State) :
    (firstVisit f d s).1 = noteVisit f.header (visitWrite f d (visitRead f (visitStart f.header s))).1 := by
  cases h : visitWrite f d (visitRead f (visitStart f.header s))
  simp [firstVisit, h]

theorem firstVisit_keeps (f : Frame) (d : Direction) (s : State) : Keeps s (firstVisit f d s).1 := by
  rw [firstVisit_fst]
  exact (noteVisit_steady _ _).toKeeps.on ((visitWrite_keeps _ _ _).on ((visitRead_keeps _ _).on
    (visitStart_steady _ _).toKeeps))

/-! ### Relay and dispatch -/

theorem route_steady (p : PortId) (f : Frame) (s : State) : Steady s (route p f s) := by
  unfold route
  split
  · exact setPort_steady _ _ _ rfl rfl
  · exact .refl s

theorem relay_steady (p : PortId) (f : Frame) (s : State) : Steady s (relay p f s) := by
  unfold relay
  split
  · exact route_steady _ _ _
  · exact .refl s

theorem hearFollowed_steady (p : PortId) (s : State) : Steady s (hearFollowed p s) := by
  unfold hearFollowed
  split
  · exact .of_vitals rfl
  · exact .refl s

theorem takeFrame_keeps (p : PortId) (f : Frame) (s : State) : Keeps s (takeFrame p f s) := by
  unfold takeFrame
  simp only
  repeat' split
  · exact ((relay_steady _ _ _).on (hearFollowed_steady _ _)).toKeeps
  · exact ((relay_steady _ _ _).on ((enterConflict_steady _ _).on (hearFollowed_steady _ _))).toKeeps
  · exact (relay_steady _ _ _).toKeeps.on ((firstVisit_keeps _ _ _).on (hearFollowed_steady _ _).toKeeps)

theorem circuitEnd_steady (f : Frame) (n : Nanos) (s : State) : Steady s (circuitEnd f n s) := by
  unfold circuitEnd
  split
  · exact (circuitMap_steady _ _).after rfl
  · exact .refl s

theorem ownIdFrame_steady (p : PortId) (f : Frame) (n : Nanos) (s : State) :
    Steady s (ownIdFrame p f n s) := by
  unfold ownIdFrame
  simp only
  repeat' split
  · exact circuitEnd_steady _ _ _
  · exact relay_steady _ _ _
  · exact .refl s
  · exact (relay_steady _ _ _).on (enterConflict_steady _ _)

theorem otherOrigin_keeps (p : PortId) (f : Frame) (s : State) : Keeps s (otherOrigin p f s) := by
  unfold otherOrigin
  simp only
  repeat' split
  · exact .refl s
  · exact .refl s
  · exact (takeFrame_keeps _ _ _).on (switchTo_keeps _ _ _)
  · exact (takeFrame_keeps _ _ _).on (yieldTo_keeps _ _)
  · exact ((relay_steady _ _ _).on (enterConflict_steady _ _)).toKeeps

theorem dispatchOrigin_keeps (p : PortId) (f : Frame) (s : State) : Keeps s (dispatchOrigin p f s) := by
  unfold dispatchOrigin
  simp only
  repeat' split
  · exact takeFrame_keeps _ _ _
  · exact (takeFrame_keeps p f _).on (switchTo_keeps _ _ _)
  · exact (relay_steady _ _ _).toKeeps
  · exact otherOrigin_keeps _ _ _
  all_goals first
    | exact .refl s
    | exact (takeFrame_keeps p f _).on (adopt_keeps _ _)

theorem dispatchRest_keeps (p : PortId) (f : Frame) (n : Nanos) (s : State) :
    Keeps s (dispatchRest p f n s) := by
  unfold dispatchRest
  split
  · exact (ownIdFrame_steady _ _ _ _).toKeeps
  · exact dispatchOrigin_keeps _ _ _

theorem wrappedArrival_keeps (p : PortId) (f : Frame) (n : Nanos) (s : State) :
    Keeps s (wrappedArrival p f n s) := by
  unfold wrappedArrival
  repeat' split
  all_goals first
    | exact (dispatchOrigin_keeps _ _ _).on (applyPending_steady _ _).toKeeps
    | exact (dispatchRest_keeps _ _ _ _).on (mergeRelease_steady _ _).toKeeps
    | exact .refl s

theorem dispatch_keeps (p : PortId) (f : Frame) (n : Nanos) (s : State) : Keeps s (dispatch p f n s) := by
  unfold dispatch
  repeat' split
  all_goals first
    | exact .refl s
    | exact (relay_steady _ _ _).toKeeps
    | exact dispatchRest_keeps _ _ _ _
    | exact wrappedArrival_keeps _ _ _ _

/-! ### A frame at a port, origination, transmission -/

theorem markArrived_steady (p : PortId) (a : Arrival) (s : State) : Steady s (markArrived p a s) := by
  unfold markArrived
  simp only
  split <;> exact setPort_steady _ _ _ rfl rfl

theorem receive_keeps (p : PortId) (a : Arrival) (s : State) : Keeps s (receive p a s) := by
  unfold receive
  simp only
  repeat' split
  · exact (dispatch_keeps _ _ _ _).on ((goodFrame_steady _ _ _ _).on (markArrived_steady _ _ _)).toKeeps
  · exact ((goodFrame_steady _ _ _ _).on (markArrived_steady _ _ _)).toKeeps
  · exact ((failedFrame_steady _ _).on (markArrived_steady _ _ _)).toKeeps

theorem takeEpoch_keeps (s : State) : Keeps s (takeEpoch s) := by
  unfold takeEpoch
  repeat' split
  · exact (afterLoop_steady _ _ _).toKeeps.on ((epochChange_keeps _ _ _).on
      (supervisionLoopReset_steady _).toKeeps)
  all_goals exact .refl s

theorem sendOriginated_steady (f : Frame) (n : Nanos) (s : State) : Steady s (sendOriginated f n s) := by
  unfold sendOriginated
  simp only
  split
  · exact (route_steady _ _ _).after rfl
  · exact (circuitEnd_steady _ _ _).after rfl

theorem originate_keeps (n : Nanos) (s : State) : Keeps s (originate n s) := by
  unfold originate
  simp only
  have base : Keeps s (takeEpoch (setCount (s.loop.count + 1) s)) :=
    (takeEpoch_keeps _).on (setCount_steady _ _).toKeeps
  split
  · exact base
  · exact (sendOriginated_steady _ _ _).toKeeps.on ((firstVisit_keeps _ _ _).on base)

theorem transmit_steady (n : Nanos) (s : State) (p : PortId) : Steady s (transmit n s p) := by
  unfold transmit
  simp only
  split <;> exact setPort_steady _ _ _ rfl rfl

end Sys2Proof.Machine
end

