-- ==== Sys2Proof/Laws/KeepsStart.lean ====
section
/-! SUPPORT. What closing an event keeps, what the start sequence and the resets leave, and the outcome of
a command in terms of its effect. -/

namespace Sys2Proof.Machine

open Sys2Proof

/-! ### Operations that may change the start record -/

/-- An operation keeps the invariants of Safety.lean that concern no derived value, does not lower the lock
level, and neither begins nor ends a held reset: `Keeps` for SET_LOCK and for what changes the start record
or takes a notice back. -/
structure Sound (s t : State) : Prop where
  outs : OutputsSafe s → OutputsSafe t
  room : WithinRoom s → WithinRoom t
  pend : PendingInOrder s → PendingInOrder t
  wraps : WrapsInOrder s → WrapsInOrder t
  lock : s.lock.level ≤ t.lock.level
  reset : t.inReset = s.inReset

theorem Keeps.reset {s t : State} (h : Keeps s t) : t.inReset = s.inReset := by
  unfold State.inReset; rw [h.start]
theorem Keeps.sound {s t : State} (h : Keeps s t) : Sound s t :=
  ⟨h.outs, h.room, h.pend, h.wraps, h.lock.ge, h.reset⟩
theorem Sound.refl (s : State) : Sound s s := (Keeps.refl s).sound
theorem Sound.trans {s t u : State} (h : Sound s t) (k : Sound t u) : Sound s u :=
  ⟨k.outs ∘ h.outs, k.room ∘ h.room, k.pend ∘ h.pend, k.wraps ∘ h.wraps, h.lock.trans k.lock,
    k.reset.trans h.reset⟩
theorem Sound.on {s t u : State} (k : Sound t u) (h : Sound s t) : Sound s u := h.trans k
theorem Sound.ite {c : Prop} [Decidable c] {s t u : State} (h : Sound s t) (k : Sound s u) :
    Sound s (if c then t else u) := by
  split <;> assumption

/-- States that agree in the vital parts but for the start record. -/
theorem Sound.of_vitals {s t : State} (h : vitals { t with start := s.start } = vitals s)
    (r : t.inReset = s.inReset) : Sound s t := by
  have k := Keeps.of_vitals h
  exact ⟨k.outs, fun x => ⟨(k.room x).1, (k.room x).2, (k.room x).3, (k.room x).4, (k.room x).5⟩,
    fun x => ⟨(k.pend x).1, (k.pend x).2⟩,
    fun x => (wrapsInOrder_iff _).2 ((wrapsInOrder_iff { t with start := s.start }).1 (k.wraps x)),
    k.lock.ge, r⟩

/-! ### Closing an event -/

theorem stopTakeover_steady (s : State) : Steady s (stopTakeover s) := .ite (.refl _) (.of_vitals rfl)

theorem modeCheck_steady (s : State) : Steady s (modeCheck s) :=
  (stopTakeover_steady _).on (.ite (loseCurrency_steady _) (.refl _))

theorem settle_steady (s : State) : Steady s (settle s) :=
  (retryCheck_steady _).on ((rejudge_steady _).on (modeCheck_steady _))

theorem event_sound {f : State → State} {s : State} (h : Sound s (f s)) : Sound s (event f s) :=
  h.trans ((reportOutputs_steady _ _).on (settle_steady _)).toKeeps.sound

theorem event_keeps {f : State → State} {s : State} (h : Keeps s (f s)) : Keeps s (event f s) :=
  (reportOutputs_steady _ _).toKeeps.on ((settle_steady _).toKeeps.on h)

theorem choose_steady (c : Option Chosen) (s : State) : Steady s (choose c s) := .of_vitals rfl

theorem pickUart_steady (s : State) : Steady s (pickUart s) := by
  unfold pickUart
  split
  · exact choose_steady _ _
  · exact .refl s

/-- Every command answers a next state: the one its effect gave, with the queue as it stood. -/
theorem finish_eq (s t : State) : finish s t = .next { pickUart t with pending := s.pending } := rfl

/-- A command that is one event keeps what its effect keeps; while a reset is held it changes nothing. -/
theorem done_eq (f : State → State) (s : State) :
    done f s = .next { pickUart (if s.inReset then s else event f s) with pending := s.pending } := rfl

/-! ### Leaving HELD, the start sequence -/

theorem leaveHeld_sound (s : State) : Sound s (leaveHeld s) := by
  unfold leaveHeld
  simp only
  have base : Sound s { s with
      start := { s.start with held := false }
      portA := restartUsable s.portA
      portB := restartUsable s.portB } := .of_vitals rfl rfl
  split
  · split
    · exact (afterLoop_steady _ _ _).toKeeps.sound.on base
    · exact ((goDone_steady _ _).toKeeps.on ((afterLoop_steady _ _ _).toKeeps.on
        (epochChange_keeps _ _ _))).sound.on base
  · exact (afterLoop_steady _ _ _).toKeeps.sound.on base
  · exact (afterLoop_steady _ _ _).toKeeps.sound.on base

theorem startSequence_sound (s : State) : Sound s (startSequence s) := by
  unfold startSequence
  simp only
  have first : Sound s { s with start := sampleHold s.start } := .of_vitals rfl rfl
  have base := first.trans (notify_steady (.startReport (startReport
      { s with start := sampleHold s.start })) _).toKeeps.sound
  generalize notify _ _ = u at base ⊢
  have held : Sound u { u with start := { u.start with held := true } } := .of_vitals rfl rfl
  split
  · exact (base.trans held).trans ((notifyLoop_steady _ _).on (dropKeys_steady _ _)).toKeeps.sound
  · exact (base.trans held).trans (leaveHeld_sound _)

/-! ### POWER and PIN resets -/

theorem clearAll_clear (s : State) : ResetClear (clearAll s) := by
  refine ⟨rfl, rfl, rfl, rfl, rfl, rfl, rfl, rfl, rfl, ?_, rfl, rfl, rfl, rfl, rfl, rfl, rfl, rfl, rfl, rfl, rfl⟩
  intro k hk
  obtain ⟨q, _, rfl⟩ := List.mem_map.1 hk
  rfl

theorem clearAll_inReset (s : State) : (clearAll s).inReset = s.inReset := rfl

theorem outClean_power : OutClean OutRec.power := ⟨by simp [OutRec.power], by simp [OutRec.power]⟩

/-- Blocks at their values after a reset are in order. -/
theorem ResetClear.inOrder {s : State} (h : ResetClear s) :
    OutputsSafe s ∧ WithinRoom s ∧ PendingInOrder s ∧ WrapsInOrder s := by
  refine ⟨?_, ?_, ?_, ?_⟩
  · intro r hr
    rw [h.outs] at hr
    rw [List.eq_of_mem_replicate hr]
    exact outClean_power
  · constructor <;> simp [h.ctl, h.queue, ControlRec.clear, QueueRec.fresh]
  · constructor <;> simp [h.switches]
  · rw [wrapsInOrder_iff]
    simp [h.loop, LoopRec.power, isPlanned]

theorem reset_clear : ResetClear State.reset := by
  refine ⟨rfl, rfl, rfl, rfl, rfl, rfl, rfl, rfl, rfl, ?_, rfl, rfl, rfl, rfl, rfl, rfl, rfl, rfl, rfl, rfl, rfl⟩
  intro k hk
  rw [List.eq_of_mem_replicate hk]

/-- What a release hands to the start sequence (R172). -/
theorem release_eq (t : Straps) (s : State) : ∃ u, release t s = startSequence u ∧
    u.safety.outs = (setPanic s.safety.panicRaw s).safety.outs ∧ u.ctl = s.ctl ∧ u.queue = s.queue ∧
      u.switches = s.switches ∧ u.loop = .power t.nid t.func (t.role.getD .member) ∧
      u.lock.level = 0 ∧ u.inReset = s.inReset := ⟨_, rfl, rfl, rfl, rfl, rfl, rfl, rfl, rfl⟩

/-- The release of a reset from blocks that stand cleared. -/
theorem release_inOrder (t : Straps) (s : State) (h : ResetClear s) :
    OutputsSafe (release t s) ∧ WithinRoom (release t s) ∧ PendingInOrder (release t s) ∧
      WrapsInOrder (release t s) := by
  obtain ⟨u, hu, h1, h2, h3, h4, h5, _⟩ := release_eq t s
  rw [hu]
  have k := startSequence_sound u
  obtain ⟨o, w, _, _⟩ := h.inOrder
  refine ⟨k.outs ?_, k.room ?_, k.pend ?_, k.wraps ?_⟩
  · unfold OutputsSafe; rw [h1]; exact (setPanic_steady _ s).outs o
  · exact ⟨h2 ▸ w.1, h3 ▸ w.2, h2 ▸ w.3, h2 ▸ w.4, h2 ▸ w.5⟩
  · constructor <;> simp [h4, h.switches]
  · rw [wrapsInOrder_iff]
    simp [h5, LoopRec.power, isPlanned]

/-! ### SOFT reset -/

theorem softOut_clean (t : Tap) (b : Bool) (r : OutRec) : OutClean (softOut t b r) :=
  ⟨by simp [softOut, OutRec.power], by simp [softOut, OutRec.power]⟩

theorem rebuildOuts_steady (s : State) : Steady s (rebuildOuts s) := by
  refine Steady.on (mapOuts_steady fun _ _ _ h => ?_) (rejudge_steady s)
  split
  · exact h
  · exact becomeSafe_clean _ _

theorem softReset_sound (tag : Byte) (s : State) : Sound s (softReset tag s) := by
  unfold softReset
  simp only
  refine ((refreshOwnCache_steady _).on (rebuildOuts_steady _)).toKeeps.sound.on ((startSequence_sound _).on ?_)
  refine ⟨fun _ => ?_, fun k => ⟨?_, ?_, ?_, ?_, ?_⟩, fun _ => ⟨?_, ?_⟩, fun _ => ?_, le_refl _, rfl⟩
  · intro r hr
    simp only [List.mem_map] at hr
    obtain ⟨⟨q, i⟩, _, rfl⟩ := hr
    exact softOut_clean _ _ _
  all_goals try simp [ControlRec.clear, QueueRec.fresh]
  rw [wrapsInOrder_iff]
  simp [softLoop, LoopRec.power, isPlanned]

end Sys2Proof.Machine
end

