-- ==== Sys2Proof/Laws/KeepsRequests.lean ====
section
/-! SUPPORT. What the host requests keep, and what taking a request does to the inbox. -/

namespace Sys2Proof.Machine

open Sys2Proof

/-! ### Taking a request -/

theorem overflowReply_steady (tag : Byte) (r : Reply) (s : State) : Steady s (overflowReply tag r s) :=
  .of_vitals rfl

theorem inboxReply_sound (tag : Byte) (r : Reply) (s t : State) (h : Sound s t)
    (k : s.ctl.inbox.length < Config.inboxMax) : Sound s (inboxReply tag r s t) := by
  refine ⟨h.outs, fun w => ?_, fun p => ⟨(h.pend p).1, (h.pend p).2⟩,
    fun w => (wrapsInOrder_iff _).2 ((wrapsInOrder_iff t).1 (h.wraps w)), h.lock, h.reset⟩
  have := h.room w
  exact ⟨this.1, this.2, by simp only [inboxReply, List.length_append, List.length_singleton]; omega,
    this.4, this.5⟩

/-- Taking a request: the silence ends, a full inbox answers BUSY, else the judging's reply joins the
inbox (R168, R170, R181). -/
theorem takeRequest_eq (tag : Byte) (judge : State → Judged) (s : State) :
    takeRequest tag judge s =
      if Config.inboxMax ≤ (goodRequest s).ctl.inbox.length then overflowReply tag .busy (goodRequest s)
      else match (judge (goodRequest s)).1 with
        | some r => inboxReply tag r (goodRequest s) (judge (goodRequest s)).2
        | none => (judge (goodRequest s)).2 := by
  unfold takeRequest
  simp only
  split
  · rfl
  · rcases judge (goodRequest s) with ⟨_ | _, _⟩ <;> rfl

theorem takeRequest_sound (tag : Byte) (judge : State → Judged) (h : ∀ a, Sound a (judge a).2) (s : State) :
    Sound s (takeRequest tag judge s) := by
  rw [takeRequest_eq]
  refine (goodRequest_steady s).toKeeps.sound.trans ?_
  generalize goodRequest s = a
  split
  · exact (overflowReply_steady _ _ _).toKeeps.sound
  · split
    · exact inboxReply_sound _ _ _ _ (h a) (by omega)
    · exact h a

/-! ### The judges, one by one -/

theorem refuse_keeps (r : Reason) (s : State) : Keeps s (refuse r s).2 := .refl s
theorem ok_keeps {s t : State} (h : Keeps s t) : Keeps s (ok t).2 := h
theorem data_keeps (d : Data) {s t : State} (h : Keeps s t) : Keeps s (data d t).2 := h

/-- A judge that checks a condition. -/
theorem Keeps.judge {c : Prop} [Decidable c] {s : State} {a b : Judged} (h : Keeps s a.2) (k : Keeps s b.2) :
    Keeps s (if c then a else b).2 := by
  split <;> assumption

theorem Sound.judge {c : Prop} [Decidable c] {s : State} {a b : Judged} (h : Sound s a.2) (k : Sound s b.2) :
    Sound s (if c then a else b).2 := by
  split <;> assumption

theorem admitLong_keeps (o : Operation) (q : Bool) (f : State → State) (s : State)
    (h : ∀ a, (q = true → hostRoom a = true) → Keeps a (f a)) : Keeps s (admitLong o q f s).2 := by
  unfold admitLong
  split
  · exact .refl s
  · rename_i k
    refine Keeps.on (h _ fun hq => ?_) (addOp_steady o s).toKeeps
    show hostRoom s = true
    unfold admission at k
    repeat' split at k
    all_goals simp_all

/-- A message of a host request enters a queue that has room for it (R14). -/
theorem pushHost_steady (d : QDest) (m : LoopMsg) (o : Option Byte) (c : GainCause) (s : State)
    (h : hostRoom s = true) : Steady s (push d m o c s) :=
  push_steady _ _ _ _ _ (by
    simp only [hostRoom, queueRoom, decide_eq_true_eq, Config.queueHost, Config.queueMax] at h ⊢; omega)

theorem judgeStatus_keeps (s : State) : Keeps s (judgeStatus s).2 := .refl s

theorem judgeReadTable_keeps (t : TableName) (c : Nat) (s : State) : Keeps s (judgeReadTable t c s).2 :=
  .judge (.refl s) (.judge (.refl s) (.refl s))

theorem judgeReadPort_keeps (p : PortId) (s : State) : Keeps s (judgeReadPort p s).2 :=
  (setPort_steady p { s.port p with counters := .zero } s rfl rfl).toKeeps

theorem heldOnly_sound {f : State → State} {s : State} (h : Sound s (f s)) : Sound s (heldOnly f s).2 :=
  .judge (.refl s) (.judge (.refl s) h)

theorem changeRole_sound (r : Role) (s : State) : Sound s (changeRole r s) := by
  unfold changeRole
  split
  · exact .refl s
  · exact (clearCache_steady _).toKeeps.sound.on (.of_vitals rfl rfl)

theorem changeFunc_sound (f : Func) (s : State) : Sound s (changeFunc f s) := by
  unfold changeFunc
  simp only
  split
  · exact .refl s
  · exact ((refreshOwnCache_steady _).on (clearCache_steady _)).toKeeps.sound.on (.of_vitals rfl rfl)

theorem changeId_sound (i : NodeId) (s : State) : Sound s (changeId i s) := by
  unfold changeId
  simp only
  split
  · exact .refl s
  · exact ((refreshOwnCache_steady _).on (setLockView_steady _ _ _)).toKeeps.sound.on (.of_vitals rfl rfl)

theorem changeNode_sound (i : Option NodeId) (f : Option Func) (r : Option Role) (s : State) :
    Sound s (changeNode i f r s) := by
  unfold changeNode
  simp only
  have base := ((changeRole_sound (r.getD s.start.role) s).trans (changeFunc_sound
    (f.getD (changeRole (r.getD s.start.role) s).start.func) _)).trans
      (changeId_sound (i.getD (changeFunc (f.getD (changeRole (r.getD s.start.role) s).start.func)
        (changeRole (r.getD s.start.role) s)).start.id) _)
  generalize changeId (i.getD _) _ = u at base ⊢
  split
  · exact base
  · refine base.trans ?_
    exact .of_vitals rfl rfl

theorem judgeSetNode_sound (i : Option Nat) (f : Option Func) (r : Option Role) (s : State) :
    Sound s (judgeSetNode i f r s).2 := by
  unfold judgeSetNode
  split
  · exact heldOnly_sound (changeNode_sound _ _ _ _)
  · split
    · exact .refl s
    · exact heldOnly_sound (changeNode_sound _ _ _ _)

theorem changeRate_sound (r : Rate) (s : State) : Sound s (changeRate r s) := by
  unfold changeRate
  simp only
  split
  · exact .refl s
  · refine Sound.on (Keeps.sound (Steady.toKeeps (Steady.on (mapOuts_steady fun _ _ _ h => ?_)
      (rejudge_steady _)))) (.of_vitals ?_ ?_)
    · split
      · exact toUnused_clean _
      · exact rescale_clean _ _ _ h
    · rfl
    · rfl

theorem judgeSetRate_sound (r : Rate) (s : State) : Sound s (judgeSetRate r s).2 :=
  heldOnly_sound (changeRate_sound _ _)

theorem judgeSetLoopName_sound (n : Nat) (s : State) : Sound s (judgeSetLoopName n s).2 :=
  .judge (.refl s) (heldOnly_sound (.of_vitals rfl rfl))

theorem judgeGo_sound (t : Byte) (s : State) : Sound s (judgeGo t s).2 := by
  unfold judgeGo
  split
  · exact .refl s
  · exact .judge (.refl s) ((leaveHeld_sound _).on (addOp_steady _ _).toKeeps.sound)

theorem judgeResetPart_sound (t : Byte) (s : State) : Sound s (judgeResetPart t s).2 :=
  .judge (.refl s) (softReset_sound _ _)

theorem storeThresholds_steady (p : PortSel) (f : ThresholdFields) (s : State) :
    Steady s (storeThresholds p f s) :=
  .foldl (fun a p => setPort_steady p (withThresholds f (a.port p)) a rfl rfl) _ _

theorem judgeSetThresholds_keeps (p : PortSel) (f : ThresholdFields) (s : State) :
    Keeps s (judgeSetThresholds p f s).2 :=
  .judge (.refl s) (.judge (.refl s) (storeThresholds_steady _ _ _).toKeeps)

theorem judgeDrill_keeps (t : Byte) (p : PortId) (ms : Nat) (s : State) : Keeps s (judgeDrill t p ms s).2 := by
  unfold judgeDrill
  split
  · exact .refl s
  · exact .judge (.refl s) (.judge (.refl s) (.judge (.refl s) (.judge (.refl s) (.judge (.refl s)
      ((startDrill_steady _ _ _ _).on (addOp_steady _ _)).toKeeps))))

theorem judgeSetRecovery_keeps (f : RecoveryFields) (s : State) : Keeps s (judgeSetRecovery f s).2 :=
  .judge (.refl s) (.judge (.refl s) (.of_vitals rfl))

theorem judgeSetSwitchLead_keeps (n : Nat) (s : State) : Keeps s (judgeSetSwitchLead n s).2 :=
  .judge (.refl s) (.judge (.refl s) (.of_vitals rfl))

theorem heal_steady (t : Byte) (l : Link) (s : State) (h : hostRoom s = true) : Steady s (heal t l s) :=
  (clearPlan_steady _ _).on ((pushHost_steady _ _ _ _ (modifyLink _ _ _ s) h).on (modifyLink_steady _ _ _ _))

theorem judgeHeal_keeps (t : Byte) (x : HealTarget) (s : State) : Keeps s (judgeHeal t x s).2 := by
  refine .judge (.refl s) (.judge (.refl s) (.judge (.refl s) (.judge (.refl s) ?_)))
  split
  · exact .refl s
  · exact admitLong_keeps _ _ _ _ fun a h => (heal_steady _ _ _ (h rfl)).toKeeps

theorem judgeLoopReset_keeps (s : State) : Keeps s (judgeLoopReset s).2 := by
  refine .judge (.refl s) (.judge (.refl s) (.judge (.refl s) (ok_keeps ?_)))
  unfold prepareRestart
  refine ((emptyQueue_steady s).trans ?_).toKeeps
  exact .of_vitals rfl

theorem slotRequest_keeps (t : Byte) (k : OpKind) (a : SlotAsk) (m : LoopMsg) (s : State) :
    Keeps s (slotRequest t k a m s).2 := by
  refine .judge (.judge (.refl s) (data_keeps _ ?_)) ?_
  · exact (issueChanges_steady _ _).toKeeps
  · exact admitLong_keeps _ _ _ _ fun a h => (pushHost_steady _ _ _ _ _ (h rfl)).toKeeps

theorem judgeClaimSlot_keeps (t : Byte) (l : List ClaimPair) (s : State) :
    Keeps s (judgeClaimSlot t l s).2 :=
  .judge (.refl s) (.judge (.refl s) (.judge (.refl s) (.judge (.refl s) (slotRequest_keeps _ _ _ _ _))))

theorem judgeReleaseSlot_keeps (t : Byte) (l : List Nat) (f : Bool) (s : State) :
    Keeps s (judgeReleaseSlot t l f s).2 :=
  .judge (.refl s) (.judge (.refl s) (.judge (.refl s) (.judge (.refl s) (slotRequest_keeps _ _ _ _ _))))

/-! ### Taps -/

/-- A record that differs only beside state, causes and hold timer. -/
theorem OutClean.of_eq {r q : OutRec} (h : OutClean r) (k : q.state = r.state) (c : q.causes = r.causes)
    (t : q.hold = r.hold) : OutClean q := by
  unfold OutClean
  rw [k, c, t]; exact h

theorem tapSafeMode_clean (old new : Tap) (r : OutRec) (h : OutClean r) :
    OutClean (tapSafeMode old new r) := by
  unfold tapSafeMode
  repeat' split
  all_goals exact h.of_eq rfl rfl rfl

theorem tapSource_clean (c : OutCtx) (old new : Tap) (r : OutRec) (h : OutClean r) :
    OutClean (tapSource c old new r) := by
  unfold tapSource
  repeat' split
  · exact toUnused_clean _
  · exact fromUnused_clean _ _ _
  · exact h

theorem tapPanic_clean (c : OutCtx) (on : Bool) (old new : Tap) (r : OutRec) (h : OutClean r) :
    OutClean (tapPanic c on old new r) := by
  unfold tapPanic
  split
  · exact h
  · exact onCauses_clean _ _ _ h

theorem tapResume_clean (c : OutCtx) (b : Bool) (old new : Tap) (r : OutRec) (h : OutClean r) :
    OutClean (tapResume c b old new r) := by
  unfold tapResume
  repeat' split
  · exact ⟨h.1, by simp⟩
  · rename_i hc
    simp only [Bool.and_eq_true, decide_eq_true_eq] at hc
    exact beginResume_clean _ _ hc.1.1.2 hc.1.2
  · exact h

theorem tapOut_clean (s : State) (old new : Tap) (r : OutRec) (h : OutClean r) :
    OutClean (tapOut s old new r) :=
  tapResume_clean _ _ _ _ _ (tapPanic_clean _ _ _ _ _ (tapSource_clean _ _ _ _
    (tapSafeMode_clean _ _ _ (rescale_clean _ _ _ h))))

theorem storeTap_steady (n : Nat) (f : TapFields) (s : State) : Steady s (storeTap n f s) :=
  Steady.on (modifyOut_steady fun _ h => tapOut_clean _ _ _ _ h) (.of_vitals rfl)

theorem judgeSetTap_keeps (n : Nat) (f : TapFields) (s : State) : Keeps s (judgeSetTap n f s).2 :=
  .judge (.refl s) (.judge (.refl s) (.judge (.refl s) (.judge (.refl s) (storeTap_steady _ _ _).toKeeps)))

theorem storeTrackRef_steady (n g : Nat) (s : State) : Steady s (storeTrackRef n g s) :=
  (noticeLimit_steady _ _ _ _).after rfl

theorem judgeSetTrackRef_keeps (n g : Nat) (s : State) : Keeps s (judgeSetTrackRef n g s).2 :=
  .judge (.refl s) (.judge (.refl s) (.judge (.refl s) (storeTrackRef_steady _ _ _).toKeeps))

/-! ### Preamp gain -/

theorem judgeLocalGain_keeps (i : Nat) (f : GainFields) (b : Bool) (s : State) :
    Keeps s (judgeLocalGain i f b s).2 := by
  refine .judge (.refl s) (.judge (.refl s) (.judge (.refl s) (.judge (.refl s) (.judge (.refl s)
    (.judge (.judge (.refl s) (ok_keeps ?_)) (ok_keeps ?_))))))
  · exact (decideGain_steady _ _ _ _).toKeeps
  · exact (decideAtOnce_steady _ _ _).toKeeps

theorem remoteGain_keeps (t : Byte) (k : OpKind) (n : NodeId) (i : Nat) (b : Bool) (m : LoopMsg)
    (s : State) : Keeps s (remoteGain t k n i b m s).2 := by
  refine .judge (.refl s) (.judge (.refl s) (.judge (.refl s) ?_))
  exact admitLong_keeps _ _ _ _ fun a h => (pushHost_steady _ _ _ _ _ (h rfl)).toKeeps

theorem judgeSetGain_keeps (t : Byte) (n : Option Nat) (i : Nat) (f : GainFields) (b : Bool) (s : State) :
    Keeps s (judgeSetGain t n i f b s).2 := by
  unfold judgeSetGain
  split
  · exact .judge (judgeLocalGain_keeps _ _ _ _) (.refl s)
  · split
    · exact .refl s
    · exact .judge (.judge (judgeLocalGain_keeps _ _ _ _) (.refl s))
        (.judge (.refl s) (.judge (.refl s) (remoteGain_keeps _ _ _ _ _ _ _)))

theorem judgeClaimGain_keeps (t : Byte) (n i : Nat) (b : Bool) (s : State) :
    Keeps s (judgeClaimGain t n i b s).2 := by
  unfold judgeClaimGain
  split
  · exact .refl s
  · exact .judge (.refl s) (remoteGain_keeps _ _ _ _ _ _ _)

theorem judgeYieldGain_keeps (t : Byte) (n i : Nat) (s : State) : Keeps s (judgeYieldGain t n i s).2 := by
  unfold judgeYieldGain
  split
  · exact .refl s
  · exact .judge (.refl s) (remoteGain_keeps _ _ _ _ _ _ _)

theorem judgeSetPhantomMute_keeps (n : Nat) (s : State) : Keeps s (judgeSetPhantomMute n s).2 :=
  .judge (.refl s) (.judge (.refl s) (.judge (.refl s) (.of_vitals rfl)))

/-! ### Keys -/

theorem storeKey_steady (k : KeyName) (f : KeyFields) (s : State) : Steady s (storeKey k f s) := by
  unfold storeKey
  simp only
  split
  · split
    all_goals first
      | exact (sendRelease_steady _ _).on ((endKey_steady _ _ _ _).on (setKeyRec_steady _ _ _))
      | exact (endKey_steady _ _ _ _).on (setKeyRec_steady _ _ _)
      | exact setKeyRec_steady _ _ _
  · exact setKeyRec_steady _ _ _

theorem judgeSetKey_keeps (k : KeyName) (f : KeyFields) (s : State) : Keeps s (judgeSetKey k f s).2 :=
  .judge (.refl s) (.judge (.refl s) (.judge (.refl s) (storeKey_steady _ _ _).toKeeps))

theorem virtualTo_steady (k : KeyName) (b : Bool) (s : State) : Steady s (virtualTo k b s) :=
  (filterTo_steady _ _ _).on (modifyKey_steady _ _ _)

theorem judgeTalkPress_keeps (k : KeyName) (s : State) : Keeps s (judgeTalkPress k s).2 :=
  .judge (.refl s) (.judge (.refl s) (ok_keeps (virtualTo_steady _ _ _).toKeeps))

theorem judgeTalkLift_keeps (k : KeyName) (s : State) : Keeps s (judgeTalkLift k s).2 :=
  .judge (.refl s) (.judge (.refl s) (ok_keeps (virtualTo_steady _ _ _).toKeeps))

/-! ### Outputs, lock, supervision -/

theorem resumeOuts_steady (o : OutputSel) (s : State) : Steady s (resumeOuts o s) := by
  refine mapOuts_steady fun _ _ r h => ?_
  split
  · rename_i hc
    simp only [Bool.and_eq_true, resumes] at hc
    exact enterFadeIn_clean _ _ hc.2.2
  · exact h

theorem judgeResume_keeps (o : OutputSel) (s : State) : Keeps s (judgeResume o s).2 :=
  .judge (.refl s) (resumeOuts_steady _ _).toKeeps

theorem forceOuts_steady (o : OutputSel) (b : Bool) (s : State) : Steady s (forceOuts o b s) := by
  refine mapOuts_steady fun _ _ r h => ?_
  split
  · exact onCauses_clean _ _ _ h
  · exact h

theorem judgeForceSafe_keeps (o : OutputSel) (b : Bool) (s : State) : Keeps s (judgeForceSafe o b s).2 :=
  .judge (.refl s) (forceOuts_steady _ _ _).toKeeps

theorem judgeSetSafety_keeps (h f : Option Nat) (s : State) : Keeps s (judgeSetSafety h f s).2 :=
  .judge (.refl s) (.judge (.refl s) (.of_vitals rfl))

theorem judgeSetSupervision_keeps (n : Nat) (s : State) : Keeps s (judgeSetSupervision n s).2 :=
  .judge (.refl s) (.judge (.refl s) (.of_vitals rfl))

theorem judgeUnknown_keeps (s : State) : Keeps s (judgeUnknown s).2 := .refl s
theorem judgeUnfit_keeps (s : State) : Keeps s (judgeUnfit s).2 := .refl s

/-- SET_LOCK raises the lock level or leaves it (R163). -/
theorem judgeSetLock_sound (n : Nat) (s : State) : Sound s (judgeSetLock n s).2 := by
  unfold judgeSetLock
  repeat' split
  · exact (Keeps.refl s).sound
  · exact (Keeps.refl s).sound
  · exact (Keeps.refl s).sound
  · rename_i _ h1 _
    have up : Sound s { s with lock := { s.lock with
        level := n
        view := s.lock.view.set s.start.id.val (some n) } } :=
      ⟨id, fun k => ⟨k.1, k.2, k.3, k.4, k.5⟩, fun k => ⟨k.1, k.2⟩,
        fun k => (wrapsInOrder_iff _).2 ((wrapsInOrder_iff s).1 k), by simp only; omega, rfl⟩
    exact up.trans ((pushLockNote_steady _).on (notify_steady _ _)).toKeeps.sound

/-- A request that arrives as bytes is judged soundly. -/
theorem judgeOf_sound (i : Instr) (s : State) : Sound s (judgeOf i s).2 := by
  unfold judgeOf
  split
  · exact (judgeStatus_keeps _).sound
  · exact (judgeReadTable_keeps _ _ _).sound
  · exact (judgeReadPort_keeps _ _).sound
  · exact judgeSetNode_sound _ _ _ _
  · exact judgeSetRate_sound _ _
  · exact judgeSetLoopName_sound _ _
  · exact judgeGo_sound _ _
  · exact judgeResetPart_sound _ _
  · exact (judgeSetThresholds_keeps _ _ _).sound
  · exact (judgeDrill_keeps _ _ _ _).sound
  · exact (judgeSetRecovery_keeps _ _).sound
  · exact (judgeSetSwitchLead_keeps _ _).sound
  · exact (judgeHeal_keeps _ _ _).sound
  · exact (judgeLoopReset_keeps _).sound
  · exact (judgeClaimSlot_keeps _ _ _).sound
  · exact (judgeReleaseSlot_keeps _ _ _ _).sound
  · exact (judgeSetTap_keeps _ _ _).sound
  · exact (judgeSetTrackRef_keeps _ _ _).sound
  · exact (judgeSetGain_keeps _ _ _ _ _ _).sound
  · exact (judgeClaimGain_keeps _ _ _ _ _).sound
  · exact (judgeYieldGain_keeps _ _ _ _).sound
  · exact (judgeSetPhantomMute_keeps _ _).sound
  · exact (judgeSetKey_keeps _ _ _).sound
  · exact (judgeTalkPress_keeps _ _).sound
  · exact (judgeTalkLift_keeps _ _).sound
  · exact (judgeResume_keeps _ _).sound
  · exact (judgeForceSafe_keeps _ _ _).sound
  · exact (judgeSetSafety_keeps _ _ _).sound
  · exact judgeSetLock_sound _ _
  · exact (judgeSetSupervision_keeps _ _).sound
  · exact (judgeUnknown_keeps _).sound

end Sys2Proof.Machine
end

