-- ==== Sys2Proof/Laws/KeepsCommands.lean ====
section
/-! SUPPORT. What the host line, the timers, the frame period and the rows of the line, the ports, the loop
and the units keep. -/

namespace Sys2Proof.Machine

open Sys2Proof

/-! ### The host line -/

theorem answerDamaged_steady (s : State) : Steady s (answerDamaged s) := overflowReply_steady _ _ _

theorem judgeParsed_sound (p : Parsed) (s : State) : Sound s (judgeParsed p s).2 := by
  unfold judgeParsed
  split
  · exact judgeOf_sound _ _
  · exact (judgeUnfit_keeps s).sound
  · exact (judgeUnknown_keeps s).sound

theorem takeLine_sound (l : List Byte) (s : State) : Sound s (takeLine l s) := by
  unfold takeLine
  split
  · exact .refl s
  · exact (answerDamaged_steady s).toKeeps.sound
  · exact takeRequest_sound _ _ (fun a => judgeParsed_sound _ a) s

/-- Items leave the inbox or the notice queue. -/
theorem Sound.of_ctl {s : State} {c : ControlRec} (hn : c.notices.length ≤ s.ctl.notices.length)
    (hi : c.inbox.length ≤ s.ctl.inbox.length) (ho : c.ops = s.ctl.ops) (he : c.ended = s.ctl.ended) :
    Sound s { s with ctl := c } :=
  ⟨id, fun k => ⟨hn.trans k.1, k.2, hi.trans k.3, by simpa [ho] using k.4, by simpa [he] using k.5⟩,
    fun k => ⟨k.1, k.2⟩, fun k => (wrapsInOrder_iff _).2 ((wrapsInOrder_iff s).1 k), le_refl _, rfl⟩

theorem deliver_sound (c : Chosen) (s : State) : Sound s (deliver c s) := by
  unfold deliver
  split
  · exact .refl s
  · exact .of_ctl (le_refl _) (List.length_filter_le _ _) rfl rfl
  · exact .of_ctl (le_refl _) (le_refl _) rfl rfl
  · exact .of_ctl (by simp) (le_refl _) rfl rfl

theorem selectFall_steady (s : State) : Steady s (selectFall s) := by
  unfold selectFall
  split
  · exact choose_steady _ _
  · exact .refl s

theorem endLine_sound (l : List Byte) (s : State) : Sound s (endLine l s) := .of_vitals rfl rfl

/-- What CPDO carried is as many bytes as were clocked (R178). -/
@[simp] theorem length_clockedOut (c : Chosen) (n : Nat) : (clockedOut c n).length = n := by
  unfold clockedOut
  simp
  omega

/-- Within the frame CPDO carries the frame's byte (R178). -/
theorem clockedOut_frame (c : Chosen) (n i : Nat) (hi : i < c.bytes.length) (hn : i < n) :
    (clockedOut c n)[i]? = c.bytes[i]? := by
  have h : i < (c.bytes.take n).length := by simp; omega
  rw [clockedOut, List.getElem?_append_left h, List.getElem?_take_of_lt hn]

/-- Once the frame is done CPDO carries FFh (R178). -/
theorem clockedOut_after (c : Chosen) (n i : Nat) (hi : c.bytes.length ≤ i) (hn : i < n) :
    (clockedOut c n)[i]? = some 0xFF := by
  have h : (c.bytes.take n).length ≤ i := by simp; omega
  rw [clockedOut, List.getElem?_append_right h, List.getElem?_replicate]
  simp
  omega

theorem endChosen_sound (n : Nat) (s : State) : Sound s (endChosen n s) := by
  unfold endChosen
  simp only
  repeat' split
  · exact .refl s
  · exact (deliver_sound _ _).on (endLine_sound _ s)
  · exact endLine_sound _ s

/-- A transaction that has no frame chosen is abandoned (R179). -/
theorem transactionEnd_unopened {s : State} (h : s.ctl.chosen = none) (l : List Byte) : transactionEnd l s = s := by
  simp [transactionEnd, h]

theorem transactionEnd_sound (l : List Byte) (s : State) : Sound s (transactionEnd l s) := by
  unfold transactionEnd
  split
  · exact (endChosen_sound _ s).trans (takeLine_sound _ _)
  · exact .refl s

theorem uartByte_sound (b : Byte) (s : State) : Sound s (uartByte b s) := by
  unfold uartByte
  simp only
  have opened (o : Option OpenFrame) : Sound s { s with ctl := { s.ctl with openFrame := o } } :=
    Keeps.sound (.of_vitals (by rfl))
  repeat' split
  · exact .refl s
  · exact opened _
  · exact .refl s
  · exact (opened _).trans (takeLine_sound _ _)
  · exact opened _

theorem uartFrame_sound (b : Byte) (s : State) : Sound s (uartFrame b s) := by
  unfold uartFrame
  repeat' split
  · exact .refl s
  · exact uartByte_sound _ _
  · exact .refl s

theorem uartGap_steady (s : State) : Steady s (uartGap s) := by
  unfold uartGap
  split
  · exact (answerDamaged_steady _).after rfl
  · exact .refl s

theorem uartSent_sound (s : State) : Sound s (uartSent s) := by
  unfold uartSent
  repeat' split
  · exact .refl s
  · exact (deliver_sound _ _).on (endLine_sound _ s)
  · exact .refl s

/-! ### Timers -/

theorem answerTimeout_steady (t : Byte) (s : State) : Steady s (answerTimeout t s) := by
  unfold answerTimeout
  repeat' split
  all_goals first | exact .refl s | exact endOp_steady _ _ _ _

theorem goTimeout_steady (t : Byte) (s : State) : Steady s (goTimeout t s) := by
  unfold goTimeout
  repeat' split
  all_goals first | exact .refl s | exact endOp_steady _ _ _ _

theorem retryExpired_steady (s : State) : Steady s (retryExpired s) := by
  unfold retryExpired
  simp only
  split
  · refine (pushSnapReq_steady s).trans ?_
    exact .of_vitals rfl
  · exact .refl s

theorem panicRaw_steady (b : Bool) (s : State) : Steady s (panicRaw b s) := by
  unfold panicRaw
  simp only
  repeat' split
  · exact .of_vitals rfl
  · exact .of_vitals rfl
  · exact (setPanic_steady _ _).after rfl
  · exact .of_vitals rfl

theorem panicSettled_steady (s : State) : Steady s (panicSettled s) := by
  unfold panicSettled
  split
  · exact setPanic_steady _ _
  · exact .refl s

theorem fadeOutEnds_steady (i : Nat) (s : State) : Steady s (fadeOutEnds i s) :=
  .ite (mapOuts_steady fun _ _ _ h => endFadeOut_clean _ _ h) (.refl s)
theorem fadeInEnds_steady (i : Nat) (s : State) : Steady s (fadeInEnds i s) :=
  .ite (mapOuts_steady fun _ _ _ h => endFadeIn_clean _ _ h) (.refl s)
theorem holdEnds_steady (i : Nat) (s : State) : Steady s (holdEnds i s) :=
  modifyOut_steady fun _ h => endHold_clean _ _ h
theorem allFadesEnd_steady (s : State) : Steady s (allFadesEnd s) :=
  mapOuts_steady fun _ _ _ h => endFadeIn_clean _ _ (endFadeOut_clean _ _ h)
theorem allHoldsEnd_steady (s : State) : Steady s (allHoldsEnd s) :=
  mapOuts_steady fun _ _ _ h => endHold_clean _ _ h

/-! ### The frame period -/

theorem missingAt_steady (p : PortId) (k : Nat) (s : State) : Steady s (missingAt p k s) :=
  .ite (missingFrame_steady _ _) (.refl s)

theorem countTimeout_steady (s : State) : Steady s (countTimeout s) := by
  unfold countTimeout
  simp only
  repeat' split
  · exact (originLost_steady _).after rfl
  · exact .of_vitals rfl
  · exact .refl s

theorem countAlone_steady (s : State) : Steady s (countAlone s) := by
  unfold countAlone
  split
  · exact .refl s
  · exact (snapshotStart_steady _).on ((applyDue_steady _).on (setCount_steady _ _))

theorem healsDue_steady (s : State) : Steady s (healsDue s) :=
  .foldl (fun _ _ => healExpired_steady _ _ _) _ _

theorem mutesDue_steady (s : State) : Steady s (mutesDue s) := .foldl (fun _ _ => endMute_steady _ _) _ _

theorem opsDue_steady (s : State) : Steady s (opsDue s) := by
  unfold opsDue
  refine .foldl (fun a o => ?_) _ _
  split
  · exact (goTimeout_steady _ _).on (answerTimeout_steady _ _)
  · exact .refl a

theorem dueEvents_keeps : ∀ f ∈ dueEvents, ∀ s, Keeps s (f s) := by
  intro f hf s
  simp only [dueEvents, List.mem_cons, List.not_mem_nil, or_false] at hf
  rcases hf with h | h | h | h | h | h | h | h | h | h | h | h | h | h | h | h | h | h | h | h | h | h | h |
    h | h | h | h <;> rw [h]
  · exact (missingAt_steady _ _ _).toKeeps
  · exact (missingAt_steady _ _ _).toKeeps
  · exact (missingAt_steady _ _ _).toKeeps
  · exact (missingAt_steady _ _ _).toKeeps
  · exact (settleExpired_steady _ _).toKeeps
  · exact (settleExpired_steady _ _).toKeeps
  · exact (offerExpired_steady _ _).toKeeps
  · exact (offerExpired_steady _ _).toKeeps
  · exact (relockExpired_steady _ _).toKeeps
  · exact (relockExpired_steady _ _).toKeeps
  · exact (windowEnded_steady _ _).toKeeps
  · exact (windowEnded_steady _ _).toKeeps
  · exact (drillExpired_steady _ _).toKeeps
  · exact (drillExpired_steady _ _).toKeeps
  · exact (countTimeout_steady _).toKeeps
  · exact takeoverExpired_keeps _
  · exact (retryExpired_steady _).toKeeps
  · exact (healsDue_steady _).toKeeps
  · exact (mutesDue_steady _).toKeeps
  · exact (Steady.foldl (fun _ _ => keySettled_steady _ _) _ _).toKeeps
  · exact (Steady.foldl (fun _ _ => answerExpired_steady _ _) _ _).toKeeps
  · exact (panicSettled_steady _).toKeeps
  · exact (allFadesEnd_steady _).toKeeps
  · exact (allHoldsEnd_steady _).toKeeps
  · exact (silenceExpired_steady _).toKeeps
  · exact (opsDue_steady _).toKeeps
  · exact (uartGap_steady _).toKeeps

theorem runEvents_keeps (l : List (State → State)) (h : ∀ f ∈ l, ∀ s, Keeps s (f s)) (s : State) :
    Keeps s (runEvents l s) := by
  unfold runEvents
  induction l generalizing s with
  | nil => exact .refl s
  | cons f l ih =>
    exact (event_keeps (h f (by simp) s)).trans (ih (fun g hg => h g (by simp [hg])) (event f s))

theorem closePeriod_keeps (s : State) : Keeps s (closePeriod s) := by
  unfold closePeriod
  refine (runEvents_keeps _ dueEvents_keeps s).trans ?_
  exact ((sendRecord_steady _).on (laneFrame_steady _)).toKeeps.on (event_keeps (countAlone_steady _).toKeeps)

/-- Time passes: no timer's run takes an output's hold away, and no place fills. -/
theorem tickAll_steady (d : Nat) (s : State) : Steady s (tickAll d s) := by
  refine ⟨⟨?_, ?_, fun k => ⟨k.1, k.2⟩, fun k => (wrapsInOrder_iff _).2 ((wrapsInOrder_iff s).1 k), rfl, rfl,
    List.prefix_refl _⟩, rfl, .refl _⟩
  · intro k r hr
    simp only [tickAll, List.mem_map] at hr
    obtain ⟨q, hq, rfl⟩ := hr
    refine ⟨(k q hq).1, fun h => (k q hq).2 ?_⟩
    cases hh : q.hold <;> simp_all [tickOut, tick]
  · exact fun k => ⟨k.1, k.2, k.3, by simpa [tickAll] using k.4, k.5⟩

theorem takePins_sound (inp : PeriodInput) (s : State) : Sound s (takePins inp s) := by
  unfold takePins
  exact .of_vitals rfl rfl

theorem clearMarks_steady (s : State) : Steady s (clearMarks s) := by
  unfold clearMarks
  exact .of_vitals rfl

theorem takeLanes_steady (l : List Sample) (s : State) : Steady s (takeLanes l s) := .of_vitals rfl

theorem fadesMove_steady (s : State) : Steady s (fadesMove s) :=
  mapOuts_steady fun _ _ _ h => h.of_eq rfl rfl rfl

theorem originateOnce_keeps (now : Nanos) (s : State) : Keeps s (originateOnce now s) := by
  unfold originateOnce
  repeat' split
  · exact .of_vitals rfl
  · exact originate_keeps _ _
  · exact .refl s

theorem openPeriod_sound (inp : PeriodInput) (s : State) : Sound s (openPeriod inp s) := by
  unfold openPeriod
  simp only
  refine (takePins_sound inp s).trans (Keeps.sound ?_)
  generalize takePins inp s = a
  refine ((tickAll_steady (frameTicks s.start.rate) a).trans (clearMarks_steady _)).toKeeps.trans ?_
  generalize clearMarks (tickAll (frameTicks s.start.rate) a) = b
  exact (((takeLanes_steady _ b).trans (periodSamples_steady _)).trans
    (fadesMove_steady _)).toKeeps.trans (event_keeps (originateOnce_keeps _ _))

theorem framePeriod_sound (inp : PeriodInput) (s : State) : Sound s (framePeriod inp s) := by
  unfold framePeriod
  simp only
  have base := (closePeriod_keeps s).sound.trans (openPeriod_sound inp _)
  generalize openPeriod inp (closePeriod s) = u at base ⊢
  exact base.trans ((transmit_steady _ u .a).trans (transmit_steady _ _ .b)).toKeeps.sound

/-! ### The remaining rows -/

theorem onlyIf_keeps (c : State → State → Bool) (f : State → State) (s : State) (h : Keeps s (f s)) :
    Keeps s (onlyIf c f s) := .ite h (.refl s)

theorem badFrameAt_steady (p : PortId) (s : State) : Steady s (badFrameAt p s) :=
  (missingFrame_steady _ _).on (setPort_steady _ _ _ rfl rfl)

theorem reachTimeout_steady (s : State) : Steady s (reachTimeout s) := by
  unfold reachTimeout
  split
  · exact (originLost_steady _).after rfl
  · exact .refl s

theorem dropAssessed_steady (s : State) : Steady s (dropAssessed s) :=
  .ite (.ite ((dropSpent_steady _).on (dropStale_steady s)) (.refl s)) (.refl s)

theorem applyReached_steady (n : NodeId) (s : State) : Steady s (applyReached n s) := by
  unfold applyReached
  repeat' split
  all_goals first | exact .refl s | exact applyPending_steady _ _

theorem originateEarly_keeps (n : Nanos) (s : State) : Keeps s (originateEarly n s) := by
  unfold originateEarly
  simp only
  refine (originate_keeps n s).trans ?_
  exact .of_vitals rfl

end Sys2Proof.Machine
end

