-- ==== Sys2Proof/Laws/Settled.lean ====
section
/-! SUPPORT. Closing an event leaves everything derived as the state gives it, and what comes after it
leaves it so. -/

namespace Sys2Proof.Machine

open Sys2Proof

/-! ### What a change of causes leaves -/

@[simp] theorem causes_becomeSafe (c : OutCtx) (r : OutRec) : (becomeSafe c r).causes = r.causes := by
  unfold becomeSafe beginResume enterFadeIn
  repeat' split
  all_goals rfl

@[simp] theorem causes_enterFadeOut (c : OutCtx) (n : Nat) (r : OutRec) :
    (enterFadeOut c n r).causes = r.causes := by
  unfold enterFadeOut
  split
  · simp
  · rfl

@[simp] theorem causes_beginResume (c : OutCtx) (r : OutRec) : (beginResume c r).causes = r.causes := by
  unfold beginResume enterFadeIn
  repeat' split
  all_goals rfl

/-- The set an output takes is the set given (R147). -/
@[simp] theorem causes_onCauses (c : OutCtx) (set : CauseSet) (r : OutRec) :
    (onCauses c set r).causes = set := by
  unfold onCauses
  simp only
  repeat' split
  all_goals simp

/-! ### Settled states -/

theorem rejudge_taps (s : State) : ∀ t ∈ (rejudge s).lanes.taps, t.valid = sourceValid (rejudge s) t.source := by
  intro t ht
  obtain ⟨q, _, rfl⟩ := List.mem_map.1 (show t ∈ s.lanes.taps.map
    fun t => { t with valid := sourceValid s t.source } from ht)
  rfl

theorem rejudge_talk (s : State) : (rejudge s).lanes.heldTalk =
    allBuses.map fun b => if heard (rejudge s) b then (rejudge s).lanes.heldTalk.getD (busIndex b) 0 else 0 := by
  have h (b : Bus) : heard (rejudge s) b = heard s b := rfl
  have k : (rejudge s).lanes.heldTalk =
    allBuses.map fun b => if heard s b then s.lanes.heldTalk.getD (busIndex b) 0 else 0 := rfl
  have g (b : Bus) : (rejudge s).lanes.heldTalk.getD (busIndex b) 0 =
      if heard s b then s.lanes.heldTalk.getD (busIndex b) 0 else 0 := by
    rw [k]; cases b <;> rfl
  simp only [h, g]
  rw [k]
  simp only [allBuses, List.map_cons, List.map_nil]
  congr 1
  · split <;> rfl
  · congr 1
    · split <;> rfl
    · congr 1
      · split <;> rfl
      · congr 1
        split <;> rfl

theorem rejudge_causes (s : State) (i : Nat) (r : OutRec) (h : (rejudge s).safety.outs[i]? = some r) :
    r.causes.orphan = orphanMode (loopMode (rejudge s)) ∧
      r.causes.sourceLost = ((tapAt (rejudge s) i).source != .unused && !(tapAt (rejudge s) i).valid) := by
  unfold rejudge syncCauses mapOuts at h
  simp only [List.getElem?_map, Option.map_eq_some_iff] at h
  obtain ⟨⟨q, j⟩, hq, rfl⟩ := h
  obtain ⟨_, _, rfl⟩ : ∃ a, s.safety.outs[i]? = some a ∧ j = i := by
    rw [List.getElem?_zipIdx] at hq
    simp only [Option.map_eq_some_iff, Prod.mk.injEq] at hq
    obtain ⟨a, ha, _, hj⟩ := hq
    exact ⟨a, ha, by omega⟩
  simp only [causes_onCauses, derivedCauses]
  exact ⟨rfl, rfl⟩

theorem retryCheck_retry (s : State) : (retryCheck s).slots.retry.isSome = retryCond (retryCheck s) := by
  unfold retryCheck
  split
  · rename_i h
    split
    · rename_i hr; rw [hr, h]; rfl
    · exact h.symm
  · rename_i h
    have : retryCond s = false := by simpa using h
    exact this.symm

/-- The parts of the state on which what is derived depends, the retry timer apart. -/
theorem Settled.of_parts {s t : State} (h : Settled s) (hl : t.lanes = s.lanes)
    (ho : t.safety.outs = s.safety.outs) (hv : ∀ src, sourceValid t src = sourceValid s src)
    (hh : ∀ b, heard t b = heard s b) (hm : loopMode t = loopMode s)
    (hr : t.slots.retry.isSome = retryCond t)
    (ht : t.loop.takeover.isSome = true → loopMode t = .orphan)
    (hc : modeLosesCopy t = true → t.isMaster = true ∨ t.slots.current = false) : Settled t := by
  obtain ⟨h1, h2, h3, _⟩ := h
  refine ⟨?_, ?_, ?_, hr, ht, hc⟩
  · rw [hl]; intro x hx; rw [hv]; exact h1 x hx
  · simp only [hl, hh]; exact h2
  · intro i r hi
    rw [ho] at hi
    rw [hm]
    unfold tapAt
    rw [hl]
    exact h3 i r hi

theorem loopMode_loseCurrency (s : State) : loopMode (loseCurrency s) = loopMode s := by
  unfold loseCurrency
  split <;> rfl

theorem loopMode_stopTakeover (s : State) : loopMode (stopTakeover s) = loopMode s := by
  unfold stopTakeover
  split <;> rfl

theorem modeCheck_mode (s : State) : loopMode (modeCheck s) = loopMode s := by
  unfold modeCheck
  rw [loopMode_stopTakeover]
  split
  · exact loopMode_loseCurrency s
  · rfl

theorem stopTakeover_takeover (s : State) (h : (stopTakeover s).loop.takeover.isSome = true) :
    loopMode (stopTakeover s) = .orphan := by
  rw [loopMode_stopTakeover]
  unfold stopTakeover at h
  split at h
  · assumption
  · cases h

theorem modeLosesCopy_eq {s t : State} (h : loopMode t = loopMode s) (r : t.loop.role = s.loop.role) :
    modeLosesCopy t = modeLosesCopy s := by
  unfold modeLosesCopy State.isOrigin
  rw [h, r]

theorem modeCheck_role (s : State) : (modeCheck s).loop.role = s.loop.role := by
  unfold modeCheck stopTakeover loseCurrency
  repeat' split
  all_goals rfl

theorem loseCurrency_current (s : State) :
    (loseCurrency s).isMaster = true ∨ (loseCurrency s).slots.current = false := by
  unfold loseCurrency
  split
  · rename_i k
    rcases Bool.or_eq_true_iff.1 k with k | k
    · exact .inl k
    · exact .inr (by simpa using k)
  · exact .inr rfl

theorem modeCheck_copy (s : State) (h : modeLosesCopy (modeCheck s) = true) :
    (modeCheck s).isMaster = true ∨ (modeCheck s).slots.current = false := by
  rw [modeLosesCopy_eq (modeCheck_mode s) (modeCheck_role s)] at h
  have key := loseCurrency_current s
  unfold modeCheck
  rw [if_pos h]
  unfold stopTakeover
  split
  · exact key
  · exact key

/-- Closing an event leaves everything derived as the state gives it (R63, R77, R92, R102, R104, R147). -/
theorem settle_settled (s : State) : Settled (settle s) := by
  unfold settle
  have h1 := rejudge_taps (modeCheck s)
  have h2 := rejudge_talk (modeCheck s)
  have h3 := rejudge_causes (modeCheck s)
  have h5 : (rejudge (modeCheck s)).loop.takeover.isSome = true → loopMode (rejudge (modeCheck s)) = .orphan :=
    stopTakeover_takeover _
  have h6 : modeLosesCopy (rejudge (modeCheck s)) = true →
      (rejudge (modeCheck s)).isMaster = true ∨ (rejudge (modeCheck s)).slots.current = false :=
    modeCheck_copy s
  generalize rejudge (modeCheck s) = a at h1 h2 h3 h5 h6 ⊢
  have hr := retryCheck_retry a
  revert hr
  unfold retryCheck
  repeat' split
  all_goals intro hr; exact ⟨h1, h2, h3, hr, h5, h6⟩

theorem notify_settled (n : Notice) {s : State} (h : Settled s) : Settled (notify n s) := by
  unfold notify
  split <;> exact ⟨h.1, h.2, h.3, h.4, h.5, h.6⟩

theorem reportOutputs_settled (l : List OutRec) {s : State} (h : Settled s) : Settled (reportOutputs l s) := by
  unfold reportOutputs
  generalize changedGroups l s.safety.outs = g
  induction g generalizing s with
  | nil => exact h
  | cons x g ih => exact ih (notify_settled _ h)

theorem event_settled (f : State → State) (s : State) : Settled (event f s) :=
  reportOutputs_settled _ (settle_settled _)

theorem pickUart_settled {s : State} (h : Settled s) : Settled (pickUart s) := by
  unfold pickUart
  split
  · exact ⟨h.1, h.2, h.3, h.4, h.5, h.6⟩
  · exact h

theorem pending_settled (l : List Instr) {s : State} (h : Settled s) : Settled { s with pending := l } :=
  ⟨h.1, h.2, h.3, h.4, h.5, h.6⟩

theorem transmit_settled (n : Nanos) (p : PortId) {s : State} (h : Settled s) : Settled (transmit n s p) := by
  unfold transmit
  simp only
  cases p <;> split <;> exact ⟨h.1, h.2, h.3, h.4, h.5, h.6⟩

/-- FRAME_PERIOD leaves everything derived as the state gives it. -/
theorem framePeriod_settled (inp : PeriodInput) (s : State) : Settled (framePeriod inp s) := by
  unfold framePeriod
  simp only
  generalize ho : openPeriod inp (closePeriod s) = u
  have : Settled u := by
    rw [← ho]
    unfold openPeriod
    simp only
    exact event_settled _ _
  exact transmit_settled _ _ (transmit_settled _ _ this)

end Sys2Proof.Machine
end

