-- ==== Sys2Proof/Laws/Outcomes.lean ====
section
/-! SUPPORT. The outcome of a command in terms of its effect: what closing an event adds to a state that is
settled, and the outcome of a request by what its judge answers. -/

namespace Sys2Proof.Machine

open Sys2Proof

/-! ### Closing an event adds nothing to a settled state -/

theorem onCauses_self (c : OutCtx) (r : OutRec) : onCauses c r.causes r = r := by
  unfold onCauses
  cases h : causesEmpty r.causes <;> simp

theorem rejudge_self {s : State} (h : Settled s) : rejudge s = s := by
  have ht : (s.lanes.taps.map fun t => { t with valid := sourceValid s t.source }) = s.lanes.taps := by
    conv_rhs => rw [← List.map_id s.lanes.taps]
    refine List.map_congr_left fun t m => ?_
    simp only [← h.taps t m, id]
  have hs : ({ s with lanes := { s.lanes with
      taps := s.lanes.taps.map fun t => { t with valid := sourceValid s t.source }
      heldTalk := allBuses.map fun b =>
        if heard s b then s.lanes.heldTalk.getD (busIndex b) 0 else 0 } } : State) = s := by
    rw [ht, ← h.talk]
  unfold rejudge
  simp only
  rw [hs]
  unfold syncCauses mapOuts
  have ho : (s.safety.outs.zipIdx.map fun (r, i) =>
      onCauses (outCtx s (tapAt s i)) (derivedCauses s (tapAt s i) r.causes) r) = s.safety.outs := by
    apply List.ext_getElem?
    intro i
    rw [List.getElem?_map, List.getElem?_zipIdx]
    cases hi : s.safety.outs[i]? with
    | none => rfl
    | some r =>
      simp only [Option.map_some, Nat.zero_add]
      have k := h.causes i r hi
      have : derivedCauses s (tapAt s i) r.causes = r.causes := by
        unfold derivedCauses
        rw [← k.1, ← k.2]
      rw [this, onCauses_self]
  simp only [ho]

theorem retryCheck_self {s : State} (h : s.slots.retry.isSome = retryCond s) : retryCheck s = s := by
  unfold retryCheck
  cases hr : s.slots.retry with
  | none =>
    rw [hr] at h
    rw [← h]
    simp only [Option.isSome_none, Bool.false_eq_true, if_false]
    rw [← hr]
  | some x =>
    rw [hr] at h
    rw [← h]
    simp

theorem loseCurrency_self {s : State} (h : s.isMaster = true ∨ s.slots.current = false) :
    loseCurrency s = s := by
  unfold loseCurrency
  rw [if_pos]
  rcases h with h | h <;> simp [h]

theorem stopTakeover_self {s : State} (h : s.loop.takeover.isSome = true → loopMode s = .orphan) :
    stopTakeover s = s := by
  unfold stopTakeover
  split
  · rfl
  · rename_i k
    have : s.loop.takeover = none := by
      cases hh : s.loop.takeover with
      | none => rfl
      | some x => exact absurd (h (by rw [hh]; rfl)) k
    rw [← this]

theorem modeCheck_self {s : State} (h : Settled s) : modeCheck s = s := by
  unfold modeCheck
  have : (if modeLosesCopy s then loseCurrency s else s) = s := by
    split
    · exact loseCurrency_self (h.copy ‹_›)
    · rfl
  rw [this, stopTakeover_self h.takeover]

theorem settle_self {s : State} (h : Settled s) : settle s = s := by
  unfold settle
  rw [modeCheck_self h, rejudge_self h, retryCheck_self h.retry]

theorem changedGroups_self (l : List OutRec) : changedGroups l l = [] := by
  unfold changedGroups
  have : (List.zip l l).zipIdx.filter (fun ((a, b), _) => outChanged a b) = [] := by
    rw [List.filter_eq_nil_iff]
    rintro ⟨⟨a, b⟩, i⟩ hm
    have h1 : (a, b) ∈ List.zip l l := by
      obtain ⟨_, _, h2⟩ := List.mem_zipIdx hm
      rw [h2]; exact List.getElem_mem _
    have h2 : a = b := by
      obtain ⟨j, hj⟩ := List.mem_iff_getElem?.1 h1
      obtain ⟨ha, hb⟩ := List.getElem?_zip_eq_some.1 hj
      exact Option.some.inj (ha.symm.trans hb)
    subst h2
    simp [outChanged]
  rw [this]; rfl

theorem reportOutputs_self {l : List OutRec} {s : State} (h : s.safety.outs = l) :
    reportOutputs l s = s := by
  unfold reportOutputs
  rw [h, changedGroups_self]
  rfl

/-! ### Notices -/

theorem Raised.refl (s : State) : Raised [] s s := by
  refine ⟨by simp, by simp⟩

/-- Notices raised one batch after another. -/
theorem Raised.trans {l k : List Notice} {s t u : State} (h : Raised l s t) (g : Raised k t u) :
    Raised (l ++ k) s u := by
  have hlen : t.ctl.notices.length =
      s.ctl.notices.length + min (Config.noticeMax - s.ctl.notices.length) l.length := by
    rw [h.notices, List.length_append, List.length_take]
  refine ⟨?_, ?_⟩
  · rw [g.notices, hlen, h.notices, List.append_assoc, List.take_append]
    congr 2
    congr 1
    omega
  · rw [g.lost, hlen, h.lost, List.length_append, Bool.or_assoc]
    congr 1
    rw [Bool.eq_iff_iff]
    simp only [Bool.or_eq_true, decide_eq_true_eq]
    omega

/-- States with the same notice queue and lost flag. -/
theorem Raised.of_eq {l : List Notice} {s t s' t' : State} (h : Raised l s t)
    (h1 : s'.ctl.notices = s.ctl.notices) (h2 : s'.ctl.lost = s.ctl.lost)
    (h3 : t'.ctl.notices = t.ctl.notices) (h4 : t'.ctl.lost = t.ctl.lost) : Raised l s' t' := by
  refine ⟨?_, ?_⟩
  · rw [h3, h1]; exact h.notices
  · rw [h4, h1, h2]; exact h.lost

theorem Raised.notify (n : Notice) (s : State) : Raised [n] s (notify n s) := by
  unfold Machine.notify
  split
  · rename_i h
    refine ⟨?_, ?_⟩
    · rw [List.take_of_length_le (by simp; omega)]
    · have : Config.noticeMax - s.ctl.notices.length ≠ 0 := by omega
      simp [this]
  · rename_i h
    have : Config.noticeMax - s.ctl.notices.length = 0 := by omega
    refine ⟨?_, ?_⟩ <;> simp [this]

/-- A notice raised in a state with the notice queue and lost flag of `s`. -/
theorem Raised.notify_of (n : Notice) {s u : State} (h1 : u.ctl.notices = s.ctl.notices)
    (h2 : u.ctl.lost = s.ctl.lost) : Raised [n] s (Machine.notify n u) :=
  (Raised.notify n u).of_eq h1.symm h2.symm rfl rfl

theorem reportOutputs_raised (o : List OutRec) (s : State) :
    Raised (outputNotices o s.safety.outs) s (reportOutputs o s) := by
  unfold reportOutputs outputNotices
  generalize changedGroups o s.safety.outs = g
  induction g generalizing s with
  | nil => exact .refl s
  | cons x g ih => exact (Raised.notify _ s).trans (ih _)

theorem notify_eq (n : Notice) (s : State) : ∃ l b d, notify n s =
    { s with ctl := { s.ctl with notices := l, lost := b, discarded := d } } := by
  unfold notify
  split
  · exact ⟨_, s.ctl.lost, s.ctl.discarded, rfl⟩
  · exact ⟨s.ctl.notices, _, _, rfl⟩

theorem reportOutputs_eq (o : List OutRec) (s : State) : ∃ l b d, reportOutputs o s =
    { s with ctl := { s.ctl with notices := l, lost := b, discarded := d } } := by
  unfold reportOutputs
  generalize changedGroups o s.safety.outs = g
  induction g generalizing s with
  | nil => exact ⟨s.ctl.notices, s.ctl.lost, s.ctl.discarded, rfl⟩
  | cons x g ih =>
    obtain ⟨l, b, d, h⟩ := notify_eq (.outputChange x.1 x.2.state (reportedCause x.2.causes) x.2.causes
      x.2.stage) s
    obtain ⟨l2, b2, d2, h2⟩ := ih (notify (.outputChange x.1 x.2.state (reportedCause x.2.causes) x.2.causes
      x.2.stage) s)
    refine ⟨l2, b2, d2, ?_⟩
    rw [List.foldl_cons, h2, h]

/-! ### The outcome of an event -/

theorem SameBlocks.refl (s : State) : SameBlocks s s :=
  ⟨rfl, rfl, rfl, rfl, rfl, rfl, rfl, rfl, rfl, rfl, rfl, rfl, rfl, rfl, rfl, rfl, rfl, rfl, rfl⟩

theorem SameBlocks.trans {s t u : State} (h : SameBlocks s t) (k : SameBlocks t u) : SameBlocks s u :=
  ⟨k.1.trans h.1, k.2.trans h.2, k.3.trans h.3, k.4.trans h.4, k.5.trans h.5, k.6.trans h.6,
    k.7.trans h.7, k.8.trans h.8, k.9.trans h.9, k.10.trans h.10, k.11.trans h.11, k.12.trans h.12,
    k.13.trans h.13, k.14.trans h.14, k.15.trans h.15, k.16.trans h.16, k.17.trans h.17, k.18.trans h.18,
    k.19.trans h.19⟩

theorem pickUart_eq (s : State) : ∃ c d, pickUart s =
    { s with ctl := { s.ctl with chosen := c, discarded := d } } ∧ (s.start.line = .spi → c = s.ctl.chosen) := by
  unfold pickUart choose
  split
  · rename_i h
    refine ⟨_, _, rfl, fun k => ?_⟩
    rw [k] at h
    cases h
  · exact ⟨s.ctl.chosen, s.ctl.discarded, rfl, fun _ => rfl⟩

theorem settle_ctl (s : State) (c : ControlRec) : settle { s with ctl := c } = { settle s with ctl := c } := by
  have m (a : State) : modeCheck { a with ctl := c } = { modeCheck a with ctl := c } := by
    unfold modeCheck stopTakeover loseCurrency
    have h1 : modeLosesCopy { a with ctl := c } = modeLosesCopy a := rfl
    have h2 : State.isMaster { a with ctl := c } = a.isMaster := rfl
    rw [h1, h2]
    by_cases h : modeLosesCopy a = true
    · rw [if_pos h, if_pos h]
      by_cases k : (a.isMaster || !a.slots.current) = true
      · rw [if_pos k, if_pos k]
        by_cases o : loopMode a = .orphan
        · rw [if_pos (show loopMode { a with ctl := c } = .orphan from o), if_pos o]
        · rw [if_neg (show ¬ loopMode { a with ctl := c } = .orphan from o), if_neg o]
      · rw [if_neg k, if_neg k]
        by_cases o : loopMode (clearCache { a with slots := { a.slots with current := false } }) = .orphan
        · rw [if_pos o]; exact if_pos o
        · rw [if_neg o]; exact if_neg o
    · rw [if_neg h, if_neg h]
      by_cases o : loopMode a = .orphan
      · rw [if_pos (show loopMode { a with ctl := c } = .orphan from o), if_pos o]
      · rw [if_neg (show ¬ loopMode { a with ctl := c } = .orphan from o), if_neg o]
  have r (a : State) : rejudge { a with ctl := c } = { rejudge a with ctl := c } := rfl
  have k (a : State) : retryCheck { a with ctl := c } = { retryCheck a with ctl := c } := by
    unfold retryCheck
    have : retryCond { a with ctl := c } = retryCond a := rfl
    rw [this]
    by_cases h : retryCond a = true
    · rw [if_pos h, if_pos h]
      cases a.slots.retry <;> rfl
    · rw [if_neg h, if_neg h]
  unfold settle
  rw [m, r, k]

@[simp] theorem settle_inbox (s : State) : (settle s).ctl = s.ctl := by
  have := settle_ctl s s.ctl
  exact congrArg (·.ctl) this

theorem settle_start (s : State) : (settle s).start = s.start := (settle_steady s).start

/-- The outcome of an event whose effect gives `u`: every block stands as in `u` settled. -/
theorem event_happened {f : State → State} {s u : State} {l : List Notice} (h : s.inReset = false)
    (hf : f s = u) (hl : Raised l s u) (hi : u.ctl.inbox = s.ctl.inbox) (hm : u.ctl.made = s.ctl.made)
    (hc : u.ctl.chosen = s.ctl.chosen) (hs : u.start.line = s.start.line) :
    ∃ t, done f s = .next t ∧ Happened l s (settle u) t := by
  rw [done_eq, h]
  simp only [Bool.false_eq_true, if_false]
  unfold event
  rw [hf]
  have hr := reportOutputs_raised s.safety.outs (settle u)
  obtain ⟨a, b, d, h1⟩ := reportOutputs_eq s.safety.outs (settle u)
  rw [h1] at hr ⊢
  obtain ⟨c, e, h2, h3⟩ := pickUart_eq { settle u with
    ctl := { (settle u).ctl with notices := a, lost := b, discarded := d } }
  rw [h2]
  refine ⟨_, rfl, ?_, ⟨rfl, rfl, rfl, rfl, rfl, rfl, rfl, rfl, rfl, rfl, rfl, rfl, rfl, rfl, rfl, rfl, rfl,
    rfl, rfl⟩, ?_, ?_, ?_, rfl⟩
  · exact (hl.trans (hr.of_eq (by rw [settle_inbox]) (by rw [settle_inbox]) rfl rfl)).of_eq rfl rfl rfl rfl
  · simpa using hi
  · simpa using hm
  · intro k
    have := h3 (by rw [← k, ← hs]; exact congrArg StartRec.line (settle_start u))
    simpa [hc] using this

/-- The same, where what the effect gives is settled. -/
theorem event_happened_settled {f : State → State} {s u : State} {l : List Notice} (h : s.inReset = false)
    (hf : f s = u) (hu : Settled u) (hl : Raised l s u) (hi : u.ctl.inbox = s.ctl.inbox)
    (hm : u.ctl.made = s.ctl.made) (hc : u.ctl.chosen = s.ctl.chosen) (hs : u.start.line = s.start.line) :
    ∃ t, done f s = .next t ∧ Happened l s u t := by
  have := event_happened h hf hl hi hm hc hs
  rwa [settle_self hu] at this

/-! ### The outcome of a request -/

/-- Taking a request leaves the Control Port beside its notices, and the start record, as they stood. -/
theorem goodRequest_ctl (s : State) : ∃ l b d, (goodRequest s).ctl =
    { s.ctl with notices := l, lost := b, discarded := d } := by
  unfold goodRequest
  simp only
  split
  · unfold onSilenceClear
    rw [ctl_mapOuts]
    obtain ⟨l, b, d, h⟩ := notify_eq (.hostReturn s.supervision.since s.supervision.span s.loop.count)
      { s with supervision := { s.supervision with
        timer := silenceTimer s.supervision.periodMs, silent := false, since := none } }
    rw [h]
    exact ⟨l, b, d, rfl⟩
  · exact ⟨s.ctl.notices, s.ctl.lost, s.ctl.discarded, rfl⟩

theorem goodRequest_inbox (s : State) : (goodRequest s).ctl.inbox = s.ctl.inbox := by
  obtain ⟨_, _, _, h⟩ := goodRequest_ctl s; rw [h]
theorem goodRequest_made (s : State) : (goodRequest s).ctl.made = s.ctl.made := by
  obtain ⟨_, _, _, h⟩ := goodRequest_ctl s; rw [h]
theorem goodRequest_chosen (s : State) : (goodRequest s).ctl.chosen = s.ctl.chosen := by
  obtain ⟨_, _, _, h⟩ := goodRequest_ctl s; rw [h]
theorem goodRequest_ops (s : State) : (goodRequest s).ctl.ops = s.ctl.ops := by
  obtain ⟨_, _, _, h⟩ := goodRequest_ctl s; rw [h]

/-- A taken request whose judge answers `r` and gives `u`: the reply joins the inbox, and every block stands
as in `u` settled. -/
theorem request_answered {tag : Byte} {judge : State → Judged} {s u : State} {r : Reply} {l : List Notice}
    (h : Taken s) (hj : judge (goodRequest s) = (some r, u)) (hl : Raised l (goodRequest s) u)
    (hc : u.ctl.chosen = s.ctl.chosen) (hs : u.start.line = s.start.line) :
    ∃ t, done (takeRequest tag judge) s = .next t ∧ Answered tag r l s (settle u) t := by
  have he : takeRequest tag judge s = inboxReply tag r (goodRequest s) u := by
    rw [takeRequest_eq, if_neg (by rw [goodRequest_inbox]; have := h.room; omega), hj]
  have hset : settle (inboxReply tag r (goodRequest s) u) =
      inboxReply tag r (goodRequest s) (settle u) := by
    have : (settle u).ctl = u.ctl := settle_inbox u
    unfold inboxReply
    rw [settle_ctl, this]
  rw [done_eq, h.running]
  simp only [Bool.false_eq_true, if_false]
  unfold event
  rw [he, hset]
  have hr := reportOutputs_raised s.safety.outs (inboxReply tag r (goodRequest s) (settle u))
  obtain ⟨a, b, d, h1⟩ := reportOutputs_eq s.safety.outs (inboxReply tag r (goodRequest s) (settle u))
  rw [h1] at hr ⊢
  obtain ⟨c, e, h2, h3⟩ := pickUart_eq { inboxReply tag r (goodRequest s) (settle u) with
    ctl := { (inboxReply tag r (goodRequest s) (settle u)).ctl with notices := a, lost := b, discarded := d } }
  rw [h2]
  refine ⟨_, rfl, ⟨?_, ?_⟩, ?_, ⟨rfl, rfl, rfl, rfl, rfl, rfl, rfl, rfl, rfl, rfl, rfl, rfl, rfl, rfl, rfl, rfl,
    rfl, rfl, rfl⟩, ?_, rfl⟩
  · simp only [inboxReply, goodRequest_inbox, goodRequest_made]
  · simp only [inboxReply, goodRequest_made]
  · exact (hl.trans (hr.of_eq (by simp [inboxReply]) (by simp [inboxReply]) rfl rfl)).of_eq rfl rfl rfl rfl
  · intro k
    have := h3 (by rw [← k, ← hs]; exact congrArg StartRec.line (settle_start u))
    simpa [inboxReply, hc] using this

/-- The same, where what the judge gave is settled. -/
theorem request_settled {tag : Byte} {judge : State → Judged} {s u : State} {r : Reply} {l : List Notice}
    (h : Taken s) (hj : judge (goodRequest s) = (some r, u)) (hu : Settled u)
    (hl : Raised l (goodRequest s) u) (hc : u.ctl.chosen = s.ctl.chosen) (hs : u.start.line = s.start.line) :
    ∃ t, done (takeRequest tag judge) s = .next t ∧ Answered tag r l s u t := by
  have := request_answered (tag := tag) h hj hl hc hs
  rwa [settle_self hu] at this

/-- A change of output records that leaves their causes alone. -/
theorem mapOuts_settled {f : Nat → Tap → OutRec → OutRec} {s : State}
    (hf : ∀ i t r, (f i t r).causes = r.causes) (h : Settled s) : Settled (mapOuts f s) := by
  refine ⟨h.1, h.2, fun i r hi => ?_, h.4, h.5, h.6⟩
  unfold mapOuts at hi
  simp only [List.getElem?_map, List.getElem?_zipIdx, Option.map_map, Option.map_eq_some_iff,
    Function.comp_apply, Nat.zero_add] at hi
  obtain ⟨q, hq, rfl⟩ := hi
  rw [hf]
  exact h.causes i q hq

/-- Taking a request leaves a settled state settled (R170: only resume holds end). -/
theorem goodRequest_settled {s : State} (h : Settled s) : Settled (goodRequest s) := by
  have timer (r : SuperRec) {a : State} (k : Settled a) : Settled { a with supervision := r } :=
    ⟨k.1, k.2, k.3, k.4, k.5, k.6⟩
  unfold goodRequest
  simp only
  split
  · refine mapOuts_settled (fun _ _ r => ?_) (notify_settled _ (timer _ h))
    split <;> rfl
  · exact timer _ h

end Sys2Proof.Machine
end

