-- ==== Sys2Proof/Laws/Commands.lean ====
section
/-! SUPPORT. The shape of a command's outcome: a command that takes nothing while a reset is held is one event,
and every command answers a next state with the queue as it stood. -/

namespace Sys2Proof.Machine

open Sys2Proof

/-- A command other than a reset, a release, FRAME_PERIOD and the two inputs is one event (R171). -/
theorem exec_done : ∀ c, actsInReset c = false → ∃ f, ∀ s, exec c s = done f s
  | .status _, _ => ⟨_, fun _ => rfl⟩
  | .readTable _ _ _, _ => ⟨_, fun _ => rfl⟩
  | .readPort _ _, _ => ⟨_, fun _ => rfl⟩
  | .setNode _ _ _ _, _ => ⟨_, fun _ => rfl⟩
  | .setRate _ _, _ => ⟨_, fun _ => rfl⟩
  | .setLoopName _ _, _ => ⟨_, fun _ => rfl⟩
  | .go _, _ => ⟨_, fun _ => rfl⟩
  | .resetPart _, _ => ⟨_, fun _ => rfl⟩
  | .setThresholds _ _ _, _ => ⟨_, fun _ => rfl⟩
  | .drill _ _ _, _ => ⟨_, fun _ => rfl⟩
  | .setRecovery _ _, _ => ⟨_, fun _ => rfl⟩
  | .setSwitchLead _ _, _ => ⟨_, fun _ => rfl⟩
  | .heal _ _, _ => ⟨_, fun _ => rfl⟩
  | .loopReset _, _ => ⟨_, fun _ => rfl⟩
  | .claimSlot _ _, _ => ⟨_, fun _ => rfl⟩
  | .releaseSlot _ _ _, _ => ⟨_, fun _ => rfl⟩
  | .setTap _ _ _, _ => ⟨_, fun _ => rfl⟩
  | .setTrackRef _ _ _, _ => ⟨_, fun _ => rfl⟩
  | .setGain _ _ _ _ _, _ => ⟨_, fun _ => rfl⟩
  | .claimGain _ _ _ _, _ => ⟨_, fun _ => rfl⟩
  | .yieldGain _ _ _, _ => ⟨_, fun _ => rfl⟩
  | .setPhantomMute _ _, _ => ⟨_, fun _ => rfl⟩
  | .setKey _ _ _, _ => ⟨_, fun _ => rfl⟩
  | .talkPress _ _, _ => ⟨_, fun _ => rfl⟩
  | .talkLift _ _, _ => ⟨_, fun _ => rfl⟩
  | .resume _ _, _ => ⟨_, fun _ => rfl⟩
  | .forceSafe _ _ _, _ => ⟨_, fun _ => rfl⟩
  | .setSafety _ _ _, _ => ⟨_, fun _ => rfl⟩
  | .setLock _ _, _ => ⟨_, fun _ => rfl⟩
  | .setSupervision _ _, _ => ⟨_, fun _ => rfl⟩
  | .unknownRequest _ _, _ => ⟨_, fun _ => rfl⟩
  | .spiSelectFall, _ => ⟨_, fun _ => rfl⟩
  | .spiTransactionEnd _, _ => ⟨_, fun _ => rfl⟩
  | .uartFrameReceive _, _ => ⟨_, fun _ => rfl⟩
  | .uartGapTimeout, _ => ⟨_, fun _ => rfl⟩
  | .uartFrameSent, _ => ⟨_, fun _ => rfl⟩
  | .powerReset, h => nomatch h
  | .powerResetRelease _ _, h => nomatch h
  | .pinReset, h => nomatch h
  | .pinResetRelease _, h => nomatch h
  | .framePeriod _, h => nomatch h
  | .preampRecordSend, _ => ⟨_, fun _ => rfl⟩
  | .lightMeasurement _ _, _ => ⟨_, fun _ => rfl⟩
  | .portFrameReceive _ _, _ => ⟨_, fun _ => rfl⟩
  | .aligned _ _, _ => ⟨_, fun _ => rfl⟩
  | .alignLost _, _ => ⟨_, fun _ => rfl⟩
  | .joined _ _, _ => ⟨_, fun _ => rfl⟩
  | .remoteFaultSet _ _, _ => ⟨_, fun _ => rfl⟩
  | .marginalSet _, _ => ⟨_, fun _ => rfl⟩
  | .settleTimerExpiry _, _ => ⟨_, fun _ => rfl⟩
  | .offerTimerExpiry _, _ => ⟨_, fun _ => rfl⟩
  | .relockTimerExpiry _, _ => ⟨_, fun _ => rfl⟩
  | .errorWindowEnd _, _ => ⟨_, fun _ => rfl⟩
  | .drillTimerExpiry _, _ => ⟨_, fun _ => rfl⟩
  | .mapAbsenceLimit _ _, _ => ⟨_, fun _ => rfl⟩
  | .originTimeout, _ => ⟨_, fun _ => rfl⟩
  | .takeoverTimerExpiry, _ => ⟨_, fun _ => rfl⟩
  | .itemDrop, _ => ⟨_, fun _ => rfl⟩
  | .owedAdmit, _ => ⟨_, fun _ => rfl⟩
  | .snapshotStart, _ => ⟨_, fun _ => rfl⟩
  | .switchApply _, _ => ⟨_, fun _ => rfl⟩
  | .currencyRetryExpiry, _ => ⟨_, fun _ => rfl⟩
  | .phantomMuteExpiry _, _ => ⟨_, fun _ => rfl⟩
  | .healTimerExpiry _ _, _ => ⟨_, fun _ => rfl⟩
  | .restartWrite _, _ => ⟨_, fun _ => rfl⟩
  | .restartEpochTake _, _ => ⟨_, fun _ => rfl⟩
  | .keyInputChange _ _, h => nomatch h
  | .keySettleExpiry _, _ => ⟨_, fun _ => rfl⟩
  | .keyAnswerTimeout _, _ => ⟨_, fun _ => rfl⟩
  | .panicInputChange _, h => nomatch h
  | .panicFilterExpiry, _ => ⟨_, fun _ => rfl⟩
  | .fadeOutEnd _, _ => ⟨_, fun _ => rfl⟩
  | .fadeInEnd _, _ => ⟨_, fun _ => rfl⟩
  | .resumeHoldExpiry _, _ => ⟨_, fun _ => rfl⟩
  | .silenceTimerExpiry, _ => ⟨_, fun _ => rfl⟩
  | .operationAnswerTimeout _, _ => ⟨_, fun _ => rfl⟩
  | .goTimeout _, _ => ⟨_, fun _ => rfl⟩
  | .uartByteArrival _, _ => ⟨_, fun _ => rfl⟩

theorem exec_keyInputChange (k : Fin 8) (v : Bool) (s : State) :
    ∃ u, exec (.keyInputChange k v) s = finish s u := by
  show ∃ u, execKeyInputChange k v s = finish s u
  unfold execKeyInputChange
  split
  · exact ⟨_, rfl⟩
  · exact ⟨_, rfl⟩

theorem exec_panicInputChange (v : Bool) (s : State) : ∃ u, exec (.panicInputChange v) s = finish s u := by
  show ∃ u, execPanicInputChange v s = finish s u
  unfold execPanicInputChange
  split
  · exact ⟨_, rfl⟩
  · exact ⟨_, rfl⟩

/-- Every command answers a next state, with the queue as it stood. -/
theorem exec_finish : ∀ c s, ∃ u, exec c s = finish s u
  | .status _, _ => ⟨_, rfl⟩
  | .readTable _ _ _, _ => ⟨_, rfl⟩
  | .readPort _ _, _ => ⟨_, rfl⟩
  | .setNode _ _ _ _, _ => ⟨_, rfl⟩
  | .setRate _ _, _ => ⟨_, rfl⟩
  | .setLoopName _ _, _ => ⟨_, rfl⟩
  | .go _, _ => ⟨_, rfl⟩
  | .resetPart _, _ => ⟨_, rfl⟩
  | .setThresholds _ _ _, _ => ⟨_, rfl⟩
  | .drill _ _ _, _ => ⟨_, rfl⟩
  | .setRecovery _ _, _ => ⟨_, rfl⟩
  | .setSwitchLead _ _, _ => ⟨_, rfl⟩
  | .heal _ _, _ => ⟨_, rfl⟩
  | .loopReset _, _ => ⟨_, rfl⟩
  | .claimSlot _ _, _ => ⟨_, rfl⟩
  | .releaseSlot _ _ _, _ => ⟨_, rfl⟩
  | .setTap _ _ _, _ => ⟨_, rfl⟩
  | .setTrackRef _ _ _, _ => ⟨_, rfl⟩
  | .setGain _ _ _ _ _, _ => ⟨_, rfl⟩
  | .claimGain _ _ _ _, _ => ⟨_, rfl⟩
  | .yieldGain _ _ _, _ => ⟨_, rfl⟩
  | .setPhantomMute _ _, _ => ⟨_, rfl⟩
  | .setKey _ _ _, _ => ⟨_, rfl⟩
  | .talkPress _ _, _ => ⟨_, rfl⟩
  | .talkLift _ _, _ => ⟨_, rfl⟩
  | .resume _ _, _ => ⟨_, rfl⟩
  | .forceSafe _ _ _, _ => ⟨_, rfl⟩
  | .setSafety _ _ _, _ => ⟨_, rfl⟩
  | .setLock _ _, _ => ⟨_, rfl⟩
  | .setSupervision _ _, _ => ⟨_, rfl⟩
  | .unknownRequest _ _, _ => ⟨_, rfl⟩
  | .spiSelectFall, _ => ⟨_, rfl⟩
  | .spiTransactionEnd _, _ => ⟨_, rfl⟩
  | .uartFrameReceive _, _ => ⟨_, rfl⟩
  | .uartGapTimeout, _ => ⟨_, rfl⟩
  | .uartFrameSent, _ => ⟨_, rfl⟩
  | .powerReset, _ => ⟨_, rfl⟩
  | .powerResetRelease _ _, _ => ⟨_, rfl⟩
  | .pinReset, _ => ⟨_, rfl⟩
  | .pinResetRelease _, _ => ⟨_, rfl⟩
  | .framePeriod _, _ => ⟨_, rfl⟩
  | .preampRecordSend, _ => ⟨_, rfl⟩
  | .lightMeasurement _ _, _ => ⟨_, rfl⟩
  | .portFrameReceive _ _, _ => ⟨_, rfl⟩
  | .aligned _ _, _ => ⟨_, rfl⟩
  | .alignLost _, _ => ⟨_, rfl⟩
  | .joined _ _, _ => ⟨_, rfl⟩
  | .remoteFaultSet _ _, _ => ⟨_, rfl⟩
  | .marginalSet _, _ => ⟨_, rfl⟩
  | .settleTimerExpiry _, _ => ⟨_, rfl⟩
  | .offerTimerExpiry _, _ => ⟨_, rfl⟩
  | .relockTimerExpiry _, _ => ⟨_, rfl⟩
  | .errorWindowEnd _, _ => ⟨_, rfl⟩
  | .drillTimerExpiry _, _ => ⟨_, rfl⟩
  | .mapAbsenceLimit _ _, _ => ⟨_, rfl⟩
  | .originTimeout, _ => ⟨_, rfl⟩
  | .takeoverTimerExpiry, _ => ⟨_, rfl⟩
  | .itemDrop, _ => ⟨_, rfl⟩
  | .owedAdmit, _ => ⟨_, rfl⟩
  | .snapshotStart, _ => ⟨_, rfl⟩
  | .switchApply _, _ => ⟨_, rfl⟩
  | .currencyRetryExpiry, _ => ⟨_, rfl⟩
  | .phantomMuteExpiry _, _ => ⟨_, rfl⟩
  | .healTimerExpiry _ _, _ => ⟨_, rfl⟩
  | .restartWrite _, _ => ⟨_, rfl⟩
  | .restartEpochTake _, _ => ⟨_, rfl⟩
  | .keyInputChange k v, s => exec_keyInputChange k v s
  | .keySettleExpiry _, _ => ⟨_, rfl⟩
  | .keyAnswerTimeout _, _ => ⟨_, rfl⟩
  | .panicInputChange v, s => exec_panicInputChange v s
  | .panicFilterExpiry, _ => ⟨_, rfl⟩
  | .fadeOutEnd _, _ => ⟨_, rfl⟩
  | .fadeInEnd _, _ => ⟨_, rfl⟩
  | .resumeHoldExpiry _, _ => ⟨_, rfl⟩
  | .silenceTimerExpiry, _ => ⟨_, rfl⟩
  | .operationAnswerTimeout _, _ => ⟨_, rfl⟩
  | .goTimeout _, _ => ⟨_, rfl⟩
  | .uartByteArrival _, _ => ⟨_, rfl⟩

/-- A command that takes nothing while a reset is held has no effect then (R171). -/
theorem exec_inReset {c : Instr} {s : State} (h : actsInReset c = false) (r : s.inReset = true) :
    exec c s = .next s := by
  obtain ⟨f, hf⟩ := exec_done c h
  rw [hf, done_eq, r]
  simp only [if_true]
  have : pickUart s = s := by
    unfold pickUart
    rw [if_neg]
    simp [r]
  rw [this]

end Sys2Proof.Machine
end

