-- ==== Sys2Proof/Laws/Parts.lean ====
section
/-! SUPPORT. The blocks an operation does not touch, so that a proof about one block need not unfold what
happens in the others; and what a change of the loop record and an epoch change leave. -/

namespace Sys2Proof.Machine

open Sys2Proof

/-- A notice touches the Control Port only. -/
@[simp] theorem parts_notify (n : Notice) (s : State) :
    (notify n s).start = s.start ∧ (notify n s).portA = s.portA ∧ (notify n s).portB = s.portB ∧
      (notify n s).loop = s.loop ∧ (notify n s).queue = s.queue ∧ (notify n s).snap = s.snap ∧
      (notify n s).switches = s.switches ∧ (notify n s).slots = s.slots ∧ (notify n s).lanes = s.lanes ∧
      (notify n s).gain = s.gain ∧ (notify n s).talk = s.talk ∧ (notify n s).safety = s.safety ∧
      (notify n s).lock = s.lock ∧ (notify n s).supervision = s.supervision := by
  unfold notify
  repeat' split
  all_goals simp

/-- LOOP_CHANGE. -/
@[simp] theorem parts_notifyLoop (c : LoopCause) (s : State) :
    (notifyLoop c s).start = s.start ∧ (notifyLoop c s).portA = s.portA ∧ (notifyLoop c s).portB = s.portB ∧
      (notifyLoop c s).loop = s.loop ∧ (notifyLoop c s).queue = s.queue ∧ (notifyLoop c s).snap = s.snap ∧
      (notifyLoop c s).switches = s.switches ∧ (notifyLoop c s).slots = s.slots ∧
      (notifyLoop c s).lanes = s.lanes ∧ (notifyLoop c s).gain = s.gain ∧ (notifyLoop c s).talk = s.talk ∧
      (notifyLoop c s).safety = s.safety ∧ (notifyLoop c s).lock = s.lock ∧
      (notifyLoop c s).supervision = s.supervision := by
  simp [notifyLoop]

/-- The retry timer. -/
@[simp] theorem parts_retryCheck (s : State) :
    (retryCheck s).start = s.start ∧ (retryCheck s).portA = s.portA ∧ (retryCheck s).portB = s.portB ∧
      (retryCheck s).loop = s.loop ∧ (retryCheck s).queue = s.queue ∧ (retryCheck s).snap = s.snap ∧
      (retryCheck s).switches = s.switches ∧ (retryCheck s).lanes = s.lanes ∧ (retryCheck s).gain = s.gain ∧
      (retryCheck s).talk = s.talk ∧ (retryCheck s).safety = s.safety ∧ (retryCheck s).lock = s.lock ∧
      (retryCheck s).supervision = s.supervision ∧ (retryCheck s).ctl = s.ctl := by
  unfold retryCheck
  repeat' split
  all_goals simp

/-- Sources judged anew. -/
@[simp] theorem parts_rejudge (s : State) :
    (rejudge s).start = s.start ∧ (rejudge s).portA = s.portA ∧ (rejudge s).portB = s.portB ∧
      (rejudge s).loop = s.loop ∧ (rejudge s).queue = s.queue ∧ (rejudge s).snap = s.snap ∧
      (rejudge s).switches = s.switches ∧ (rejudge s).slots = s.slots ∧ (rejudge s).gain = s.gain ∧
      (rejudge s).talk = s.talk ∧ (rejudge s).lock = s.lock ∧ (rejudge s).supervision = s.supervision ∧
      (rejudge s).ctl = s.ctl := by
  exact ⟨rfl, rfl, rfl, rfl, rfl, rfl, rfl, rfl, rfl, rfl, rfl, rfl, rfl⟩

/-- The gain cache cleared. -/
@[simp] theorem parts_clearCache (s : State) :
    (clearCache s).start = s.start ∧ (clearCache s).portA = s.portA ∧ (clearCache s).portB = s.portB ∧
      (clearCache s).loop = s.loop ∧ (clearCache s).queue = s.queue ∧ (clearCache s).snap = s.snap ∧
      (clearCache s).switches = s.switches ∧ (clearCache s).slots = s.slots ∧ (clearCache s).gain = s.gain ∧
      (clearCache s).talk = s.talk ∧ (clearCache s).safety = s.safety ∧ (clearCache s).lock = s.lock ∧
      (clearCache s).supervision = s.supervision ∧ (clearCache s).ctl = s.ctl := by
  exact ⟨rfl, rfl, rfl, rfl, rfl, rfl, rfl, rfl, rfl, rfl, rfl, rfl, rfl, rfl⟩

/-- The copy stops being current. -/
@[simp] theorem parts_loseCurrency (s : State) :
    (loseCurrency s).start = s.start ∧ (loseCurrency s).portA = s.portA ∧ (loseCurrency s).portB = s.portB ∧
      (loseCurrency s).loop = s.loop ∧ (loseCurrency s).queue = s.queue ∧ (loseCurrency s).snap = s.snap ∧
      (loseCurrency s).switches = s.switches ∧ (loseCurrency s).gain = s.gain ∧
      (loseCurrency s).talk = s.talk ∧ (loseCurrency s).safety = s.safety ∧ (loseCurrency s).lock = s.lock ∧
      (loseCurrency s).supervision = s.supervision ∧ (loseCurrency s).ctl = s.ctl := by
  unfold loseCurrency
  repeat' split
  all_goals simp

/-- Pending plans dropped. -/
@[simp] theorem parts_dropPlans (m : LoopMode) (s : State) :
    (dropPlans m s).start = s.start ∧ (dropPlans m s).portA = s.portA ∧ (dropPlans m s).portB = s.portB ∧
      (dropPlans m s).loop = s.loop ∧ (dropPlans m s).queue = s.queue ∧ (dropPlans m s).snap = s.snap ∧
      (dropPlans m s).slots = s.slots ∧ (dropPlans m s).lanes = s.lanes ∧ (dropPlans m s).gain = s.gain ∧
      (dropPlans m s).talk = s.talk ∧ (dropPlans m s).safety = s.safety ∧ (dropPlans m s).lock = s.lock ∧
      (dropPlans m s).supervision = s.supervision ∧ (dropPlans m s).ctl = s.ctl := by
  unfold dropPlans
  repeat' split
  all_goals simp

/-- The takeover timer. -/
@[simp] theorem parts_takeoverCheck (m : LoopMode) (s : State) :
    (takeoverCheck m s).start = s.start ∧ (takeoverCheck m s).portA = s.portA ∧
      (takeoverCheck m s).portB = s.portB ∧ (takeoverCheck m s).queue = s.queue ∧
      (takeoverCheck m s).snap = s.snap ∧ (takeoverCheck m s).switches = s.switches ∧
      (takeoverCheck m s).slots = s.slots ∧ (takeoverCheck m s).lanes = s.lanes ∧
      (takeoverCheck m s).gain = s.gain ∧ (takeoverCheck m s).talk = s.talk ∧
      (takeoverCheck m s).safety = s.safety ∧ (takeoverCheck m s).lock = s.lock ∧
      (takeoverCheck m s).supervision = s.supervision ∧ (takeoverCheck m s).ctl = s.ctl := by
  unfold takeoverCheck
  repeat' split
  all_goals simp

/-- The takeover timer stopped. -/
@[simp] theorem parts_stopTakeover (s : State) :
    (stopTakeover s).start = s.start ∧ (stopTakeover s).portA = s.portA ∧ (stopTakeover s).portB = s.portB ∧
      (stopTakeover s).queue = s.queue ∧ (stopTakeover s).snap = s.snap ∧
      (stopTakeover s).switches = s.switches ∧ (stopTakeover s).slots = s.slots ∧
      (stopTakeover s).lanes = s.lanes ∧ (stopTakeover s).gain = s.gain ∧ (stopTakeover s).talk = s.talk ∧
      (stopTakeover s).safety = s.safety ∧ (stopTakeover s).lock = s.lock ∧
      (stopTakeover s).supervision = s.supervision ∧ (stopTakeover s).ctl = s.ctl := by
  unfold stopTakeover
  repeat' split
  all_goals simp

/-- What the mode rules out. -/
@[simp] theorem parts_modeCheck (s : State) :
    (modeCheck s).start = s.start ∧ (modeCheck s).portA = s.portA ∧ (modeCheck s).portB = s.portB ∧
      (modeCheck s).queue = s.queue ∧ (modeCheck s).snap = s.snap ∧ (modeCheck s).switches = s.switches ∧
      (modeCheck s).gain = s.gain ∧ (modeCheck s).talk = s.talk ∧ (modeCheck s).safety = s.safety ∧
      (modeCheck s).lock = s.lock ∧ (modeCheck s).supervision = s.supervision ∧
      (modeCheck s).ctl = s.ctl := by
  unfold modeCheck
  repeat' split
  all_goals simp

/-- An event closed. -/
@[simp] theorem parts_settle (s : State) :
    (settle s).start = s.start ∧ (settle s).portA = s.portA ∧ (settle s).portB = s.portB ∧
      (settle s).queue = s.queue ∧ (settle s).snap = s.snap ∧ (settle s).switches = s.switches ∧
      (settle s).gain = s.gain ∧ (settle s).talk = s.talk ∧ (settle s).lock = s.lock ∧
      (settle s).supervision = s.supervision ∧ (settle s).ctl = s.ctl := by
  simp [settle]

/-- The wrap frame of a drill. -/
@[simp] theorem parts_drillWrap (m : LoopMode) (s : State) (p : PortId) :
    (drillWrap m s p).start = s.start ∧ (drillWrap m s p).loop = s.loop ∧
      (drillWrap m s p).queue = s.queue ∧ (drillWrap m s p).snap = s.snap ∧
      (drillWrap m s p).switches = s.switches ∧ (drillWrap m s p).slots = s.slots ∧
      (drillWrap m s p).lanes = s.lanes ∧ (drillWrap m s p).gain = s.gain ∧
      (drillWrap m s p).talk = s.talk ∧ (drillWrap m s p).safety = s.safety ∧
      (drillWrap m s p).lock = s.lock ∧ (drillWrap m s p).supervision = s.supervision ∧
      (drillWrap m s p).ctl = s.ctl := by
  unfold drillWrap
  simp only
  repeat' split
  all_goals simp

/-- After a change of the loop record. -/
@[simp] theorem parts_afterLoop (c : LoopCause) (old s : State) :
    (afterLoop c old s).start = s.start ∧ (afterLoop c old s).queue = s.queue ∧
      (afterLoop c old s).snap = s.snap ∧ (afterLoop c old s).gain = s.gain ∧
      (afterLoop c old s).talk = s.talk ∧ (afterLoop c old s).lock = s.lock ∧
      (afterLoop c old s).supervision = s.supervision := by
  unfold afterLoop
  simp only
  split <;> split <;> simp

/-- The keys dropped. -/
@[simp] theorem parts_dropKeys (c : DropCause) (s : State) :
    (dropKeys c s).start = s.start ∧ (dropKeys c s).portA = s.portA ∧ (dropKeys c s).portB = s.portB ∧
      (dropKeys c s).loop = s.loop ∧ (dropKeys c s).queue = s.queue ∧ (dropKeys c s).snap = s.snap ∧
      (dropKeys c s).switches = s.switches ∧ (dropKeys c s).slots = s.slots ∧
      (dropKeys c s).lanes = s.lanes ∧ (dropKeys c s).gain = s.gain ∧ (dropKeys c s).safety = s.safety ∧
      (dropKeys c s).lock = s.lock ∧ (dropKeys c s).supervision = s.supervision := by
  simp [dropKeys]

/-- PANIC. -/
@[simp] theorem parts_setPanic (on : Bool) (s : State) :
    (setPanic on s).start = s.start ∧ (setPanic on s).portA = s.portA ∧ (setPanic on s).portB = s.portB ∧
      (setPanic on s).loop = s.loop ∧ (setPanic on s).queue = s.queue ∧ (setPanic on s).snap = s.snap ∧
      (setPanic on s).switches = s.switches ∧ (setPanic on s).slots = s.slots ∧
      (setPanic on s).lanes = s.lanes ∧ (setPanic on s).gain = s.gain ∧ (setPanic on s).talk = s.talk ∧
      (setPanic on s).lock = s.lock ∧ (setPanic on s).supervision = s.supervision ∧
      (setPanic on s).ctl = s.ctl := by
  exact ⟨rfl, rfl, rfl, rfl, rfl, rfl, rfl, rfl, rfl, rfl, rfl, rfl, rfl, rfl⟩

/-- An operation ends. -/
@[simp] theorem parts_endOp (t : Byte) (v : Verdict) (r : OpResult) (s : State) :
    (endOp t v r s).start = s.start ∧ (endOp t v r s).portA = s.portA ∧ (endOp t v r s).portB = s.portB ∧
      (endOp t v r s).loop = s.loop ∧ (endOp t v r s).queue = s.queue ∧ (endOp t v r s).snap = s.snap ∧
      (endOp t v r s).switches = s.switches ∧ (endOp t v r s).slots = s.slots ∧
      (endOp t v r s).lanes = s.lanes ∧ (endOp t v r s).gain = s.gain ∧ (endOp t v r s).talk = s.talk ∧
      (endOp t v r s).safety = s.safety ∧ (endOp t v r s).lock = s.lock ∧
      (endOp t v r s).supervision = s.supervision := by
  unfold endOp
  repeat' split
  all_goals simp

/-- An operation's entry is no longer its own. -/
@[simp] theorem parts_forgetEntry (t : Byte) (s : State) :
    (forgetEntry t s).start = s.start ∧ (forgetEntry t s).portA = s.portA ∧ (forgetEntry t s).portB = s.portB ∧
      (forgetEntry t s).loop = s.loop ∧ (forgetEntry t s).queue = s.queue ∧ (forgetEntry t s).snap = s.snap ∧
      (forgetEntry t s).slots = s.slots ∧ (forgetEntry t s).lanes = s.lanes ∧
      (forgetEntry t s).gain = s.gain ∧ (forgetEntry t s).talk = s.talk ∧
      (forgetEntry t s).safety = s.safety ∧ (forgetEntry t s).lock = s.lock ∧
      (forgetEntry t s).supervision = s.supervision ∧ (forgetEntry t s).ctl = s.ctl := by
  exact ⟨rfl, rfl, rfl, rfl, rfl, rfl, rfl, rfl, rfl, rfl, rfl, rfl, rfl, rfl⟩

/-- An operation's queued message is no longer its own. -/
@[simp] theorem parts_forgetItem (t : Byte) (s : State) :
    (forgetItem t s).start = s.start ∧ (forgetItem t s).portA = s.portA ∧ (forgetItem t s).portB = s.portB ∧
      (forgetItem t s).loop = s.loop ∧ (forgetItem t s).snap = s.snap ∧
      (forgetItem t s).switches = s.switches ∧ (forgetItem t s).slots = s.slots ∧
      (forgetItem t s).lanes = s.lanes ∧ (forgetItem t s).gain = s.gain ∧ (forgetItem t s).talk = s.talk ∧
      (forgetItem t s).safety = s.safety ∧ (forgetItem t s).lock = s.lock ∧
      (forgetItem t s).supervision = s.supervision ∧ (forgetItem t s).ctl = s.ctl := by
  exact ⟨rfl, rfl, rfl, rfl, rfl, rfl, rfl, rfl, rfl, rfl, rfl, rfl, rfl, rfl⟩

/-- A visited count tells of a visit until the local count leaves it behind (R2, R67). -/
theorem mem_ageVisits (c f : FrameNo) (s : State) :
    f ∈ ageVisits c s ↔ f ∈ s.loop.visits ∧ leftBehind s.loop.count c f = false := by
  simp [ageVisits]

/-- A count that is still reached is left behind by no step (R2). -/
theorem leftBehind_of_reached {old new f : FrameNo} (h : reached new f = true) : leftBehind old new f = false := by
  simp [leftBehind, h]

/-- A step of the count back to a frame before leaves no count behind (R2). -/
theorem leftBehind_of_back {old new f : FrameNo} (h : reached new old = false) : leftBehind old new f = false := by
  simp [leftBehind, h]

/-- The local frame count takes a value (R2, R17, R67): beside it only the outstanding mark and visited counts left
behind may go. -/
@[simp] theorem parts_setCount (c : FrameNo) (s : State) :
    (setCount c s).start = s.start ∧ (setCount c s).portA = s.portA ∧ (setCount c s).portB = s.portB ∧
      (setCount c s).loop = { s.loop with count := c, visits := ageVisits c s } ∧ (setCount c s).queue.items = s.queue.items ∧
      (setCount c s).snap = s.snap ∧ (setCount c s).switches = s.switches ∧
      (setCount c s).slots = s.slots ∧ (setCount c s).lanes = s.lanes ∧ (setCount c s).gain = s.gain ∧
      (setCount c s).talk = s.talk ∧ (setCount c s).safety = s.safety ∧ (setCount c s).lock = s.lock ∧
      (setCount c s).supervision = s.supervision ∧ (setCount c s).ctl = s.ctl := by
  unfold setCount endOutstanding
  repeat' split
  all_goals exact ⟨rfl, rfl, rfl, rfl, rfl, rfl, rfl, rfl, rfl, rfl, rfl, rfl, rfl, rfl, rfl⟩

/-- A lost operation. -/
@[simp] theorem parts_loseOp (o : Option Byte) (s : State) :
    (loseOp o s).start = s.start ∧ (loseOp o s).portA = s.portA ∧ (loseOp o s).portB = s.portB ∧
      (loseOp o s).loop = s.loop ∧ (loseOp o s).queue = s.queue ∧ (loseOp o s).snap = s.snap ∧
      (loseOp o s).slots = s.slots ∧ (loseOp o s).lanes = s.lanes ∧
      (loseOp o s).gain = s.gain ∧ (loseOp o s).talk = s.talk ∧ (loseOp o s).safety = s.safety ∧
      (loseOp o s).lock = s.lock ∧ (loseOp o s).supervision = s.supervision := by
  unfold loseOp
  repeat' split
  all_goals simp

/-- A GO ends. -/
@[simp] theorem parts_goDone (e : GoEnd) (s : State) :
    (goDone e s).start = s.start ∧ (goDone e s).portA = s.portA ∧ (goDone e s).portB = s.portB ∧
      (goDone e s).loop = s.loop ∧ (goDone e s).queue = s.queue ∧ (goDone e s).snap = s.snap ∧
      (goDone e s).switches = s.switches ∧ (goDone e s).slots = s.slots ∧ (goDone e s).lanes = s.lanes ∧
      (goDone e s).gain = s.gain ∧ (goDone e s).talk = s.talk ∧ (goDone e s).safety = s.safety ∧
      (goDone e s).lock = s.lock ∧ (goDone e s).supervision = s.supervision := by
  unfold goDone
  repeat' split
  all_goals simp

/-- The snapshot sender. -/
@[simp] theorem parts_snapshotStart (s : State) :
    (snapshotStart s).start = s.start ∧ (snapshotStart s).portA = s.portA ∧
      (snapshotStart s).portB = s.portB ∧ (snapshotStart s).loop = s.loop ∧
      (snapshotStart s).queue = s.queue ∧ (snapshotStart s).switches = s.switches ∧
      (snapshotStart s).slots = s.slots ∧ (snapshotStart s).lanes = s.lanes ∧
      (snapshotStart s).gain = s.gain ∧ (snapshotStart s).talk = s.talk ∧
      (snapshotStart s).safety = s.safety ∧ (snapshotStart s).lock = s.lock ∧
      (snapshotStart s).supervision = s.supervision ∧ (snapshotStart s).ctl = s.ctl := by
  unfold snapshotStart
  repeat' split
  all_goals simp

/-- An allotment snapshot needed. -/
@[simp] theorem parts_needAllotSnap (s : State) :
    (needAllotSnap s).start = s.start ∧ (needAllotSnap s).portA = s.portA ∧
      (needAllotSnap s).portB = s.portB ∧ (needAllotSnap s).loop = s.loop ∧
      (needAllotSnap s).queue = s.queue ∧ (needAllotSnap s).switches = s.switches ∧
      (needAllotSnap s).slots = s.slots ∧ (needAllotSnap s).lanes = s.lanes ∧
      (needAllotSnap s).gain = s.gain ∧ (needAllotSnap s).talk = s.talk ∧
      (needAllotSnap s).safety = s.safety ∧ (needAllotSnap s).lock = s.lock ∧
      (needAllotSnap s).supervision = s.supervision ∧ (needAllotSnap s).ctl = s.ctl := by
  simp [needAllotSnap]

/-- A gain snapshot needed. -/
@[simp] theorem parts_needGainSnap (s : State) :
    (needGainSnap s).start = s.start ∧ (needGainSnap s).portA = s.portA ∧ (needGainSnap s).portB = s.portB ∧
      (needGainSnap s).loop = s.loop ∧ (needGainSnap s).queue = s.queue ∧
      (needGainSnap s).switches = s.switches ∧ (needGainSnap s).slots = s.slots ∧
      (needGainSnap s).lanes = s.lanes ∧ (needGainSnap s).gain = s.gain ∧ (needGainSnap s).talk = s.talk ∧
      (needGainSnap s).safety = s.safety ∧ (needGainSnap s).lock = s.lock ∧
      (needGainSnap s).supervision = s.supervision ∧ (needGainSnap s).ctl = s.ctl := by
  unfold needGainSnap
  repeat' split
  all_goals simp

/-- A lost allotment. -/
@[simp] theorem parts_allotLost (n : Serial) (s : State) :
    (allotLost n s).start = s.start ∧ (allotLost n s).portA = s.portA ∧ (allotLost n s).portB = s.portB ∧
      (allotLost n s).loop = s.loop ∧ (allotLost n s).queue = s.queue ∧ (allotLost n s).snap = s.snap ∧
      (allotLost n s).switches = s.switches ∧ (allotLost n s).lanes = s.lanes ∧
      (allotLost n s).gain = s.gain ∧ (allotLost n s).talk = s.talk ∧ (allotLost n s).safety = s.safety ∧
      (allotLost n s).lock = s.lock ∧ (allotLost n s).supervision = s.supervision ∧
      (allotLost n s).ctl = s.ctl := by
  exact ⟨rfl, rfl, rfl, rfl, rfl, rfl, rfl, rfl, rfl, rfl, rfl, rfl, rfl, rfl⟩

/-- A limit reached. -/
@[simp] theorem parts_noticeLimit (i : Nat) (a b : Tap) (s : State) :
    (noticeLimit i a b s).start = s.start ∧ (noticeLimit i a b s).portA = s.portA ∧
      (noticeLimit i a b s).portB = s.portB ∧ (noticeLimit i a b s).loop = s.loop ∧
      (noticeLimit i a b s).queue = s.queue ∧ (noticeLimit i a b s).snap = s.snap ∧
      (noticeLimit i a b s).switches = s.switches ∧ (noticeLimit i a b s).slots = s.slots ∧
      (noticeLimit i a b s).lanes = s.lanes ∧ (noticeLimit i a b s).gain = s.gain ∧
      (noticeLimit i a b s).talk = s.talk ∧ (noticeLimit i a b s).safety = s.safety ∧
      (noticeLimit i a b s).lock = s.lock ∧ (noticeLimit i a b s).supervision = s.supervision := by
  unfold noticeLimit
  repeat' split
  all_goals simp

@[simp] theorem start_updateTaps (f : Tap → Tap) (s : State) : (updateTaps f s).start = s.start := by
  exact List.foldlRecOn (motive := fun (a : State) => a.start = s.start) _ _ rfl fun a h x _ => by
    simp only [parts_noticeLimit]; exact h
@[simp] theorem portA_updateTaps (f : Tap → Tap) (s : State) : (updateTaps f s).portA = s.portA := by
  exact List.foldlRecOn (motive := fun (a : State) => a.portA = s.portA) _ _ rfl fun a h x _ => by
    simp only [parts_noticeLimit]; exact h
@[simp] theorem portB_updateTaps (f : Tap → Tap) (s : State) : (updateTaps f s).portB = s.portB := by
  exact List.foldlRecOn (motive := fun (a : State) => a.portB = s.portB) _ _ rfl fun a h x _ => by
    simp only [parts_noticeLimit]; exact h
@[simp] theorem loop_updateTaps (f : Tap → Tap) (s : State) : (updateTaps f s).loop = s.loop := by
  exact List.foldlRecOn (motive := fun (a : State) => a.loop = s.loop) _ _ rfl fun a h x _ => by
    simp only [parts_noticeLimit]; exact h
@[simp] theorem queue_updateTaps (f : Tap → Tap) (s : State) : (updateTaps f s).queue = s.queue := by
  exact List.foldlRecOn (motive := fun (a : State) => a.queue = s.queue) _ _ rfl fun a h x _ => by
    simp only [parts_noticeLimit]; exact h
@[simp] theorem snap_updateTaps (f : Tap → Tap) (s : State) : (updateTaps f s).snap = s.snap := by
  exact List.foldlRecOn (motive := fun (a : State) => a.snap = s.snap) _ _ rfl fun a h x _ => by
    simp only [parts_noticeLimit]; exact h
@[simp] theorem switches_updateTaps (f : Tap → Tap) (s : State) : (updateTaps f s).switches = s.switches := by
  exact List.foldlRecOn (motive := fun (a : State) => a.switches = s.switches) _ _ rfl fun a h x _ => by
    simp only [parts_noticeLimit]; exact h
@[simp] theorem slots_updateTaps (f : Tap → Tap) (s : State) : (updateTaps f s).slots = s.slots := by
  exact List.foldlRecOn (motive := fun (a : State) => a.slots = s.slots) _ _ rfl fun a h x _ => by
    simp only [parts_noticeLimit]; exact h
@[simp] theorem gain_updateTaps (f : Tap → Tap) (s : State) : (updateTaps f s).gain = s.gain := by
  exact List.foldlRecOn (motive := fun (a : State) => a.gain = s.gain) _ _ rfl fun a h x _ => by
    simp only [parts_noticeLimit]; exact h
@[simp] theorem talk_updateTaps (f : Tap → Tap) (s : State) : (updateTaps f s).talk = s.talk := by
  exact List.foldlRecOn (motive := fun (a : State) => a.talk = s.talk) _ _ rfl fun a h x _ => by
    simp only [parts_noticeLimit]; exact h
@[simp] theorem safety_updateTaps (f : Tap → Tap) (s : State) : (updateTaps f s).safety = s.safety := by
  exact List.foldlRecOn (motive := fun (a : State) => a.safety = s.safety) _ _ rfl fun a h x _ => by
    simp only [parts_noticeLimit]; exact h
@[simp] theorem lock_updateTaps (f : Tap → Tap) (s : State) : (updateTaps f s).lock = s.lock := by
  exact List.foldlRecOn (motive := fun (a : State) => a.lock = s.lock) _ _ rfl fun a h x _ => by
    simp only [parts_noticeLimit]; exact h
@[simp] theorem supervision_updateTaps (f : Tap → Tap) (s : State) : (updateTaps f s).supervision = s.supervision := by
  exact List.foldlRecOn (motive := fun (a : State) => a.supervision = s.supervision) _ _ rfl fun a h x _ => by
    simp only [parts_noticeLimit]; exact h

/-- A cache entry. -/
@[simp] theorem parts_setCache (n : Nat) (e : CacheEntry) (s : State) :
    (setCache n e s).start = s.start ∧ (setCache n e s).portA = s.portA ∧ (setCache n e s).portB = s.portB ∧
      (setCache n e s).loop = s.loop ∧ (setCache n e s).queue = s.queue ∧ (setCache n e s).snap = s.snap ∧
      (setCache n e s).switches = s.switches ∧ (setCache n e s).slots = s.slots ∧
      (setCache n e s).gain = s.gain ∧ (setCache n e s).talk = s.talk ∧ (setCache n e s).safety = s.safety ∧
      (setCache n e s).lock = s.lock ∧ (setCache n e s).supervision = s.supervision := by
  unfold setCache
  simp only
  repeat' split
  all_goals simp

@[simp] theorem start_refreshInputCache (i : Nat) (s : State) : (refreshInputCache i s).start = s.start := by
  unfold refreshInputCache
  split
  · exact List.foldlRecOn (motive := fun (a : State) => a.start = s.start) _ _ rfl fun a h x _ => by
      simp only [parts_setCache]; exact h
  · rfl
@[simp] theorem portA_refreshInputCache (i : Nat) (s : State) : (refreshInputCache i s).portA = s.portA := by
  unfold refreshInputCache
  split
  · exact List.foldlRecOn (motive := fun (a : State) => a.portA = s.portA) _ _ rfl fun a h x _ => by
      simp only [parts_setCache]; exact h
  · rfl
@[simp] theorem portB_refreshInputCache (i : Nat) (s : State) : (refreshInputCache i s).portB = s.portB := by
  unfold refreshInputCache
  split
  · exact List.foldlRecOn (motive := fun (a : State) => a.portB = s.portB) _ _ rfl fun a h x _ => by
      simp only [parts_setCache]; exact h
  · rfl
@[simp] theorem loop_refreshInputCache (i : Nat) (s : State) : (refreshInputCache i s).loop = s.loop := by
  unfold refreshInputCache
  split
  · exact List.foldlRecOn (motive := fun (a : State) => a.loop = s.loop) _ _ rfl fun a h x _ => by
      simp only [parts_setCache]; exact h
  · rfl
@[simp] theorem queue_refreshInputCache (i : Nat) (s : State) : (refreshInputCache i s).queue = s.queue := by
  unfold refreshInputCache
  split
  · exact List.foldlRecOn (motive := fun (a : State) => a.queue = s.queue) _ _ rfl fun a h x _ => by
      simp only [parts_setCache]; exact h
  · rfl
@[simp] theorem snap_refreshInputCache (i : Nat) (s : State) : (refreshInputCache i s).snap = s.snap := by
  unfold refreshInputCache
  split
  · exact List.foldlRecOn (motive := fun (a : State) => a.snap = s.snap) _ _ rfl fun a h x _ => by
      simp only [parts_setCache]; exact h
  · rfl
@[simp] theorem switches_refreshInputCache (i : Nat) (s : State) : (refreshInputCache i s).switches = s.switches := by
  unfold refreshInputCache
  split
  · exact List.foldlRecOn (motive := fun (a : State) => a.switches = s.switches) _ _ rfl fun a h x _ => by
      simp only [parts_setCache]; exact h
  · rfl
@[simp] theorem slots_refreshInputCache (i : Nat) (s : State) : (refreshInputCache i s).slots = s.slots := by
  unfold refreshInputCache
  split
  · exact List.foldlRecOn (motive := fun (a : State) => a.slots = s.slots) _ _ rfl fun a h x _ => by
      simp only [parts_setCache]; exact h
  · rfl
@[simp] theorem gain_refreshInputCache (i : Nat) (s : State) : (refreshInputCache i s).gain = s.gain := by
  unfold refreshInputCache
  split
  · exact List.foldlRecOn (motive := fun (a : State) => a.gain = s.gain) _ _ rfl fun a h x _ => by
      simp only [parts_setCache]; exact h
  · rfl
@[simp] theorem talk_refreshInputCache (i : Nat) (s : State) : (refreshInputCache i s).talk = s.talk := by
  unfold refreshInputCache
  split
  · exact List.foldlRecOn (motive := fun (a : State) => a.talk = s.talk) _ _ rfl fun a h x _ => by
      simp only [parts_setCache]; exact h
  · rfl
@[simp] theorem safety_refreshInputCache (i : Nat) (s : State) : (refreshInputCache i s).safety = s.safety := by
  unfold refreshInputCache
  split
  · exact List.foldlRecOn (motive := fun (a : State) => a.safety = s.safety) _ _ rfl fun a h x _ => by
      simp only [parts_setCache]; exact h
  · rfl
@[simp] theorem lock_refreshInputCache (i : Nat) (s : State) : (refreshInputCache i s).lock = s.lock := by
  unfold refreshInputCache
  split
  · exact List.foldlRecOn (motive := fun (a : State) => a.lock = s.lock) _ _ rfl fun a h x _ => by
      simp only [parts_setCache]; exact h
  · rfl
@[simp] theorem supervision_refreshInputCache (i : Nat) (s : State) : (refreshInputCache i s).supervision = s.supervision := by
  unfold refreshInputCache
  split
  · exact List.foldlRecOn (motive := fun (a : State) => a.supervision = s.supervision) _ _ rfl fun a h x _ => by
      simp only [parts_setCache]; exact h
  · rfl

/-- A lost gain change. -/
@[simp] theorem parts_loseGain (i : Nat) (n : GainSerial) (s : State) :
    (loseGain i n s).start = s.start ∧ (loseGain i n s).portA = s.portA ∧ (loseGain i n s).portB = s.portB ∧
      (loseGain i n s).loop = s.loop ∧ (loseGain i n s).queue = s.queue ∧
      (loseGain i n s).switches = s.switches ∧ (loseGain i n s).slots = s.slots ∧
      (loseGain i n s).talk = s.talk ∧ (loseGain i n s).safety = s.safety ∧ (loseGain i n s).lock = s.lock ∧
      (loseGain i n s).supervision = s.supervision := by
  unfold loseGain
  repeat' split
  all_goals simp

/-- A HEAL whose entry is discarded. -/
@[simp] theorem parts_loseHeal (op : Option Byte) (s : State) :
    (loseHeal op s).start = s.start ∧ (loseHeal op s).portA = s.portA ∧ (loseHeal op s).portB = s.portB ∧
      (loseHeal op s).loop = s.loop ∧ (loseHeal op s).snap = s.snap ∧ (loseHeal op s).slots = s.slots ∧
      (loseHeal op s).lanes = s.lanes ∧ (loseHeal op s).gain = s.gain ∧ (loseHeal op s).talk = s.talk ∧
      (loseHeal op s).safety = s.safety ∧ (loseHeal op s).lock = s.lock ∧
      (loseHeal op s).supervision = s.supervision := by
  unfold loseHeal
  split <;> simp

/-- A lost pending entry. -/
@[simp] theorem parts_loseEntry (s : State) (p : PendingSwitch) :
    (loseEntry s p).start = s.start ∧ (loseEntry s p).portA = s.portA ∧ (loseEntry s p).portB = s.portB ∧
      (loseEntry s p).loop = s.loop ∧ (loseEntry s p).talk = s.talk ∧
      (loseEntry s p).safety = s.safety ∧ (loseEntry s p).lock = s.lock ∧
      (loseEntry s p).supervision = s.supervision := by
  unfold loseEntry
  repeat' split
  all_goals simp

/-- The pending entries after a lost operation are those before it, the operation apart. -/
theorem switches_loseOp (o : Option Byte) (s : State) : ∃ f : PendingSwitch → PendingSwitch,
    (loseOp o s).switches = s.switches.map f ∧
      ∀ p, (f p).sender = p.sender ∧ (f p).item = p.item ∧ (f p).frame = p.frame ∧ (f p).epoch = p.epoch := by
  have still : ∃ f : PendingSwitch → PendingSwitch, s.switches = s.switches.map f ∧
      ∀ p, (f p).sender = p.sender ∧ (f p).item = p.item ∧ (f p).frame = p.frame ∧ (f p).epoch = p.epoch :=
    ⟨id, by simp, fun _ => ⟨rfl, rfl, rfl, rfl⟩⟩
  unfold loseOp
  split
  · exact still
  · split
    · exact still
    · rw [(parts_endOp _ _ _ _).2.2.2.2.2.2.1]
      exact ⟨_, rfl, fun p => by split <;> exact ⟨rfl, rfl, rfl, rfl⟩⟩

/-- The pending entries after a lost entry are those before it, the operation apart. -/
theorem switches_loseEntry (s : State) (p : PendingSwitch) : ∃ f : PendingSwitch → PendingSwitch,
    (loseEntry s p).switches = s.switches.map f ∧
      ∀ p, (f p).sender = p.sender ∧ (f p).item = p.item ∧ (f p).frame = p.frame ∧ (f p).epoch = p.epoch := by
  have still {t : State} (h : t.switches = s.switches) : ∃ f : PendingSwitch → PendingSwitch,
      t.switches = s.switches.map f ∧
        ∀ p, (f p).sender = p.sender ∧ (f p).item = p.item ∧ (f p).frame = p.frame ∧ (f p).epoch = p.epoch :=
    ⟨id, by simp [h], fun _ => ⟨rfl, rfl, rfl, rfl⟩⟩
  unfold loseEntry
  repeat' split
  all_goals first
    | exact still rfl
    | exact still (by simp)
    | skip
  unfold loseHeal
  split
  · rw [(parts_forgetItem _ _).2.2.2.2.2.1]
    exact switches_loseOp _ _
  · exact still rfl

/-- The TALK entries. -/
@[simp] theorem parts_clearTalkEntries (s : State) :
    (clearTalkEntries s).start = s.start ∧ (clearTalkEntries s).portA = s.portA ∧
      (clearTalkEntries s).portB = s.portB ∧ (clearTalkEntries s).loop = s.loop ∧
      (clearTalkEntries s).queue = s.queue ∧ (clearTalkEntries s).snap = s.snap ∧
      (clearTalkEntries s).switches = s.switches ∧ (clearTalkEntries s).lanes = s.lanes ∧
      (clearTalkEntries s).gain = s.gain ∧ (clearTalkEntries s).talk = s.talk ∧
      (clearTalkEntries s).safety = s.safety ∧ (clearTalkEntries s).lock = s.lock ∧
      (clearTalkEntries s).supervision = s.supervision ∧ (clearTalkEntries s).ctl = s.ctl := by
  exact ⟨rfl, rfl, rfl, rfl, rfl, rfl, rfl, rfl, rfl, rfl, rfl, rfl, rfl, rfl⟩

/-- The Talk Unit at an epoch change. -/
@[simp] theorem parts_talkEpoch (s : State) :
    (talkEpoch s).start = s.start ∧ (talkEpoch s).portA = s.portA ∧ (talkEpoch s).portB = s.portB ∧
      (talkEpoch s).loop = s.loop ∧ (talkEpoch s).queue = s.queue ∧ (talkEpoch s).snap = s.snap ∧
      (talkEpoch s).switches = s.switches ∧ (talkEpoch s).lanes = s.lanes ∧ (talkEpoch s).gain = s.gain ∧
      (talkEpoch s).safety = s.safety ∧ (talkEpoch s).lock = s.lock ∧
      (talkEpoch s).supervision = s.supervision := by
  simp [talkEpoch]

/-- The lock view. -/
@[simp] theorem parts_setLockView (n : NodeId) (v : Option Nat) (s : State) :
    (setLockView n v s).start = s.start ∧ (setLockView n v s).portA = s.portA ∧
      (setLockView n v s).portB = s.portB ∧ (setLockView n v s).loop = s.loop ∧
      (setLockView n v s).queue = s.queue ∧ (setLockView n v s).snap = s.snap ∧
      (setLockView n v s).switches = s.switches ∧ (setLockView n v s).slots = s.slots ∧
      (setLockView n v s).lanes = s.lanes ∧ (setLockView n v s).gain = s.gain ∧
      (setLockView n v s).talk = s.talk ∧ (setLockView n v s).safety = s.safety ∧
      (setLockView n v s).supervision = s.supervision := by
  unfold setLockView
  repeat' split
  all_goals simp

/-- The lock view cleared. -/
@[simp] theorem parts_clearLockView (s : State) :
    (clearLockView s).start = s.start ∧ (clearLockView s).portA = s.portA ∧
      (clearLockView s).portB = s.portB ∧ (clearLockView s).loop = s.loop ∧
      (clearLockView s).queue = s.queue ∧ (clearLockView s).snap = s.snap ∧
      (clearLockView s).switches = s.switches ∧ (clearLockView s).slots = s.slots ∧
      (clearLockView s).lanes = s.lanes ∧ (clearLockView s).gain = s.gain ∧
      (clearLockView s).talk = s.talk ∧ (clearLockView s).safety = s.safety ∧
      (clearLockView s).supervision = s.supervision := by
  simp [clearLockView, allNodes]

/-- The LOCK_NOTE. -/
@[simp] theorem parts_pushLockNote (s : State) :
    (pushLockNote s).start = s.start ∧ (pushLockNote s).portA = s.portA ∧ (pushLockNote s).portB = s.portB ∧
      (pushLockNote s).loop = s.loop ∧ (pushLockNote s).snap = s.snap ∧
      (pushLockNote s).switches = s.switches ∧ (pushLockNote s).slots = s.slots ∧
      (pushLockNote s).lanes = s.lanes ∧ (pushLockNote s).gain = s.gain ∧ (pushLockNote s).talk = s.talk ∧
      (pushLockNote s).safety = s.safety ∧ (pushLockNote s).supervision = s.supervision ∧
      (pushLockNote s).ctl = s.ctl := by
  unfold pushLockNote
  repeat' split
  all_goals simp

/-- The lock at an epoch change. -/
@[simp] theorem parts_lockEpoch (s : State) :
    (lockEpoch s).start = s.start ∧ (lockEpoch s).portA = s.portA ∧ (lockEpoch s).portB = s.portB ∧
      (lockEpoch s).loop = s.loop ∧ (lockEpoch s).snap = s.snap ∧ (lockEpoch s).switches = s.switches ∧
      (lockEpoch s).slots = s.slots ∧ (lockEpoch s).lanes = s.lanes ∧ (lockEpoch s).gain = s.gain ∧
      (lockEpoch s).talk = s.talk ∧ (lockEpoch s).safety = s.safety ∧
      (lockEpoch s).supervision = s.supervision := by
  simp [lockEpoch]

/-! ### An epoch change (R61, R62) -/

theorem start_loseEntries (l : List PendingSwitch) (s : State) : (l.foldl loseEntry s).start = s.start :=
  List.foldlRecOn (motive := fun (a : State) => a.start = s.start) _ _ rfl fun a h x _ => by
    simp only [parts_loseEntry]; exact h

theorem portA_loseEntries (l : List PendingSwitch) (s : State) : (l.foldl loseEntry s).portA = s.portA :=
  List.foldlRecOn (motive := fun (a : State) => a.portA = s.portA) _ _ rfl fun a h x _ => by
    simp only [parts_loseEntry]; exact h

theorem portB_loseEntries (l : List PendingSwitch) (s : State) : (l.foldl loseEntry s).portB = s.portB :=
  List.foldlRecOn (motive := fun (a : State) => a.portB = s.portB) _ _ rfl fun a h x _ => by
    simp only [parts_loseEntry]; exact h

theorem safety_loseEntries (l : List PendingSwitch) (s : State) : (l.foldl loseEntry s).safety = s.safety :=
  List.foldlRecOn (motive := fun (a : State) => a.safety = s.safety) _ _ rfl fun a h x _ => by
    simp only [parts_loseEntry]; exact h

theorem supervision_loseEntries (l : List PendingSwitch) (s : State) : (l.foldl loseEntry s).supervision = s.supervision :=
  List.foldlRecOn (motive := fun (a : State) => a.supervision = s.supervision) _ _ rfl fun a h x _ => by
    simp only [parts_loseEntry]; exact h

theorem loop_loseEntries (l : List PendingSwitch) (s : State) : (l.foldl loseEntry s).loop = s.loop :=
  List.foldlRecOn (motive := fun (a : State) => a.loop = s.loop) _ _ rfl fun a h x _ => by
    simp only [parts_loseEntry]; exact h

@[simp] theorem parts_epochChange (g : OriginGroup) (r : OriginRole) (s : State) :
    (epochChange g r s).start = s.start ∧ (epochChange g r s).portA = s.portA ∧
      (epochChange g r s).portB = s.portB ∧ (epochChange g r s).safety = s.safety ∧
      (epochChange g r s).supervision = s.supervision := by
  unfold epochChange
  simp only [parts_needGainSnap]
  split <;> simp [start_loseEntries, portA_loseEntries, portB_loseEntries, safety_loseEntries,
    supervision_loseEntries]

@[simp] theorem loop_epochChange (g : OriginGroup) (r : OriginRole) (s : State) :
    (epochChange g r s).loop = epochLoop g r s := by
  unfold epochChange
  simp only [parts_needGainSnap]
  split <;> simp [loop_loseEntries]

/-- An entry outlives an epoch change under its own epoch, unless it is a collection's (R18, R90). -/
theorem outlivesEpoch_iff (g : OriginGroup) (s : State) (p : PendingSwitch) : outlivesEpoch g s p = true ↔
    p.epoch = g.epoch ∧ ∀ n, p.item = .snapshot n → s.isMaster = true := by
  unfold outlivesEpoch ofCollection
  cases h : p.item <;> simp

/-- The entries that stand after the loss of others are those before it, their operations apart. -/
theorem mem_switches_loseEntries {q : PendingSwitch → Prop}
    (hq : ∀ a b : PendingSwitch, a.item = b.item → a.epoch = b.epoch → q a → q b) (l : List PendingSwitch)
    (s : State) (h : ∀ x ∈ s.switches, q x) : ∀ x ∈ (l.foldl loseEntry s).switches, q x :=
  List.foldlRecOn (motive := fun (a : State) => ∀ x ∈ a.switches, q x) _ _ h fun a ha p _ x hx => by
    obtain ⟨f, e, k⟩ := switches_loseEntry a p
    rw [e, List.mem_map] at hx
    obtain ⟨y, hy, rfl⟩ := hx
    exact hq y _ (k y).2.1.symm (k y).2.2.2.symm (ha y hy)

/-- What an epoch change leaves in the pending switch list (R18, R62, R90). -/
theorem mem_switches_epochChange (g : OriginGroup) (r : OriginRole) (s : State) :
    ∀ x ∈ (epochChange g r s).switches, x.epoch = g.epoch ∧ ∀ n, x.item = .snapshot n → s.isMaster = true := by
  have all (t : State) (h : t.switches = s.switches.filter (outlivesEpoch g s)) :
      ∀ x ∈ t.switches, x.epoch = g.epoch ∧ ∀ n, x.item = .snapshot n → s.isMaster = true := by
    intro x hx
    rw [h] at hx
    exact (outlivesEpoch_iff g s x).1 (List.mem_filter.1 hx).2
  unfold epochChange
  simp only [parts_needGainSnap, parts_lockEpoch, parts_talkEpoch, parts_loseCurrency]
  refine mem_switches_loseEntries (fun a b hi he h => ⟨he ▸ h.1, fun n hn => h.2 n (hi.trans hn)⟩) _ _ (all _ ?_)
  split <;> simp

/-! ### The loop mode after an operation -/

/-- The loop mode reads the held flag, the loop record and the usability of the ports (R45). -/
theorem loopMode_congr {s t : State} (h : t.start.held = s.start.held)
    (hc : t.loop.conflict = s.loop.conflict) (hr : t.loop.role = s.loop.role)
    (hg : t.loop.group = s.loop.group) (hf : t.loop.following = s.loop.following)
    (ha : t.loop.wrapA = s.loop.wrapA) (hb : t.loop.wrapB = s.loop.wrapB)
    (ua : t.usable .a = s.usable .a) (ub : t.usable .b = s.usable .b) : loopMode t = loopMode s := by
  unfold loopMode State.isOrigin
  rw [h, hc, hr, hg, hf, ha, hb, ua, ub]

theorem loop_afterLoop (c : LoopCause) (old s : State) :
    ∃ x, (afterLoop c old s).loop = { s.loop with takeover := x } := by
  have h : ∃ x, (takeoverCheck (loopMode old) s).loop = { s.loop with takeover := x } := by
    unfold takeoverCheck
    repeat' split
    · exact ⟨_, rfl⟩
    · exact ⟨_, rfl⟩
    · exact ⟨s.loop.takeover, rfl⟩
  obtain ⟨x, h⟩ := h
  refine ⟨x, ?_⟩
  rw [← h]
  unfold afterLoop
  simp only
  split
  · simp only [parts_notifyLoop, parts_retryCheck, parts_rejudge]
    split <;> simp
  · simp only [parts_retryCheck, parts_rejudge]
    split <;> simp

theorem drillWrap_none (m : LoopMode) (s : State) (p : PortId) (h : (s.port p).drill = none) :
    drillWrap m s p = s := by
  unfold drillWrap
  simp only
  rw [h]

theorem port_takeoverCheck (m : LoopMode) (s : State) (p : PortId) :
    (takeoverCheck m s).port p = s.port p := by
  cases p <;> simp [State.port]

theorem port_dropPlans (m : LoopMode) (s : State) (p : PortId) : (dropPlans m s).port p = s.port p := by
  cases p <;> simp [State.port]

/-- A port without a drill stands through a change of the loop record. -/
theorem port_afterLoop (c : LoopCause) (old s : State) (ha : s.portA.drill = none)
    (hb : s.portB.drill = none) (p : PortId) : (afterLoop c old s).port p = s.port p := by
  have h1 : ∀ q, ((dropPlans (loopMode old) (takeoverCheck (loopMode old) s)).port q) = s.port q :=
    fun q => by rw [port_dropPlans, port_takeoverCheck]
  unfold afterLoop
  simp only
  rw [drillWrap_none _ _ .a (by rw [h1]; exact ha), drillWrap_none _ _ .b (by rw [h1]; exact hb)]
  have h2 : ∀ q, ((if modeLosesCopy (dropPlans (loopMode old) (takeoverCheck (loopMode old) s)) then
      loseCurrency (dropPlans (loopMode old) (takeoverCheck (loopMode old) s))
      else dropPlans (loopMode old) (takeoverCheck (loopMode old) s)).port q) = s.port q := by
    intro q
    split
    · rw [← h1 q]
      cases q <;> simp [State.port]
    · exact h1 q
  rw [← h2 p]
  cases p <;> split <;> simp [State.port]

/-- Outside ORPHAN no takeover timer is left (R63). -/
theorem takeover_afterLoop (c : LoopCause) (old s : State) (h : loopMode s ≠ .orphan) :
    (afterLoop c old s).loop.takeover = none := by
  have hc : (takeoverCheck (loopMode old) s).loop.takeover = none := by
    unfold takeoverCheck
    rw [if_pos (by simpa using h)]
  unfold afterLoop
  simp only
  split
  · simp only [parts_notifyLoop, parts_retryCheck, parts_rejudge]
    split <;> simpa using hc
  · simp only [parts_retryCheck, parts_rejudge]
    split <;> simpa using hc

/-- Closing an event leaves the loop record where no takeover timer runs. -/
theorem loop_settle (s : State) (h : s.loop.takeover = none) : (settle s).loop = s.loop := by
  have stop (a : State) (ha : a.loop.takeover = none) : stopTakeover a = a := by
    unfold stopTakeover
    split
    · rfl
    · rw [← ha]
  unfold settle modeCheck
  simp only [parts_retryCheck, parts_rejudge]
  split
  · rw [stop _ (by simpa using h)]; simp
  · rw [stop _ h]

/-- The settings of the outputs and the PANIC level stand through the close of an event. -/
theorem safety_settle (s : State) : (settle s).safety = { s.safety with
    outs := (settle s).safety.outs } := by
  have hm : (modeCheck s).safety = s.safety := by simp
  have hr (a : State) : (rejudge a).safety = { a.safety with outs := (rejudge a).safety.outs } := rfl
  unfold settle
  simp only [parts_retryCheck]
  rw [hr, hm]

theorem safety_afterLoop (c : LoopCause) (old s : State) :
    (afterLoop c old s).safety = { s.safety with outs := (afterLoop c old s).safety.outs } := by
  have hr (a : State) : (rejudge a).safety = { a.safety with outs := (rejudge a).safety.outs } := rfl
  unfold afterLoop
  simp only
  split
  · simp only [parts_notifyLoop, parts_retryCheck]
    rw [hr]
    split <;> simp
  · simp only [parts_retryCheck]
    rw [hr]
    split <;> simp

/-! ### Settled states that agree in what is derived -/

/-- What is derived stands where the parts it is derived from stand. -/
theorem Settled.of_same {s t : State} (h : Settled s) (hm : loopMode t = loopMode s)
    (hi : t.start.id = s.start.id) (hr : t.start.role = s.start.role) (ha : t.start.rate = s.start.rate)
    (hl : t.lanes = s.lanes) (ho : t.safety.outs = s.safety.outs) (hs : t.slots = s.slots)
    (hc : t.loop.copy = s.loop.copy) (hg : t.loop.group = s.loop.group)
    (hf : t.loop.following = s.loop.following) (hro : t.loop.role = s.loop.role)
    (ht : t.loop.takeover = s.loop.takeover) : Settled t := by
  have cc : copyCurrent t = copyCurrent s := by unfold copyCurrent State.isMaster; rw [hr, hs]
  have ec (n : NodeId) : inCopy t n = inCopy s n := by unfold inCopy; rw [hc]
  have ee (n : Nat) : entryAt t n = entryAt s n := by unfold entryAt; rw [hs]
  refine h.of_parts hl ho ?_ ?_ hm ?_ ?_ ?_
  · intro src
    unfold sourceValid
    simp only [hm, cc, hi, ec, ee]
  · intro b
    unfold heard
    simp only [hm, cc, hi, ec, ee, ha]
  · have : retryCond t = retryCond s := by unfold retryCond State.isMaster; rw [hr, hs, hf, hg]
    rw [hs, this]
    exact h.retry
  · rw [ht, hm]; exact h.takeover
  · rw [modeLosesCopy_eq hm hro]
    intro k
    have := h.copy k
    unfold State.isMaster at this ⊢
    rwa [hr, hs]

/-- A change of a port record that leaves its usability alone. -/
theorem Settled.setPort {s : State} (h : Settled s) (p : PortId) (r : PortRec)
    (hu : portUsable r = s.usable p) : Settled (s.setPort p r) := by
  refine h.of_same ?_ ?_ ?_ ?_ ?_ ?_ ?_ ?_ ?_ ?_ ?_ ?_
  · refine loopMode_congr ?_ ?_ ?_ ?_ ?_ ?_ ?_ ?_ ?_ <;> cases p <;>
      simp_all [State.setPort, State.usable, State.port]
  all_goals simp

/-! ### Requests -/

/-- Taking a request touches the silence record, the outputs and the notices (R168, R170). -/
@[simp] theorem parts_goodRequest (s : State) :
    (goodRequest s).start = s.start ∧ (goodRequest s).portA = s.portA ∧ (goodRequest s).portB = s.portB ∧
      (goodRequest s).loop = s.loop ∧ (goodRequest s).queue = s.queue ∧ (goodRequest s).snap = s.snap ∧
      (goodRequest s).switches = s.switches ∧ (goodRequest s).slots = s.slots ∧
      (goodRequest s).lanes = s.lanes ∧ (goodRequest s).gain = s.gain ∧ (goodRequest s).talk = s.talk ∧
      (goodRequest s).lock = s.lock := by
  unfold goodRequest
  simp only
  split
  · simp [onSilenceClear]
  · simp

@[simp] theorem port_goodRequest (s : State) (p : PortId) : (goodRequest s).port p = s.port p := by
  cases p <;> simp [State.port]

theorem loopMode_goodRequest (s : State) : loopMode (goodRequest s) = loopMode s := by
  refine loopMode_congr ?_ ?_ ?_ ?_ ?_ ?_ ?_ ?_ ?_ <;> simp [State.usable]

/-- A request that is answered without any effect. -/
theorem request_idle {tag : Byte} {judge : State → Judged} {s : State} {r : Reply} (h : Taken s)
    (hs : Settled s) (hj : judge (goodRequest s) = (some r, goodRequest s)) :
    ∃ t, done (takeRequest tag judge) s = .next t ∧ Answered tag r [] s (goodRequest s) t :=
  request_settled h hj (goodRequest_settled hs) (.refl _) (goodRequest_chosen s) (by simp)

end Sys2Proof.Machine
end

