-- ==== Sys2Proof/Laws/Count.lean ====
section
/-! SUPPORT. The local frame count moves only where it is set (R2): no operation of a frame at the node, of a request
or of a loop message changes it. -/

namespace Sys2Proof.Machine

open Sys2Proof

theorem count_foldl {α : Type} {f : State → α → State} (h : ∀ a x, (f a x).loop.count = a.loop.count) (l : List α)
    (s : State) : (l.foldl f s).loop.count = s.loop.count := by
  induction l generalizing s with
  | nil => rfl
  | cons x l ih => rw [List.foldl_cons, ih, h]

@[simp] theorem count_epochLoop (g : OriginGroup) (r : OriginRole) (s : State) :
    (epochLoop g r s).count = s.loop.count := rfl
@[simp] theorem count_setPort (s : State) (p : PortId) (r : PortRec) :
    (State.setPort s p r).loop.count = s.loop.count := by
  unfold State.setPort
  (repeat' split) <;> simp
@[simp] theorem count_setWrap (s : State) (p : PortId) (w : Wrap) :
    (State.setWrap s p w).loop.count = s.loop.count := by
  unfold State.setWrap
  (repeat' split) <;> simp
@[simp] theorem count_notify (n : Notice) (s : State) : (notify n s).loop.count = s.loop.count := by
  unfold notify
  (repeat' split) <;> simp
@[simp] theorem count_notifyLoop (c : LoopCause) (s : State) : (notifyLoop c s).loop.count = s.loop.count := by
  unfold notifyLoop
  simp
@[simp] theorem count_push (dest : QDest) (body : LoopMsg) (op : Option Byte) (cause : GainCause) (s : State) :
    (push dest body op cause s).loop.count = s.loop.count := by
  rfl
@[simp] theorem count_pushInternal (dest : QDest) (body : LoopMsg) (s : State) :
    (pushInternal dest body s).loop.count = s.loop.count := by
  unfold pushInternal
  (repeat' split) <;> simp
@[simp] theorem count_pushGainNote (body : LoopMsg) (cause : GainCause) (s : State) :
    (pushGainNote body cause s).loop.count = s.loop.count := by
  unfold pushGainNote
  (repeat' split) <;> simp
@[simp] theorem count_addOp (o : Operation) (s : State) : (addOp o s).loop.count = s.loop.count := by
  rfl
@[simp] theorem count_modifyOp (tag : Byte) (f : Operation → Operation) (s : State) :
    (modifyOp tag f s).loop.count = s.loop.count := by
  rfl
@[simp] theorem count_endOp (tag : Byte) (outcome : Verdict) (result : OpResult) (s : State) :
    (endOp tag outcome result s).loop.count = s.loop.count := by
  unfold endOp
  (repeat' split) <;> simp
@[simp] theorem count_forgetEntry (tag : Byte) (s : State) : (forgetEntry tag s).loop.count = s.loop.count := by
  rfl
@[simp] theorem count_forgetItem (tag : Byte) (s : State) : (forgetItem tag s).loop.count = s.loop.count := by
  rfl
@[simp] theorem count_loseOp (op : Option Byte) (s : State) : (loseOp op s).loop.count = s.loop.count := by
  unfold loseOp
  (repeat' split) <;> simp
@[simp] theorem count_endOutstanding (s : State) : (endOutstanding s).loop.count = s.loop.count := by
  unfold endOutstanding
  (repeat' split) <;> simp
@[simp] theorem count_snapshotStart (s : State) : (snapshotStart s).loop.count = s.loop.count := by
  unfold snapshotStart
  (repeat' split) <;> simp
@[simp] theorem count_needAllotSnap (s : State) : (needAllotSnap s).loop.count = s.loop.count := by
  unfold needAllotSnap
  simp
@[simp] theorem count_needGainSnap (s : State) : (needGainSnap s).loop.count = s.loop.count := by
  unfold needGainSnap
  (repeat' split) <;> simp
@[simp] theorem count_mapOuts (f : Nat → Tap → OutRec → OutRec) (s : State) :
    (mapOuts f s).loop.count = s.loop.count := by
  rfl
@[simp] theorem count_modifyOut (i : Nat) (f : OutRec → OutRec) (s : State) :
    (modifyOut i f s).loop.count = s.loop.count := by
  rfl
@[simp] theorem count_syncCauses (s : State) : (syncCauses s).loop.count = s.loop.count := by
  rfl
@[simp] theorem count_setPanic (on : Bool) (s : State) : (setPanic on s).loop.count = s.loop.count := by
  rfl
@[simp] theorem count_onSilenceSet (s : State) : (onSilenceSet s).loop.count = s.loop.count := by
  rfl
@[simp] theorem count_onSilenceClear (s : State) : (onSilenceClear s).loop.count = s.loop.count := by
  rfl
@[simp] theorem count_reportOutputs (old : List OutRec) (s : State) :
    (reportOutputs old s).loop.count = s.loop.count := by
  exact count_foldl (fun _ _ => by simp) _ _
@[simp] theorem count_rejudge (s : State) : (rejudge s).loop.count = s.loop.count := by
  rfl
@[simp] theorem count_noticeLimit (i : Nat) (old : Tap) (new : Tap) (s : State) :
    (noticeLimit i old new s).loop.count = s.loop.count := by
  unfold noticeLimit
  (repeat' split) <;> simp
@[simp] theorem count_updateTaps (f : Tap → Tap) (s : State) : (updateTaps f s).loop.count = s.loop.count := by
  exact count_foldl (fun _ _ => by simp) _ _
@[simp] theorem count_setCache (slot : Nat) (e : CacheEntry) (s : State) :
    (setCache slot e s).loop.count = s.loop.count := by
  unfold setCache
  simp only
  (repeat' split) <;> simp
@[simp] theorem count_clearCache (s : State) : (clearCache s).loop.count = s.loop.count := by
  rfl
@[simp] theorem count_refreshOwnCache (s : State) : (refreshOwnCache s).loop.count = s.loop.count := by
  unfold refreshOwnCache
  split
  · exact count_foldl (fun a x => by dsimp only; split <;> simp) _ _
  · rfl
@[simp] theorem count_cacheUpdate (sender : NodeId) (input : Nat) (g : GainSetting) (serial : GainSerial)
    (s : State) :
    (cacheUpdate sender input g serial s).loop.count = s.loop.count := by
  exact count_foldl (fun _ _ => by simp) _ _
@[simp] theorem count_periodSamples (s : State) : (periodSamples s).loop.count = s.loop.count := by
  rfl
@[simp] theorem count_visitSamples (slots : List Sample) (s : State) :
    (visitSamples slots s).loop.count = s.loop.count := by
  rfl
@[simp] theorem count_laneFrame (s : State) : (laneFrame s).loop.count = s.loop.count := by
  rfl
@[simp] theorem count_retryCheck (s : State) : (retryCheck s).loop.count = s.loop.count := by
  unfold retryCheck
  (repeat' split) <;> simp
@[simp] theorem count_retryRestart (s : State) : (retryRestart s).loop.count = s.loop.count := by
  rfl
@[simp] theorem count_loseCurrency (s : State) : (loseCurrency s).loop.count = s.loop.count := by
  unfold loseCurrency
  (repeat' split) <;> simp
@[simp] theorem count_pushSnapReq (s : State) : (pushSnapReq s).loop.count = s.loop.count := by
  unfold pushSnapReq
  (repeat' split) <;> simp
@[simp] theorem count_setTalkWriter (b : Bus) (w : Option NodeId) (s : State) :
    (setTalkWriter b w s).loop.count = s.loop.count := by
  rfl
@[simp] theorem count_clearTalkEntries (s : State) : (clearTalkEntries s).loop.count = s.loop.count := by
  rfl
@[simp] theorem count_issueChanges (changes : List SlotChange) (s : State) :
    (issueChanges changes s).loop.count = s.loop.count := by
  unfold issueChanges
  (repeat' split) <;> simp
@[simp] theorem count_pushAnswer (w : NodeId) (tag : Byte) (res : List PairResult) (s : State) :
    (pushAnswer w tag res s).loop.count = s.loop.count := by
  unfold pushAnswer
  simp
@[simp] theorem count_recordAnswer (w : NodeId) (tag : Byte) (num : MsgNo) (res : List PairResult) (s : State) :
    (recordAnswer w tag num res s).loop.count = s.loop.count := by
  rfl
@[simp] theorem count_takeSlotAsk (w : NodeId) (tag : Byte) (num : MsgNo) (a : SlotAsk) (s : State) :
    (takeSlotAsk w tag num a s).loop.count = s.loop.count := by
  unfold takeSlotAsk
  (repeat' split) <;> simp
@[simp] theorem count_markUnsettled (slots : List Nat) (v : Bool) (s : State) :
    (markUnsettled slots v s).loop.count = s.loop.count := by
  rfl
@[simp] theorem count_allotDropped (changes : List SlotChange) (s : State) :
    (allotDropped changes s).loop.count = s.loop.count := by
  unfold allotDropped
  simp
@[simp] theorem count_allotConfirmed (serial : Serial) (changes : List SlotChange) (s : State) :
    (allotConfirmed serial changes s).loop.count = s.loop.count := by
  rfl
@[simp] theorem count_allotLost (serial : Serial) (s : State) :
    (allotLost serial s).loop.count = s.loop.count := by
  rfl
@[simp] theorem count_replaceTable (table : List SlotEntry) (told : List Nat) (s : State) :
    (replaceTable table told s).loop.count = s.loop.count := by
  unfold replaceTable
  simp only [count_refreshOwnCache]
  exact count_foldl (fun _ _ => by simp) _ _
@[simp] theorem count_makeChanges (serial : Serial) (changes : List SlotChange) (s : State) :
    (makeChanges serial changes s).loop.count = s.loop.count := by
  unfold makeChanges
  simp only
  (repeat' split) <;> simp
@[simp] theorem count_applyAllot (serial : Serial) (changes : List SlotChange) (confirmed : Bool) (s : State) :
    (applyAllot serial changes confirmed s).loop.count = s.loop.count := by
  unfold applyAllot
  simp only
  (repeat' split) <;> simp
@[simp] theorem count_goDone (e : GoEnd) (s : State) : (goDone e s).loop.count = s.loop.count := by
  unfold goDone
  (repeat' split) <;> simp
@[simp] theorem count_snapViews (old : List SlotEntry) (new : List SlotEntry) (s : State) :
    (snapViews old new s).loop.count = s.loop.count := by
  rfl
@[simp] theorem count_applySnapshot (frame : FrameNo) (s : State) :
    (applySnapshot frame s).loop.count = s.loop.count := by
  unfold applySnapshot
  (repeat' split) <;> simp
@[simp] theorem count_storePiece (n : Nat) (entries : List SlotEntry) (s : State) :
    (storePiece n entries s).loop.count = s.loop.count := by
  rfl
@[simp] theorem count_beginCollection (serial : Serial) (frame : FrameNo) (n : Nat) (entries : List SlotEntry)
    (s : State) :
    (beginCollection serial frame n entries s).loop.count = s.loop.count := by
  rfl
@[simp] theorem count_takeSnapReq (w : NodeId) (last : Option Serial) (s : State) :
    (takeSnapReq w last s).loop.count = s.loop.count := by
  unfold takeSnapReq
  (repeat' split) <;> simp
@[simp] theorem count_setGainEntry (i : Nat) (e : GainEntry) (s : State) :
    (setGainEntry i e s).loop.count = s.loop.count := by
  rfl
@[simp] theorem count_sendRecord (s : State) : (sendRecord s).loop.count = s.loop.count := by
  unfold sendRecord
  (repeat' split) <;> simp
@[simp] theorem count_refreshInputCache (i : Nat) (s : State) :
    (refreshInputCache i s).loop.count = s.loop.count := by
  unfold refreshInputCache
  split
  · exact count_foldl (fun _ _ => by simp) _ _
  · rfl
@[simp] theorem count_applyGainQuiet (i : Nat) (g : GainSetting) (serial : GainSerial) (s : State) :
    (applyGainQuiet i g serial s).loop.count = s.loop.count := by
  unfold applyGainQuiet
  (repeat' split) <;> simp
@[simp] theorem count_applyGain (i : Nat) (g : GainSetting) (serial : GainSerial) (cause : GainCause)
    (s : State) :
    (applyGain i g serial cause s).loop.count = s.loop.count := by
  unfold applyGain
  (repeat' split) <;> simp
@[simp] theorem count_applyNote (sender : NodeId) (i : Nat) (g : GainSetting) (serial : GainSerial)
    (cause : GainCause) (s : State) :
    (applyNote sender i g serial cause s).loop.count = s.loop.count := by
  unfold applyNote
  simp only
  (repeat' split) <;> simp
@[simp] theorem count_takeGainSnap (sender : NodeId) (piece : Nat) (entries : List (GainSetting × GainSerial))
    (s : State) :
    (takeGainSnap sender piece entries s).loop.count = s.loop.count := by
  exact count_foldl (fun _ _ => by simp) _ _
@[simp] theorem count_loseGain (i : Nat) (serial : GainSerial) (s : State) :
    (loseGain i serial s).loop.count = s.loop.count := by
  unfold loseGain
  (repeat' split) <;> simp
@[simp] theorem count_decideGain (i : Nat) (g : GainSetting) (cause : GainCause) (s : State) :
    (decideGain i g cause s).loop.count = s.loop.count := by
  unfold decideGain
  simp
@[simp] theorem count_decideAtOnce (i : Nat) (g : GainSetting) (s : State) :
    (decideAtOnce i g s).loop.count = s.loop.count := by
  unfold decideAtOnce
  simp
@[simp] theorem count_pushGainAnswer (w : NodeId) (tag : Byte) (v : Verdict) (s : State) :
    (pushGainAnswer w tag v s).loop.count = s.loop.count := by
  unfold pushGainAnswer
  simp
@[simp] theorem count_answerGain (w : NodeId) (tag : Byte) (num : MsgNo) (v : Verdict) (s : State) :
    (answerGain w tag num v s).loop.count = s.loop.count := by
  unfold answerGain
  simp
@[simp] theorem count_decideAsk (w : NodeId) (tag : Byte) (num : MsgNo) (i : Nat) (a : GainAsk) (s : State) :
    (decideAsk w tag num i a s).loop.count = s.loop.count := by
  unfold decideAsk
  simp only
  (repeat' split) <;> simp
@[simp] theorem count_takeGainAsk (w : NodeId) (tag : Byte) (num : MsgNo) (i : Nat) (a : GainAsk) (s : State) :
    (takeGainAsk w tag num i a s).loop.count = s.loop.count := by
  unfold takeGainAsk
  (repeat' split) <;> simp
@[simp] theorem count_takeGainAnswer (tag : Byte) (v : Verdict) (s : State) :
    (takeGainAnswer tag v s).loop.count = s.loop.count := by
  unfold takeGainAnswer
  (repeat' split) <;> simp
@[simp] theorem count_endMute (i : Nat) (s : State) : (endMute i s).loop.count = s.loop.count := by
  unfold endMute
  (repeat' split) <;> simp
@[simp] theorem count_applySentNotes (s : State) : (applySentNotes s).loop.count = s.loop.count := by
  exact count_foldl (fun a m => by split <;> simp) _ _
@[simp] theorem count_setKeyRec (k : KeyName) (r : KeyRec) (s : State) :
    (setKeyRec k r s).loop.count = s.loop.count := by
  rfl
@[simp] theorem count_modifyKey (k : KeyName) (f : KeyRec → KeyRec) (s : State) :
    (modifyKey k f s).loop.count = s.loop.count := by
  rfl
@[simp] theorem count_notifyKey (k : KeyName) (c : KeyCause) (s : State) :
    (notifyKey k c s).loop.count = s.loop.count := by
  unfold notifyKey
  simp
@[simp] theorem count_endKey (k : KeyName) (st : KeyState) (c : KeyCause) (s : State) :
    (endKey k st c s).loop.count = s.loop.count := by
  unfold endKey
  simp
@[simp] theorem count_moveKey (k : KeyName) (st : KeyState) (c : KeyCause) (s : State) :
    (moveKey k st c s).loop.count = s.loop.count := by
  unfold moveKey
  simp
@[simp] theorem count_oweRelease (k : KeyName) (s : State) : (oweRelease k s).loop.count = s.loop.count := by
  rfl
@[simp] theorem count_setBusRec (b : Bus) (r : BusRec) (s : State) :
    (setBusRec b r s).loop.count = s.loop.count := by
  rfl
@[simp] theorem count_issueGrant (b : Bus) (s : State) : (issueGrant b s).loop.count = s.loop.count := by
  unfold issueGrant
  (repeat' split) <;> simp
@[simp] theorem count_applyRefuse (b : Bus) (n : NodeId) (k : KeyName) (why : TalkReason) (s : State) :
    (applyRefuse b n k why s).loop.count = s.loop.count := by
  unfold applyRefuse
  simp only
  (repeat' split) <;> simp
@[simp] theorem count_refuseClaim (b : Bus) (t : Talker) (why : TalkReason) (s : State) :
    (refuseClaim b t why s).loop.count = s.loop.count := by
  unfold refuseClaim
  (repeat' split) <;> simp
@[simp] theorem count_carryOut (b : Bus) (t : Talker) (d : TalkDecision) (s : State) :
    (carryOut b t d s).loop.count = s.loop.count := by
  unfold carryOut
  (repeat' split) <;> simp
@[simp] theorem count_takeTalkClaim (b : Bus) (c : Claim) (s : State) :
    (takeTalkClaim b c s).loop.count = s.loop.count := by
  unfold takeTalkClaim
  (repeat' split) <;> simp
@[simp] theorem count_takeTalkRelease (b : Bus) (t : Talker) (s : State) :
    (takeTalkRelease b t s).loop.count = s.loop.count := by
  unfold takeTalkRelease
  (repeat' split) <;> simp
@[simp] theorem count_purgeBus (n : NodeId) (s : State) (b : Bus) :
    (purgeBus n s b).loop.count = s.loop.count := by
  unfold purgeBus
  simp only
  (repeat' split) <;> simp
@[simp] theorem count_purgeTalk (gone : List NodeId) (s : State) :
    (purgeTalk gone s).loop.count = s.loop.count := by
  exact count_foldl (fun a n => count_foldl (fun _ _ => by simp) _ _) _ _
@[simp] theorem count_admitGrant (s : State) (b : Bus) : (admitGrant s b).loop.count = s.loop.count := by
  unfold admitGrant
  (repeat' split) <;> simp
@[simp] theorem count_sendClaim (k : KeyName) (s : State) : (sendClaim k s).loop.count = s.loop.count := by
  unfold sendClaim
  (repeat' split) <;> simp
@[simp] theorem count_sendRelease (k : KeyName) (s : State) : (sendRelease k s).loop.count = s.loop.count := by
  unfold sendRelease
  (repeat' split) <;> simp
@[simp] theorem count_admitRelease (s : State) (k : KeyName) :
    (admitRelease s k).loop.count = s.loop.count := by
  unfold admitRelease
  (repeat' split) <;> simp
@[simp] theorem count_claimDropped (k : KeyName) (s : State) :
    (claimDropped k s).loop.count = s.loop.count := by
  unfold claimDropped
  (repeat' split) <;> simp
@[simp] theorem count_claimSent (k : KeyName) (s : State) : (claimSent k s).loop.count = s.loop.count := by
  rfl
@[simp] theorem count_answerExpired (k : KeyName) (s : State) :
    (answerExpired k s).loop.count = s.loop.count := by
  unfold answerExpired
  simp only
  (repeat' split) <;> simp
@[simp] theorem count_pressKey (k : KeyName) (s : State) : (pressKey k s).loop.count = s.loop.count := by
  unfold pressKey
  simp only
  (repeat' split) <;> simp
@[simp] theorem count_liftKey (k : KeyName) (s : State) : (liftKey k s).loop.count = s.loop.count := by
  unfold liftKey
  simp only
  (repeat' split) <;> simp
@[simp] theorem count_filterTo (k : KeyName) (pressed : Bool) (s : State) :
    (filterTo k pressed s).loop.count = s.loop.count := by
  unfold filterTo
  (repeat' split) <;> simp
@[simp] theorem count_keyRaw (k : KeyName) (high : Bool) (s : State) :
    (keyRaw k high s).loop.count = s.loop.count := by
  unfold keyRaw
  simp only
  (repeat' split) <;> simp
@[simp] theorem count_keySettled (k : KeyName) (s : State) : (keySettled k s).loop.count = s.loop.count := by
  unfold keySettled
  simp only
  (repeat' split) <;> simp
@[simp] theorem count_grantKey (b : Bus) (talker : Option Talker) (s : State) (k : KeyName) :
    (grantKey b talker s k).loop.count = s.loop.count := by
  unfold grantKey
  simp only
  (repeat' split) <;> simp
@[simp] theorem count_setView (b : Bus) (serial : Serial) (talker : Option Talker) (s : State) :
    (setView b serial talker s).loop.count = s.loop.count := by
  rfl
@[simp] theorem count_applyGrant (sender : NodeId) (b : Bus) (talker : Option Talker) (serial : Serial)
    (depth : Nat) (s : State) :
    (applyGrant sender b talker serial depth s).loop.count = s.loop.count := by
  unfold applyGrant
  (repeat' split) <;> (try simp) <;> exact count_foldl (fun _ _ => by simp) _ _
@[simp] theorem count_grantHeard (talker : Option Talker) (s : State) :
    (grantHeard talker s).loop.count = s.loop.count := by
  unfold grantHeard
  (repeat' split) <;> simp
@[simp] theorem count_dropKeys (c : DropCause) (s : State) : (dropKeys c s).loop.count = s.loop.count := by
  unfold dropKeys
  simp
@[simp] theorem count_talkEpoch (s : State) : (talkEpoch s).loop.count = s.loop.count := by
  unfold talkEpoch
  simp
@[simp] theorem count_pushLockNote (s : State) : (pushLockNote s).loop.count = s.loop.count := by
  unfold pushLockNote
  (repeat' split) <;> simp
@[simp] theorem count_admitLockNote (s : State) : (admitLockNote s).loop.count = s.loop.count := by
  unfold admitLockNote
  (repeat' split) <;> simp
@[simp] theorem count_setLockView (n : NodeId) (v : Option Nat) (s : State) :
    (setLockView n v s).loop.count = s.loop.count := by
  unfold setLockView
  (repeat' split) <;> simp
@[simp] theorem count_clearLockView (s : State) : (clearLockView s).loop.count = s.loop.count := by
  unfold clearLockView
  exact count_foldl (f := fun a n => setLockView n none a) (fun _ _ => by simp) _ _
@[simp] theorem count_lockEpoch (s : State) : (lockEpoch s).loop.count = s.loop.count := by
  simp [lockEpoch]
@[simp] theorem count_lockVisit (h : Header) (s : State) : (lockVisit h s).loop.count = s.loop.count := by
  unfold lockVisit
  (repeat' split) <;> simp
@[simp] theorem count_raiseLock (level : Nat) (s : State) : (raiseLock level s).loop.count = s.loop.count := by
  unfold raiseLock
  simp
@[simp] theorem count_goodRequest (s : State) : (goodRequest s).loop.count = s.loop.count := by
  unfold goodRequest
  (repeat' split) <;> simp
@[simp] theorem count_silenceExpired (s : State) : (silenceExpired s).loop.count = s.loop.count := by
  unfold silenceExpired
  (repeat' split) <;> simp
@[simp] theorem count_supervisionLoopReset (s : State) :
    (supervisionLoopReset s).loop.count = s.loop.count := by
  rfl
@[simp] theorem count_takeoverCheck (before : LoopMode) (s : State) :
    (takeoverCheck before s).loop.count = s.loop.count := by
  unfold takeoverCheck
  (repeat' split) <;> simp
@[simp] theorem count_dropPlans (before : LoopMode) (s : State) :
    (dropPlans before s).loop.count = s.loop.count := by
  unfold dropPlans
  (repeat' split) <;> simp
@[simp] theorem count_drillWrap (before : LoopMode) (s : State) (p : PortId) :
    (drillWrap before s p).loop.count = s.loop.count := by
  unfold drillWrap
  simp only
  (repeat' split) <;> simp
@[simp] theorem count_afterLoop (c : LoopCause) (old : State) (s : State) :
    (afterLoop c old s).loop.count = s.loop.count := by
  unfold afterLoop
  simp only
  (repeat' split) <;> simp
@[simp] theorem count_loseItem (s : State) (i : QItem) : (loseItem s i).loop.count = s.loop.count := by
  unfold loseItem
  simp only
  (repeat' split) <;> simp
@[simp] theorem count_emptyQueue (s : State) : (emptyQueue s).loop.count = s.loop.count := by
  exact count_foldl (fun _ _ => by simp) _ _
@[simp] theorem count_loseHeal (op : Option Byte) (s : State) :
    (loseHeal op s).loop.count = s.loop.count := by
  unfold loseHeal
  split <;> simp
@[simp] theorem count_loseEntry (s : State) (p : PendingSwitch) :
    (loseEntry s p).loop.count = s.loop.count := by
  unfold loseEntry
  (repeat' split) <;> simp
@[simp] theorem count_epochChange (g : OriginGroup) (r : OriginRole) (s : State) :
    (epochChange g r s).loop.count = s.loop.count := by
  simp
@[simp] theorem count_askSnapshot (g : OriginGroup) (s : State) :
    (askSnapshot g s).loop.count = s.loop.count := by
  unfold askSnapshot
  (repeat' split) <;> simp
@[simp] theorem count_adopt (g : OriginGroup) (s : State) : (adopt g s).loop.count = s.loop.count := by
  unfold adopt
  simp only [count_afterLoop, count_askSnapshot]
  split <;> simp
@[simp] theorem count_switchTo (g : OriginGroup) (ask : Bool) (s : State) :
    (switchTo g ask s).loop.count = s.loop.count := by
  unfold switchTo
  simp only [count_afterLoop]
  split <;> simp
@[simp] theorem count_yieldTo (g : OriginGroup) (s : State) : (yieldTo g s).loop.count = s.loop.count := by
  simp [yieldTo]
@[simp] theorem count_becomeOrigin (rank : Rank) (c : LoopCause) (s : State) :
    (becomeOrigin rank c s).loop.count = s.loop.count := by
  simp [becomeOrigin]
@[simp] theorem count_takeoverExpired (s : State) : (takeoverExpired s).loop.count = s.loop.count := by
  unfold takeoverExpired
  (repeat' split) <;> simp
@[simp] theorem count_originLost (s : State) : (originLost s).loop.count = s.loop.count := by
  unfold originLost
  simp
@[simp] theorem count_enterConflict (c : ConflictCause) (s : State) :
    (enterConflict c s).loop.count = s.loop.count := by
  unfold enterConflict
  simp only
  (repeat' split) <;> simp
@[simp] theorem count_modifyLink (n : NodeId) (p : PortId) (f : LinkEntry → LinkEntry) (s : State) :
    (modifyLink n p f s).loop.count = s.loop.count := by
  rfl
@[simp] theorem count_startReady (n : NodeId) (p : PortId) (s : State) :
    (startReady n p s).loop.count = s.loop.count := by
  rfl
@[simp] theorem count_ceaseReady (n : NodeId) (p : PortId) (s : State) :
    (ceaseReady n p s).loop.count = s.loop.count := by
  unfold ceaseReady
  (repeat' split) <;> simp
@[simp] theorem count_moveReady (n : NodeId) (p : PortId) (m : NodeId) (q : PortId) (s : State) :
    (moveReady n p m q s).loop.count = s.loop.count := by
  unfold moveReady
  (repeat' split) <;> simp
@[simp] theorem count_judgeEntry (s : State) (n : NodeId) (p : PortId) :
    (judgeEntry s n p).loop.count = s.loop.count := by
  unfold judgeEntry
  (repeat' split) <;> simp
@[simp] theorem count_judgeLinks (s : State) : (judgeLinks s).loop.count = s.loop.count := by
  unfold judgeLinks
  split
  · exact count_foldl (fun _ _ => by simp) _ _
  · rfl
@[simp] theorem count_clearPlan (l : Link) (s : State) : (clearPlan l s).loop.count = s.loop.count := by
  unfold clearPlan
  (repeat' split) <;> simp
@[simp] theorem count_sendUnwrap (l : Link) (s : State) : (sendUnwrap l s).loop.count = s.loop.count := by
  unfold sendUnwrap
  (repeat' split) <;> simp
@[simp] theorem count_healExpired (n : NodeId) (p : PortId) (s : State) :
    (healExpired n p s).loop.count = s.loop.count := by
  unfold healExpired
  (repeat' split) <;> simp
@[simp] theorem count_sendWrap (l : Link) (s : State) : (sendWrap l s).loop.count = s.loop.count := by
  unfold sendWrap
  (repeat' split) <;> simp
@[simp] theorem count_markLost (n : NodeId) (p : PortId) (partner : Option NodeId) (s : State) :
    (markLost n p partner s).loop.count = s.loop.count := by
  unfold markLost
  simp only
  (repeat' split) <;> simp
@[simp] theorem count_takeLinkNote (n : NodeId) (p : PortId) (st : LinkState) (marginal : Bool)
    (partner : Option NodeId) (group : Option OriginGroup) (s : State) :
    (takeLinkNote n p st marginal partner group s).loop.count = s.loop.count := by
  unfold takeLinkNote
  simp only
  (repeat' split) <;> simp
@[simp] theorem count_pushLinkNote (p : PortId) (s : State) : (pushLinkNote p s).loop.count = s.loop.count := by
  unfold pushLinkNote
  (repeat' split) <;> simp
@[simp] theorem count_wrapStep (p : PortId) (was : Bool) (s : State) :
    (wrapStep p was s).loop.count = s.loop.count := by
  unfold wrapStep
  simp only
  (repeat' split) <;> simp
@[simp] theorem count_markUsable (p : PortId) (s : State) : (markUsable p s).loop.count = s.loop.count := by
  unfold markUsable
  (repeat' split) <;> simp
@[simp] theorem count_portEvent (p : PortId) (old : PortRec) (s : State) :
    (portEvent p old s).loop.count = s.loop.count := by
  unfold portEvent
  simp only
  (repeat' split) <;> simp
@[simp] theorem count_applyWrapPlan (sender : NodeId) (l : Link) (s : State) :
    (applyWrapPlan sender l s).loop.count = s.loop.count := by
  unfold applyWrapPlan
  simp only
  (repeat' split) <;> simp
@[simp] theorem count_healApplied (l : Link) (op : Option Byte) (s : State) :
    (healApplied l op s).loop.count = s.loop.count := by
  unfold healApplied
  (repeat' split) <;> simp
@[simp] theorem count_applyUnwrapPlan (sender : NodeId) (l : Link) (op : Option Byte) (s : State) :
    (applyUnwrapPlan sender l op s).loop.count = s.loop.count := by
  unfold applyUnwrapPlan
  simp only
  (repeat' split) <;> simp
@[simp] theorem count_mergeRelease (p : PortId) (s : State) : (mergeRelease p s).loop.count = s.loop.count := by
  unfold mergeRelease
  simp
@[simp] theorem count_applySwitch (p : PendingSwitch) (s : State) :
    (applySwitch p s).loop.count = s.loop.count := by
  unfold applySwitch
  (repeat' split) <;> simp
@[simp] theorem count_dropPending (n : NodeId) (s : State) : (dropPending n s).loop.count = s.loop.count := by
  rfl
@[simp] theorem count_applyPending (n : NodeId) (s : State) : (applyPending n s).loop.count = s.loop.count := by
  unfold applyPending
  (repeat' split) <;> simp
@[simp] theorem count_applyDue (s : State) : (applyDue s).loop.count = s.loop.count := by
  exact count_foldl (fun _ _ => by simp) _ _
@[simp] theorem count_enterSwitch (p : PendingSwitch) (s : State) :
    (enterSwitch p s).loop.count = s.loop.count := by
  unfold enterSwitch
  simp
@[simp] theorem count_nodeLeaves (s : State) (n : NodeId) : (nodeLeaves s n).loop.count = s.loop.count := by
  unfold nodeLeaves
  simp
@[simp] theorem count_setCopy (serial : Serial) (entries : List MapEntry) (s : State) :
    (setCopy serial entries s).loop.count = s.loop.count := by
  unfold setCopy
  simp only
  (repeat' split) <;> (try simp) <;> exact count_foldl (fun _ _ => by simp) _ _
@[simp] theorem count_takeMap (serial : Serial) (entries : List MapEntry) (s : State) :
    (takeMap serial entries s).loop.count = s.loop.count := by
  unfold takeMap
  (repeat' split) <;> simp
@[simp] theorem count_publishMap (s : State) : (publishMap s).loop.count = s.loop.count := by
  unfold publishMap
  (repeat' split) <;> simp
@[simp] theorem count_circuitMap (hops : List Hop) (s : State) :
    (circuitMap hops s).loop.count = s.loop.count := by
  unfold circuitMap
  simp only
  (repeat' split) <;> simp
@[simp] theorem count_notifyPort (p : PortId) (c : PortCause) (s : State) :
    (notifyPort p c s).loop.count = s.loop.count := by
  unfold notifyPort
  simp
@[simp] theorem count_endDrill (p : PortId) (d : DrillRec) (v : Verdict) (back : Option FrameNo) (s : State) :
    (endDrill p d v back s).loop.count = s.loop.count := by
  unfold endDrill
  simp
@[simp] theorem count_commitBase (p : PortId) (c : PortCause) (r : PortRec) (s : State) :
    (commitBase p c r s).loop.count = s.loop.count := by
  unfold commitBase
  simp only
  (repeat' split) <;> simp
@[simp] theorem count_overtakeDrill (p : PortId) (s : State) :
    (overtakeDrill p s).loop.count = s.loop.count := by
  unfold overtakeDrill
  simp only
  (repeat' split) <;> simp
@[simp] theorem count_commit (p : PortId) (c : PortCause) (r : PortRec) (s : State) :
    (commit p c r s).loop.count = s.loop.count := by
  unfold commit
  simp only
  (repeat' split) <;> simp
@[simp] theorem count_lightMeasured (p : PortId) (milliDbm : Option Int) (s : State) :
    (lightMeasured p milliDbm s).loop.count = s.loop.count := by
  unfold lightMeasured
  simp only
  (repeat' split) <;> simp
@[simp] theorem count_reOffer (p : PortId) (c : PortCause) (f : Option LinkField) (r : PortRec) (s : State) :
    (reOffer p c f r s).loop.count = s.loop.count := by
  unfold reOffer
  simp only
  (repeat' split) <;> simp
@[simp] theorem count_upFrame (p : PortId) (f : Option LinkField) (r : PortRec) (s : State) :
    (upFrame p f r s).loop.count = s.loop.count := by
  unfold upFrame
  (repeat' split) <;> simp
@[simp] theorem count_mismatchFrame (p : PortId) (f : Option LinkField) (r : PortRec) (s : State) :
    (mismatchFrame p f r s).loop.count = s.loop.count := by
  unfold mismatchFrame
  (repeat' split) <;> simp
@[simp] theorem count_alignFrame (p : PortId) (r : PortRec) (s : State) :
    (alignFrame p r s).loop.count = s.loop.count := by
  unfold alignFrame
  (repeat' split) <;> simp
@[simp] theorem count_goodFrame (p : PortId) (f : Option LinkField) (now : Nanos) (s : State) :
    (goodFrame p f now s).loop.count = s.loop.count := by
  unfold goodFrame
  simp only
  (repeat' split) <;> simp
@[simp] theorem count_alignedBad (p : PortId) (s : State) : (alignedBad p s).loop.count = s.loop.count := by
  unfold alignedBad
  simp only
  (repeat' split) <;> simp
@[simp] theorem count_failedFrame (p : PortId) (s : State) : (failedFrame p s).loop.count = s.loop.count := by
  unfold failedFrame
  simp only
  (repeat' split) <;> simp
@[simp] theorem count_missingFrame (p : PortId) (s : State) : (missingFrame p s).loop.count = s.loop.count := by
  unfold missingFrame
  (repeat' split) <;> simp
@[simp] theorem count_settleExpired (p : PortId) (s : State) :
    (settleExpired p s).loop.count = s.loop.count := by
  unfold settleExpired
  simp only
  (repeat' split) <;> simp
@[simp] theorem count_offerExpired (p : PortId) (s : State) : (offerExpired p s).loop.count = s.loop.count := by
  unfold offerExpired
  simp only
  (repeat' split) <;> simp
@[simp] theorem count_relockExpired (p : PortId) (s : State) :
    (relockExpired p s).loop.count = s.loop.count := by
  unfold relockExpired
  simp only
  (repeat' split) <;> simp
@[simp] theorem count_windowEnded (p : PortId) (s : State) : (windowEnded p s).loop.count = s.loop.count := by
  unfold windowEnded
  simp only
  (repeat' split) <;> simp
@[simp] theorem count_drillExpired (p : PortId) (s : State) : (drillExpired p s).loop.count = s.loop.count := by
  unfold drillExpired
  simp only
  (repeat' split) <;> simp
@[simp] theorem count_startDrill (p : PortId) (ms : Nat) (tag : Byte) (s : State) :
    (startDrill p ms tag s).loop.count = s.loop.count := by
  unfold startDrill
  simp
@[simp] theorem count_enterReceived (owner : NodeId) (h : Header) (item : SwitchItem) (frame : FrameNo)
    (s : State) :
    (enterReceived owner h item frame s).loop.count = s.loop.count := by
  unfold enterReceived
  (repeat' split) <;> simp
@[simp] theorem count_takeAllot (owner : NodeId) (h : Header) (m : Message) (serial : Serial) (s : State) :
    (takeAllot owner h m serial s).loop.count = s.loop.count := by
  unfold takeAllot
  (repeat' split) <;> simp
@[simp] theorem count_supersede (owner : NodeId) (s : State) :
    (supersede owner s).loop.count = s.loop.count := by
  unfold supersede
  (repeat' split) <;> simp
@[simp] theorem count_takeSnap (owner : NodeId) (h : Header) (m : Message) (serial : Serial) (piece : Nat)
    (entries : List SlotEntry) (s : State) :
    (takeSnap owner h m serial piece entries s).loop.count = s.loop.count := by
  unfold takeSnap
  (repeat' split) <;> simp
@[simp] theorem count_takeSlotAnswer (tag : Byte) (results : List PairResult) (s : State) :
    (takeSlotAnswer tag results s).loop.count = s.loop.count := by
  unfold takeSlotAnswer
  (repeat' split) <;> simp
@[simp] theorem count_takeRestart (epoch : Epoch) (s : State) :
    (takeRestart epoch s).loop.count = s.loop.count := by
  unfold takeRestart
  (repeat' split) <;> simp
@[simp] theorem count_actOn (owner : NodeId) (h : Header) (m : Message) (s : State) :
    (actOn owner h m s).loop.count = s.loop.count := by
  unfold actOn
  (repeat' split) <;> simp
@[simp] theorem count_readCell (h : Header) (s : State) (owner : NodeId) (c : Option Message) :
    (readCell h s owner c).loop.count = s.loop.count := by
  unfold readCell
  (repeat' split) <;> simp
@[simp] theorem count_readCells (f : Frame) (s : State) : (readCells f s).loop.count = s.loop.count := by
  exact count_foldl (fun _ _ => by simp) _ _
@[simp] theorem count_advancePiece (s : State) : (advancePiece s).loop.count = s.loop.count := by
  unfold advancePiece
  simp only
  (repeat' split) <;> simp
@[simp] theorem count_tellConfirmed (f : Frame) (s : State) :
    (tellConfirmed f s).loop.count = s.loop.count := by
  unfold tellConfirmed
  (repeat' split) <;> simp
@[simp] theorem count_confirmHead (s : State) : (confirmHead s).loop.count = s.loop.count := by
  unfold confirmHead
  (repeat' split) <;> simp
@[simp] theorem count_assess (f : Frame) (s : State) : (assess f s).loop.count = s.loop.count := by
  unfold assess
  (repeat' split) <;> simp
@[simp] theorem count_dropEffect (i : QItem) (s : State) : (dropEffect i s).loop.count = s.loop.count := by
  unfold dropEffect
  (repeat' split) <;> simp
@[simp] theorem count_dropSpent (s : State) : (dropSpent s).loop.count = s.loop.count := by
  unfold dropSpent
  simp only
  (repeat' split) <;> simp
@[simp] theorem count_dropStale (s : State) : (dropStale s).loop.count = s.loop.count := by
  rfl
@[simp] theorem count_admitMap (s : State) : (admitMap s).loop.count = s.loop.count := by
  unfold admitMap
  (repeat' split) <;> simp
@[simp] theorem count_admitNotes (s : State) : (admitNotes s).loop.count = s.loop.count := by
  unfold admitNotes
  simp only
  (repeat' split) <;> simp
@[simp] theorem count_admitUnwrap (s : State) (l : Link) : (admitUnwrap s l).loop.count = s.loop.count := by
  unfold admitUnwrap
  (repeat' split) <;> simp
@[simp] theorem count_admitOwed (s : State) : (admitOwed s).loop.count = s.loop.count := by
  unfold admitOwed
  simp only [count_admitLockNote]
  rw [count_foldl (fun _ _ => by simp), count_admitNotes, count_admitMap, count_foldl (fun _ _ => by simp),
    count_foldl (fun _ _ => by simp)]
@[simp] theorem count_firstSend (i : QItem) (s : State) : (firstSend i s).loop.count = s.loop.count := by
  unfold firstSend
  (repeat' split) <;> simp
@[simp] theorem count_setHead (i : QItem) (s : State) : (setHead i s).loop.count = s.loop.count := by
  rfl
@[simp] theorem count_visitRead (f : Frame) (s : State) : (visitRead f s).loop.count = s.loop.count := by
  unfold visitRead
  simp
@[simp] theorem count_noteVisit (h : Header) (s : State) : (noteVisit h s).loop.count = s.loop.count := by
  rfl
@[simp] theorem count_route (p : PortId) (f : Frame) (s : State) : (route p f s).loop.count = s.loop.count := by
  unfold route
  (repeat' split) <;> simp
@[simp] theorem count_relay (p : PortId) (f : Frame) (s : State) : (relay p f s).loop.count = s.loop.count := by
  unfold relay
  (repeat' split) <;> simp
@[simp] theorem count_hearFollowed (p : PortId) (s : State) : (hearFollowed p s).loop.count = s.loop.count := by
  unfold hearFollowed
  (repeat' split) <;> simp
@[simp] theorem count_circuitEnd (f : Frame) (now : Nanos) (s : State) :
    (circuitEnd f now s).loop.count = s.loop.count := by
  unfold circuitEnd
  (repeat' split) <;> simp
@[simp] theorem count_ownIdFrame (p : PortId) (f : Frame) (now : Nanos) (s : State) :
    (ownIdFrame p f now s).loop.count = s.loop.count := by
  unfold ownIdFrame
  simp only
  (repeat' split) <;> simp
@[simp] theorem count_markArrived (p : PortId) (a : Arrival) (s : State) :
    (markArrived p a s).loop.count = s.loop.count := by
  unfold markArrived
  simp only
  (repeat' split) <;> simp
@[simp] theorem count_takeEpoch (s : State) : (takeEpoch s).loop.count = s.loop.count := by
  unfold takeEpoch
  split <;> simp
@[simp] theorem count_sendOriginated (f : Frame) (now : Nanos) (s : State) :
    (sendOriginated f now s).loop.count = s.loop.count := by
  unfold sendOriginated
  simp only
  (repeat' split) <;> simp
@[simp] theorem count_transmit (now : Nanos) (s : State) (p : PortId) :
    (transmit now s p).loop.count = s.loop.count := by
  unfold transmit
  simp only
  (repeat' split) <;> simp
@[simp] theorem count_stopTakeover (s : State) : (stopTakeover s).loop.count = s.loop.count := by
  unfold stopTakeover
  (repeat' split) <;> simp
@[simp] theorem count_modeCheck (s : State) : (modeCheck s).loop.count = s.loop.count := by
  unfold modeCheck
  (repeat' split) <;> simp
@[simp] theorem count_settle (s : State) : (settle s).loop.count = s.loop.count := by
  unfold settle
  simp
@[simp] theorem count_choose (c : Option Chosen) (s : State) : (choose c s).loop.count = s.loop.count := by
  rfl
@[simp] theorem count_pickUart (s : State) : (pickUart s).loop.count = s.loop.count := by
  unfold pickUart
  (repeat' split) <;> simp
@[simp] theorem count_leaveHeld (s : State) : (leaveHeld s).loop.count = s.loop.count := by
  unfold leaveHeld
  (repeat' split) <;> simp
@[simp] theorem count_rebuildOuts (s : State) : (rebuildOuts s).loop.count = s.loop.count := by
  rfl

/-! ### Where it is set (R2) -/

@[simp] theorem count_setCount (c : FrameNo) (s : State) : (setCount c s).loop.count = c := by
  simp [setCount]
@[simp] theorem count_visitStart (h : Header) (s : State) : (visitStart h s).loop.count = h.count := by
  simp [visitStart]
@[simp] theorem count_stampHead (i : QItem) (s : State) : (stampHead i s).2.loop.count = s.loop.count := by
  unfold stampHead
  split <;> simp
@[simp] theorem count_sendHead (h : Header) (s : State) : (sendHead h s).1.loop.count = s.loop.count := by
  unfold sendHead
  split
  · rfl
  · simp only [count_setHead]
    (repeat' split) <;> simp
@[simp] theorem count_stampSnap (r : SnapRun) (s : State) : (stampSnap r s).2.loop.count = s.loop.count := by
  unfold stampSnap
  split <;> simp
@[simp] theorem count_sendPiece (h : Header) (s : State) : (sendPiece h s).1.loop.count = s.loop.count := by
  unfold sendPiece
  split
  · rfl
  · simp only
    split <;> simp
@[simp] theorem count_chooseCell (h : Header) (s : State) : (chooseCell h s).1.loop.count = s.loop.count := by
  unfold chooseCell sendRestart
  (repeat' split) <;> simp
@[simp] theorem count_writeCell (f : Frame) (s : State) : (writeCell f s).1.loop.count = s.loop.count := by
  unfold writeCell
  simp only
  split <;> simp
@[simp] theorem count_firstVisit (f : Frame) (d : Direction) (s : State) :
    (firstVisit f d s).1.loop.count = f.header.count := by
  simp [firstVisit, visitWrite]
@[simp] theorem count_originate (now : Nanos) (s : State) :
    (originate now s).loop.count = s.loop.count + 1 := by
  unfold originate
  simp only
  split
  · simp
  · simp [buildFrame]

end Sys2Proof.Machine
end

