-- ==== Sys2Proof/Laws/Events.lean ====
section
/-! SUPPORT. How a statement about one event is closed: an event without an effect, one whose change is known,
one whose change and notices are known apart; the end of an operation; a loop change that moves no mode; the rows of
an output's fade by whether it ends. -/

namespace Sys2Proof.Machine

open Sys2Proof

/-- An event whose effect leaves a settled state as it is. -/
theorem event_nothing {f : State → State} {s : State} (h : s.inReset = false) (hs : Settled s) (e : f s = s) :
    ∃ t, done f s = .next t ∧ Happened [] s s t :=
  event_happened_settled h e hs (.refl s) rfl rfl rfl rfl

/-- An event whose effect is a settled state with the same Control Port. -/
theorem event_changed {f : State → State} {s u : State} (h : s.inReset = false) (e : f s = u) (hu : Settled u)
    (hc : u.ctl = s.ctl) (hst : u.start.line = s.start.line) : ∃ t, done f s = .next t ∧ Happened [] s u t :=
  event_happened_settled h e hu ((Raised.refl s).of_eq rfl rfl (by rw [hc]) (by rw [hc])) (by rw [hc]) (by rw [hc])
    (by rw [hc]) hst

/-- An event whose effect `v` holds the blocks of `u` and has raised the notices `l`. -/
theorem event_noticed {f : State → State} {s u v : State} {l : List Notice} (h : s.inReset = false) (e : f s = v)
    (hv : Settled v) (hr : Raised l s v) (hb : SameBlocks u v) (ho : v.ctl.inbox = s.ctl.inbox)
    (hm : v.ctl.made = s.ctl.made) (hc : v.ctl.chosen = s.ctl.chosen) (hst : v.start.line = s.start.line) :
    ∃ t, done f s = .next t ∧ Happened l s u t := by
  obtain ⟨t, h1, h2⟩ := event_happened_settled h e hv hr ho hm hc hst
  refine ⟨t, h1, ⟨?_, hb.trans h2.blocks, h2.inbox, h2.made, h2.delivery, h2.waiting⟩⟩
  have k : u.safety = v.safety := hb.safety.symm
  rw [k]
  exact h2.notices

/-- A notice moves no block, no reply and no delivery. -/
theorem notify_same (n : Notice) (s : State) : SameBlocks s (notify n s) ∧
    (notify n s).ctl.inbox = s.ctl.inbox ∧ (notify n s).ctl.made = s.ctl.made ∧
    (notify n s).ctl.chosen = s.ctl.chosen := by
  obtain ⟨l, b, d, h⟩ := notify_eq n s
  rw [h]
  exact ⟨⟨rfl, rfl, rfl, rfl, rfl, rfl, rfl, rfl, rfl, rfl, rfl, rfl, rfl, rfl, rfl, rfl, rfl, rfl, rfl⟩, rfl, rfl, rfl⟩

/-! ### Operations that end (R184) -/

/-- The operation found under a tag has that tag. -/
theorem findOp_tag {tag : Byte} {s : State} {o : Operation} (h : findOp tag s = some o) : o.tag = tag := by
  unfold findOp at h
  obtain ⟨x, _, hx⟩ := List.exists_of_findSome?_eq_some h
  cases x with
  | none => simp at hx
  | some y =>
    simp only at hx
    split at hx
    · cases hx
      assumption
    · cases hx

/-- The end of an operation is a DONE beside the moved entry. -/
theorem endOp_eq {a : State} {tag : Byte} {v : Verdict} {r : OpResult} {o : Operation} (hf : findOp tag a = some o) :
    endOp tag v r a = notify (.done tag o.kind v r) { a with ctl := (opEnded ⟨tag, o.kind, v, r⟩ a.ctl) } := by
  unfold endOp opEnded
  rw [hf]
  simp only
  congr 4
  funext x
  cases x with
  | none => rfl
  | some y => by_cases h : y.tag = tag <;> simp [h, Option.filter]

/-- What the end of an operation moves and raises. -/
theorem endOp_raised {a : State} {tag : Byte} {v : Verdict} {r : OpResult} {o : Operation}
    (hf : findOp tag a = some o) :
    SameBlocks { a with ctl := (opEnded ⟨tag, o.kind, v, r⟩ a.ctl) } (endOp tag v r a) ∧
    Raised [.done tag o.kind v r] a (endOp tag v r a) ∧ (endOp tag v r a).ctl.inbox = a.ctl.inbox ∧
    (endOp tag v r a).ctl.made = a.ctl.made ∧ (endOp tag v r a).ctl.chosen = a.ctl.chosen := by
  rw [endOp_eq hf]
  obtain ⟨h1, h2, h3, h4⟩ := notify_same (.done tag o.kind v r) { a with ctl := (opEnded ⟨tag, o.kind, v, r⟩ a.ctl) }
  exact ⟨h1, .notify_of _ rfl rfl, h2, h3, h4⟩

/-- The end of an operation leaves a settled state settled. -/
theorem endOp_settled {a : State} {tag : Byte} {v : Verdict} {r : OpResult} (h : Settled a) :
    Settled (endOp tag v r a) := by
  cases hf : findOp tag a with
  | none =>
    unfold endOp
    rw [hf]
    exact h
  | some o =>
    rw [endOp_eq hf]
    exact notify_settled _ ⟨h.1, h.2, h.3, h.4, h.5, h.6⟩

/-! ### Loop changes and folds -/

/-- A change of the loop record that moves neither mode, role, group nor wraps leaves a settled state as it is. -/
theorem afterLoop_still {c : LoopCause} {old s : State} (h : Settled s) (hm : loopMode old = loopMode s)
    (hr : s.loop.role = old.loop.role) (hg : s.loop.group = old.loop.group) (ha : s.loop.wrapA = old.loop.wrapA)
    (hb : s.loop.wrapB = old.loop.wrapB) : afterLoop c old s = s := by
  have h1 : takeoverCheck (loopMode old) s = s := by
    unfold takeoverCheck
    rw [hm]
    split
    · rename_i k
      have e : s.loop.takeover = none := by
        cases ht : s.loop.takeover
        · rfl
        · exact absurd (h.takeover (by simp [ht])) (by simpa using k)
      rw [← e]
    · rename_i k
      rw [if_neg]
      simp only [bne_iff_ne, ne_eq, Decidable.not_not] at k
      simp [k]
  have h2 : dropPlans (loopMode old) s = s := by
    unfold dropPlans
    rw [hm, if_neg]
    simp
  have h3 (p : PortId) : drillWrap (loopMode old) s p = s := by
    unfold drillWrap
    simp only
    split
    · rfl
    · rw [if_neg]
      rw [hm]
      simp
  have h4 : (if modeLosesCopy s then loseCurrency s else s) = s := by
    split
    · rename_i k
      exact loseCurrency_self (h.copy k)
    · rfl
  have h5 : retryCheck (rejudge s) = s := by
    rw [rejudge_self h]
    exact retryCheck_self h.retry
  unfold afterLoop
  simp only [h1, h2, h3, h4, h5]
  rw [if_neg]
  simp [viewChanged, wrapsChanged, hm, hr, hg, ha, hb]

/-- Where the fade-out of the named output ends, all that end do (R160). -/
theorem fadeOutEnds_due {i : Nat} {r : OutRec} {s : State} (h : s.safety.outs[i]? = some r) (d : fadeOutDue r = true) :
    fadeOutEnds i s = mapOuts (fun _ t q => endFadeOut (outCtx s t) q) s := by
  simp [fadeOutEnds, h, d]
/-- Where it does not, nothing changes. -/
theorem fadeOutEnds_idle {i : Nat} {s : State} (h : ∀ r, s.safety.outs[i]? = some r → fadeOutDue r = false) :
    fadeOutEnds i s = s := by
  unfold fadeOutEnds
  cases e : s.safety.outs[i]? <;> simp_all
/-- Where the fade-in of the named output ends, all that end do (R160). -/
theorem fadeInEnds_due {i : Nat} {r : OutRec} {s : State} (h : s.safety.outs[i]? = some r)
    (d : fadeInDue (outCtx s (tapAt s i)) r = true) :
    fadeInEnds i s = mapOuts (fun _ t q => endFadeIn (outCtx s t) q) s := by
  simp [fadeInEnds, h, d]
/-- Where it does not, nothing changes. -/
theorem fadeInEnds_idle {i : Nat} {s : State}
    (h : ∀ r, s.safety.outs[i]? = some r → fadeInDue (outCtx s (tapAt s i)) r = false) : fadeInEnds i s = s := by
  unfold fadeInEnds
  cases e : s.safety.outs[i]? <;> simp_all

/-- A fold whose every step leaves the state as it is. -/
theorem foldl_still {α : Type} (f : State → α → State) (l : List α) {s : State} (h : ∀ x, f s x = s) :
    l.foldl f s = s := by
  induction l with
  | nil => rfl
  | cons x l ih => rw [List.foldl_cons, h, ih]

end Sys2Proof.Machine
end

