-- ==== Sys2Proof/WellFormed.lean ====
section
/-! DEFINITION. Which commands can reach the block: what a frame of the line can hold (R2 to R6), what the
fields of a request can hold (11.7), and which numbers name an input, an output or a port's timer. A value
that a request can carry but its rule does not accept is no ill-formed command: the request is refused. -/

namespace Sys2Proof

/-- A loop lock level (R3). -/
def lockFits (n : Nat) : Bool := decide (n ≤ 3)

/-- A header: a lock level of R162, a visited set without a repeat, a hop list of at most 8 entries
(R3). -/
def headerFits (h : Header) : Bool :=
  lockFits h.lock && decide h.visited.Nodup && decide (h.hops.length ≤ 8)

/-- The slots of a frame's slot area by its rate (R1, R7). -/
def slotsFit (r : Rate) (l : List Sample) : Bool :=
  match r with
  | .k48 => decide (l.length = 256)
  | .k96 => decide (l.length = 128)

/-- A message of a cell: the entries of a MAP have a position and a direction (R19, R58). -/
def messageFits (m : Message) : Bool :=
  match m.body with
  | .map _ entries => entries.all fun e => e.pos.isSome && e.dir.isSome
  | _ => true

/-- A frame: eight cells (R2), a slot area of its rate or none (R6). -/
def frameFits (f : Frame) : Bool :=
  headerFits f.header && decide (f.cells.length = 8) && (f.cells.all fun c => c.all messageFits) &&
    match f.slots with
    | none => true
    | some l => slotsFit f.header.rate l

/-- A number of one byte, of two bytes, signed of one byte, signed of two bytes (11.7). -/
def fits8 (n : Nat) : Bool := decide (n < 256)
def fits16 (n : Nat) : Bool := decide (n < 65536)
def fitsS8 (x : Int) : Bool := decide (-128 ≤ x) && decide (x ≤ 127)
def fitsS16 (x : Int) : Bool := decide (-32768 ≤ x) && decide (x ≤ 32767)

def thresholdFieldsFit (f : ThresholdFields) : Bool :=
  f.loss.all fitsS16 && f.marginal.all fitsS16 &&
    f.hyst.all (fun x => decide (0 ≤ x) && decide (x ≤ 255)) && f.settle.all fits16

def sourceFits : TapSource → Bool
  | .unused | .talkOnly => true
  | .slot n => fits8 n
  | .loc n => fits8 n

def safeFits : SafeMode → Bool
  | .mute => true
  | .fallback n => fits8 n

def tapFieldsFit (f : TapFields) : Bool :=
  f.source.all sourceFits && f.trim.all fitsS8 && f.dimDepth.all fitsS8 && f.safe.all safeFits &&
    f.fade.all fits16

def keyFieldsFit (f : KeyFields) : Bool :=
  f.source.all fits8 && f.priority.all fits8 && f.settle.all fits8 && f.tap.all fits16

def outputsCarried : OutputSel → Bool
  | .all => true
  | .list l => fits8 l.length && l.all fits8

def healFits : HealTarget → Bool
  | .any => true
  | .linkEnd n _ => fits8 n

/-- A kind byte that names no request of the catalogue (R180). -/
def kindUnknown (k : Byte) : Bool := decide (k = 0) || decide (30 < k.toNat)

/-- The command can reach the block. -/
def Instr.wf : Instr → Bool
  | .status _ | .readPort _ _ | .setRate _ _ | .go _ | .resetPart _ | .loopReset _ | .talkPress _ _
  | .talkLift _ _ => true
  | .readTable _ _ cursor => fits8 cursor
  | .setNode _ id _ _ => id.all fits8
  | .setLoopName _ name => fits16 name
  | .setThresholds _ _ f => thresholdFieldsFit f
  | .drill _ _ ms => fits16 ms
  | .setRecovery _ f => f.healDelay.all fits16 && f.takeover.all fits16
  | .setSwitchLead _ n => fits16 n
  | .heal _ t => healFits t
  | .claimSlot _ pairs => fits8 pairs.length && pairs.all fun p => p.slot.all fits8 && fits8 p.input
  | .releaseSlot _ slots _ => fits8 slots.length && slots.all fits8
  | .setTap _ tap f => fits8 tap && tapFieldsFit f
  | .setTrackRef _ tap gain => fits8 tap && fits8 gain
  | .setGain _ node input f _ => node.all fits8 && fits8 input && f.gain.all fits8
  | .claimGain _ node input _ => fits8 node && fits8 input
  | .yieldGain _ node input => fits8 node && fits8 input
  | .setPhantomMute _ ms => fits16 ms
  | .setKey _ _ f => keyFieldsFit f
  | .resume _ outs => outputsCarried outs
  | .forceSafe _ outs _ => outputsCarried outs
  | .setSafety _ hold filter => hold.all fits16 && filter.all fits8
  | .setLock _ level => fits8 level
  | .setSupervision _ ms => fits16 ms
  | .unknownRequest _ kind => kindUnknown kind
  | .spiSelectFall | .spiTransactionEnd _ | .uartFrameReceive _ | .uartGapTimeout | .uartFrameSent
  | .uartByteArrival _ => true
  | .powerReset | .powerResetRelease _ _ | .pinReset | .pinResetRelease _ => true
  | .framePeriod inp => decide (inp.lanes.length = 64)
  | .preampRecordSend | .lightMeasurement _ _ | .alignLost _ | .marginalSet _ => true
  | .portFrameReceive _ arr | .aligned _ arr | .joined _ arr | .remoteFaultSet _ arr
  | .mapAbsenceLimit _ arr => frameFits arr.frame
  | .settleTimerExpiry _ | .offerTimerExpiry _ | .relockTimerExpiry _ | .errorWindowEnd _
  | .drillTimerExpiry _ | .originTimeout | .takeoverTimerExpiry | .itemDrop | .owedAdmit
  | .snapshotStart | .switchApply _ | .currencyRetryExpiry | .healTimerExpiry _ _ | .restartWrite _
  | .restartEpochTake _ | .keyInputChange _ _ | .keySettleExpiry _ | .keyAnswerTimeout _
  | .panicInputChange _ | .panicFilterExpiry | .silenceTimerExpiry | .operationAnswerTimeout _
  | .goTimeout _ => true
  | .phantomMuteExpiry input => decide (input < 64)
  | .fadeOutEnd out | .fadeInEnd out | .resumeHoldExpiry out => decide (out < 64)

end Sys2Proof
end

