-- ==== Sys2Proof/Laws/PerInstr.lean ====
section
/-! SUPPORT. Per command: a host request's row stands in the catalogue (11.6) under a kind the byte parser
knows and that is not an unknown kind; no other row stands there. -/

namespace Sys2Proof.Laws.Catalogue

open Sys2Proof Sys2Proof.Machine

/-- A command's number in the catalogue of requests (11.6). -/
def number : Instr → Option Nat
  | .status _ => some 1
  | .readTable _ _ _ => some 2
  | .readPort _ _ => some 3
  | .setNode _ _ _ _ => some 4
  | .setRate _ _ => some 5
  | .setLoopName _ _ => some 6
  | .go _ => some 7
  | .resetPart _ => some 8
  | .setThresholds _ _ _ => some 9
  | .drill _ _ _ => some 10
  | .setRecovery _ _ => some 11
  | .setSwitchLead _ _ => some 12
  | .heal _ _ => some 13
  | .loopReset _ => some 14
  | .claimSlot _ _ => some 15
  | .releaseSlot _ _ _ => some 16
  | .setTap _ _ _ => some 17
  | .setTrackRef _ _ _ => some 18
  | .setGain _ _ _ _ _ => some 19
  | .claimGain _ _ _ _ => some 20
  | .yieldGain _ _ _ => some 21
  | .setPhantomMute _ _ => some 22
  | .setKey _ _ _ => some 23
  | .talkPress _ _ => some 24
  | .talkLift _ _ => some 25
  | .resume _ _ => some 26
  | .forceSafe _ _ _ => some 27
  | .setSafety _ _ _ => some 28
  | .setLock _ _ => some 29
  | .setSupervision _ _ => some 30
  | _ => none

/-- A command with a number in the catalogue has a parser of its body, and its kind is a known one. -/
def Statement (i : Instr) : Prop :=
  ∀ k, number i = some k → ∀ t, (requestParser t k).isSome = true ∧ kindUnknown (BitVec.ofNat 8 k) = false

theorem status u : Statement (.status u) := by
  intro k h t; cases h; exact ⟨rfl, rfl⟩
theorem readTable u v w : Statement (.readTable u v w) := by
  intro k h t; cases h; exact ⟨rfl, rfl⟩
theorem readPort u v : Statement (.readPort u v) := by
  intro k h t; cases h; exact ⟨rfl, rfl⟩
theorem setNode u v w x : Statement (.setNode u v w x) := by
  intro k h t; cases h; exact ⟨rfl, rfl⟩
theorem setRate u v : Statement (.setRate u v) := by
  intro k h t; cases h; exact ⟨rfl, rfl⟩
theorem setLoopName u v : Statement (.setLoopName u v) := by
  intro k h t; cases h; exact ⟨rfl, rfl⟩
theorem go u : Statement (.go u) := by
  intro k h t; cases h; exact ⟨rfl, rfl⟩
theorem resetPart u : Statement (.resetPart u) := by
  intro k h t; cases h; exact ⟨rfl, rfl⟩
theorem setThresholds u v w : Statement (.setThresholds u v w) := by
  intro k h t; cases h; exact ⟨rfl, rfl⟩
theorem drill u v w : Statement (.drill u v w) := by
  intro k h t; cases h; exact ⟨rfl, rfl⟩
theorem setRecovery u v : Statement (.setRecovery u v) := by
  intro k h t; cases h; exact ⟨rfl, rfl⟩
theorem setSwitchLead u v : Statement (.setSwitchLead u v) := by
  intro k h t; cases h; exact ⟨rfl, rfl⟩
theorem heal u v : Statement (.heal u v) := by
  intro k h t; cases h; exact ⟨rfl, rfl⟩
theorem loopReset u : Statement (.loopReset u) := by
  intro k h t; cases h; exact ⟨rfl, rfl⟩
theorem claimSlot u v : Statement (.claimSlot u v) := by
  intro k h t; cases h; exact ⟨rfl, rfl⟩
theorem releaseSlot u v w : Statement (.releaseSlot u v w) := by
  intro k h t; cases h; exact ⟨rfl, rfl⟩
theorem setTap u v w : Statement (.setTap u v w) := by
  intro k h t; cases h; exact ⟨rfl, rfl⟩
theorem setTrackRef u v w : Statement (.setTrackRef u v w) := by
  intro k h t; cases h; exact ⟨rfl, rfl⟩
theorem setGain u v w x y : Statement (.setGain u v w x y) := by
  intro k h t; cases h; exact ⟨rfl, rfl⟩
theorem claimGain u v w x : Statement (.claimGain u v w x) := by
  intro k h t; cases h; exact ⟨rfl, rfl⟩
theorem yieldGain u v w : Statement (.yieldGain u v w) := by
  intro k h t; cases h; exact ⟨rfl, rfl⟩
theorem setPhantomMute u v : Statement (.setPhantomMute u v) := by
  intro k h t; cases h; exact ⟨rfl, rfl⟩
theorem setKey u v w : Statement (.setKey u v w) := by
  intro k h t; cases h; exact ⟨rfl, rfl⟩
theorem talkPress u v : Statement (.talkPress u v) := by
  intro k h t; cases h; exact ⟨rfl, rfl⟩
theorem talkLift u v : Statement (.talkLift u v) := by
  intro k h t; cases h; exact ⟨rfl, rfl⟩
theorem resume u v : Statement (.resume u v) := by
  intro k h t; cases h; exact ⟨rfl, rfl⟩
theorem forceSafe u v w : Statement (.forceSafe u v w) := by
  intro k h t; cases h; exact ⟨rfl, rfl⟩
theorem setSafety u v w : Statement (.setSafety u v w) := by
  intro k h t; cases h; exact ⟨rfl, rfl⟩
theorem setLock u v : Statement (.setLock u v) := by
  intro k h t; cases h; exact ⟨rfl, rfl⟩
theorem setSupervision u v : Statement (.setSupervision u v) := by
  intro k h t; cases h; exact ⟨rfl, rfl⟩
theorem unknownRequest u v : Statement (.unknownRequest u v) := by
  intro k h; cases h
theorem spiSelectFall : Statement .spiSelectFall := by
  intro k h; cases h
theorem spiTransactionEnd u : Statement (.spiTransactionEnd u) := by
  intro k h; cases h
theorem uartFrameReceive u : Statement (.uartFrameReceive u) := by
  intro k h; cases h
theorem uartGapTimeout : Statement .uartGapTimeout := by
  intro k h; cases h
theorem uartFrameSent : Statement .uartFrameSent := by
  intro k h; cases h
theorem powerReset : Statement .powerReset := by
  intro k h; cases h
theorem powerResetRelease u v : Statement (.powerResetRelease u v) := by
  intro k h; cases h
theorem pinReset : Statement .pinReset := by
  intro k h; cases h
theorem pinResetRelease u : Statement (.pinResetRelease u) := by
  intro k h; cases h
theorem framePeriod u : Statement (.framePeriod u) := by
  intro k h; cases h
theorem preampRecordSend : Statement .preampRecordSend := by
  intro k h; cases h
theorem lightMeasurement u v : Statement (.lightMeasurement u v) := by
  intro k h; cases h
theorem portFrameReceive u v : Statement (.portFrameReceive u v) := by
  intro k h; cases h
theorem aligned u v : Statement (.aligned u v) := by
  intro k h; cases h
theorem alignLost u : Statement (.alignLost u) := by
  intro k h; cases h
theorem joined u v : Statement (.joined u v) := by
  intro k h; cases h
theorem remoteFaultSet u v : Statement (.remoteFaultSet u v) := by
  intro k h; cases h
theorem marginalSet u : Statement (.marginalSet u) := by
  intro k h; cases h
theorem settleTimerExpiry u : Statement (.settleTimerExpiry u) := by
  intro k h; cases h
theorem offerTimerExpiry u : Statement (.offerTimerExpiry u) := by
  intro k h; cases h
theorem relockTimerExpiry u : Statement (.relockTimerExpiry u) := by
  intro k h; cases h
theorem errorWindowEnd u : Statement (.errorWindowEnd u) := by
  intro k h; cases h
theorem drillTimerExpiry u : Statement (.drillTimerExpiry u) := by
  intro k h; cases h
theorem mapAbsenceLimit u v : Statement (.mapAbsenceLimit u v) := by
  intro k h; cases h
theorem originTimeout : Statement .originTimeout := by
  intro k h; cases h
theorem takeoverTimerExpiry : Statement .takeoverTimerExpiry := by
  intro k h; cases h
theorem itemDrop : Statement .itemDrop := by
  intro k h; cases h
theorem owedAdmit : Statement .owedAdmit := by
  intro k h; cases h
theorem snapshotStart : Statement .snapshotStart := by
  intro k h; cases h
theorem switchApply u : Statement (.switchApply u) := by
  intro k h; cases h
theorem currencyRetryExpiry : Statement .currencyRetryExpiry := by
  intro k h; cases h
theorem phantomMuteExpiry u : Statement (.phantomMuteExpiry u) := by
  intro k h; cases h
theorem healTimerExpiry u v : Statement (.healTimerExpiry u v) := by
  intro k h; cases h
theorem restartWrite u : Statement (.restartWrite u) := by
  intro k h; cases h
theorem restartEpochTake u : Statement (.restartEpochTake u) := by
  intro k h; cases h
theorem keyInputChange u v : Statement (.keyInputChange u v) := by
  intro k h; cases h
theorem keySettleExpiry u : Statement (.keySettleExpiry u) := by
  intro k h; cases h
theorem keyAnswerTimeout u : Statement (.keyAnswerTimeout u) := by
  intro k h; cases h
theorem panicInputChange u : Statement (.panicInputChange u) := by
  intro k h; cases h
theorem panicFilterExpiry : Statement .panicFilterExpiry := by
  intro k h; cases h
theorem fadeOutEnd u : Statement (.fadeOutEnd u) := by
  intro k h; cases h
theorem fadeInEnd u : Statement (.fadeInEnd u) := by
  intro k h; cases h
theorem resumeHoldExpiry u : Statement (.resumeHoldExpiry u) := by
  intro k h; cases h
theorem silenceTimerExpiry : Statement .silenceTimerExpiry := by
  intro k h; cases h
theorem operationAnswerTimeout u : Statement (.operationAnswerTimeout u) := by
  intro k h; cases h
theorem goTimeout u : Statement (.goTimeout u) := by
  intro k h; cases h
theorem uartByteArrival u : Statement (.uartByteArrival u) := by
  intro k h; cases h

end Sys2Proof.Laws.Catalogue
end

