-- ==== Sys2Proof/Tests/Slice0.lean ====
section
/-! SUPPORT. Own tests: what the well-formedness check refuses, a few steps on small states, and for every
obligation with hypotheses a state and operands that meet them, clause by clause. -/

namespace Sys2Proof.Machine.Tests

open Sys2Proof Sys2Proof.Machine

/-! The tests are checked one after another: each waits for the kernel, and a hundred waiting side by side
would each hold a thread. -/
set_option Elab.async false

/-! ### What the well-formedness check refuses -/

/-- A standby frame of a MASTER's group, to be made ill-formed. -/
def plain : Frame := ⟨⟨0, ⟨1, .master, 1⟩, 0, .k48, 0, [], []⟩, none, List.replicate 8 none, none⟩

theorem test_wf_plain : frameFits plain = true := by decide
theorem test_wf_lock : frameFits { plain with header := { plain.header with lock := 4 } } = false := by decide
theorem test_wf_visited : frameFits { plain with header := { plain.header with visited := [1, 1] } } = false := by
  decide
theorem test_wf_hops :
    frameFits { plain with header := { plain.header with hops := List.replicate 9 ⟨1, .forward⟩ } } = false := by
  decide
theorem test_wf_cells : frameFits { plain with cells := [] } = false := by decide
theorem test_wf_slots48 : frameFits { plain with slots := some (List.replicate 128 0) } = false := by
  decide +kernel
theorem test_wf_slots96 : frameFits { plain with
    header := { plain.header with rate := .k96 }, slots := some (List.replicate 256 0) } = false := by
  decide +kernel
theorem test_wf_arrival : (Instr.portFrameReceive .a ⟨{ plain with cells := [] }, 0, 0⟩).wf = false := by decide
theorem test_wf_loss : (Instr.setThresholds 0 .a ⟨some (-32769), none, none, none⟩).wf = false := by decide
theorem test_wf_marginal : (Instr.setThresholds 0 .a ⟨none, some 32768, none, none⟩).wf = false := by decide
theorem test_wf_hyst : (Instr.setThresholds 0 .a ⟨none, none, some 256, none⟩).wf = false := by decide
theorem test_wf_hyst_low : (Instr.setThresholds 0 .a ⟨none, none, some (-1), none⟩).wf = false := by decide
theorem test_wf_settle : (Instr.setThresholds 0 .a ⟨none, none, none, some 65536⟩).wf = false := by decide
theorem test_wf_bytes : ∀ c ∈ [Instr.readTable 0 .allot 256, .setNode 0 (some 256) none none,
    .setTrackRef 0 256 0, .setTrackRef 0 0 256, .claimGain 0 256 0 false, .claimGain 0 0 256 false,
    .yieldGain 0 256 0, .yieldGain 0 0 256, .setLock 0 256, .heal 0 (.linkEnd 256 .a),
    .setGain 0 (some 256) 0 ⟨none, none, none⟩ false, .setGain 0 none 256 ⟨none, none, none⟩ false,
    .setGain 0 none 0 ⟨some 256, none, none⟩ false, .claimSlot 0 [⟨some 256, 0⟩], .claimSlot 0 [⟨none, 256⟩],
    .releaseSlot 0 [256] false, .resume 0 (.list [256]), .forceSafe 0 (.list [256]) true,
    .setSafety 0 none (some 256)], c.wf = false := by decide
theorem test_wf_words : ∀ c ∈ [Instr.setLoopName 0 65536, .drill 0 .a 65536, .setSwitchLead 0 65536,
    .setRecovery 0 ⟨none, some 65536, none, none⟩, .setRecovery 0 ⟨none, none, some 65536, none⟩,
    .setPhantomMute 0 65536, .setSafety 0 (some 65536) none, .setSupervision 0 65536], c.wf = false := by decide
theorem test_wf_tap : ∀ f ∈ [(⟨some (.slot 256), none, none, none, none, none, none, none, none, none⟩ : TapFields),
    ⟨some (.loc 256), none, none, none, none, none, none, none, none, none⟩,
    ⟨none, none, some 128, none, none, none, none, none, none, none⟩,
    ⟨none, none, none, none, none, some (-129), none, none, none, none⟩,
    ⟨none, none, none, none, none, none, some (.fallback 256), none, none, none⟩,
    ⟨none, none, none, none, none, none, none, none, some 65536, none⟩],
    (Instr.setTap 0 0 f).wf = false := by decide
theorem test_wf_key : ∀ f ∈ [(⟨none, none, some 256, none, none, none, none⟩ : KeyFields),
    ⟨none, none, none, some 256, none, none, none⟩, ⟨none, none, none, none, none, some 256, none⟩,
    ⟨none, none, none, none, none, none, some 65536⟩], (Instr.setKey 0 .k0 f).wf = false := by decide
theorem test_wf_kind : (Instr.unknownRequest 0 30).wf = false ∧ (Instr.unknownRequest 0 31).wf = true ∧
    (Instr.unknownRequest 0 0).wf = true := by decide
theorem test_wf_lanes : (Instr.framePeriod ⟨[], 0, true⟩).wf = false := by decide
theorem test_wf_numbers : ∀ c ∈ [Instr.phantomMuteExpiry 64, .fadeOutEnd 64, .fadeInEnd 64,
    .resumeHoldExpiry 64], c.wf = false := by decide
theorem test_wf_long : (Instr.claimSlot 0 (List.replicate 256 ⟨none, 0⟩)).wf = false ∧
    (Instr.releaseSlot 0 (List.replicate 256 0) false).wf = false ∧
    (Instr.resume 0 (.list (List.replicate 256 0))).wf = false := by decide +kernel

/-! ### States of a running node -/

/-- Node 2, a STAGE MEMBER, released from its resets. -/
def running : State := { State.reset with
  start := { StartRec.power with powerHeld := false, id := 2, holdn := true }
  lock := .power 2 }

/-- The running node after a change, with what is derived brought up to date. -/
def node (f : State → State) : State := settle (f running)

/-- No reset is held, and the inbox has room. -/
def calm (s : State) : Bool := !s.inReset && decide (s.ctl.inbox.length < 4)

/-- The state takes requests, is settled, and meets the condition. -/
def Met (s : State) (p : State → Prop) : Prop := Taken s ∧ Settled s ∧ p s

theorem met {f : State → State} {p : State → Prop} (h : calm (f running) = true) (hp : p (node f)) :
    Met (node f) p := by
  simp only [calm, Bool.and_eq_true, Bool.not_eq_true', decide_eq_true_eq] at h
  refine ⟨⟨?_, ?_⟩, settle_settled _, hp⟩
  · simpa only [State.inReset, node, settle_start] using h.1
  · simpa only [node, settle_inbox] using h.2

/-- The part both ports' neighbours are: UP with a partner offer. -/
def offerOf (hear : Bool) : Offer := ⟨0, .k48, .stage, .master, some ⟨1, .master, 1⟩, hear, false, 0, none⟩
def partnerOf (p : PortId) : LinkField := ⟨1, portOther p, offerOf true⟩
def upPort (p : PortId) : PortRec := { PortRec.power with state := .up, partner := some (partnerOf p), txOn := true }

/-- Both ports are UP. -/
def bothUp (s : State) : State := { s with portA := upPort .a, portB := upPort .b }
/-- The node follows a MASTER's group over both ports. -/
def follows (s : State) : State := { bothUp s with
  loop := { s.loop with group := some ⟨1, .master, 1⟩, following := true, epoch := 1 } }
/-- The node is the acting origin, of the rank given, with both ports UP. -/
def originAs (r : Rank) (s : State) : State := { bothUp s with
  loop := { s.loop with role := .origin, group := some ⟨2, r, 1⟩, following := true, epoch := 1 } }
def roleOf (r : Role) (s : State) : State := { s with start := { s.start with role := r } }
def desk (s : State) : State := { s with
  start := { s.start with func := .desk }, gain := .power .desk }
def heldAs (s : State) : State := { s with start := { s.start with held := true } }
def lockAt (n : Nat) (s : State) : State := { s with lock := { s.lock with level := n } }
def silentAs (s : State) : State := { s with supervision := { s.supervision with silent := true } }
def uartAs (s : State) : State := { s with start := { s.start with line := .uart } }
/-- An operation with this tag stands in the table. -/
def opAs (o : Operation) (s : State) : State := { s with ctl := { s.ctl with ops := placeOp o s.ctl.ops } }
/-- The operation table is full. -/
def fullOps (s : State) : State := { s with ctl := { s.ctl with
  ops := List.replicate 8 (some ⟨9, .heal, .queued, none, none, none⟩) } }
def anItem : QItem := ⟨0, .all, .gainYield 0 0, 0, none, none, none, .loc⟩
/-- The queue holds `n` messages. -/
def queueAs (n : Nat) (s : State) : State := { s with queue := { s.queue with items := List.replicate n anItem } }
/-- One item at the head of the queue. -/
def headAs (i : QItem) (s : State) : State := { s with queue := { s.queue with items := [i] } }
def portAs (r : PortRec) (s : State) : State := { s with portA := r }
/-- The node follows, and output 0 and its tap are as given. -/
def outAs (r : OutRec) (t : Tap) (s : State) : State := { follows s with
  safety := { s.safety with outs := s.safety.outs.set 0 r }
  lanes := { s.lanes with taps := s.lanes.taps.set 0 t } }
def keyAs (k : KeyName) (r : KeyRec) (s : State) : State := setKeyRec k r s

/-- A POWER reset, a PIN reset, or both are held, with every block clear. -/
def clearAs (power pin : Bool) : State := { State.reset with
  start := { StartRec.power with powerHeld := power, pinHeld := pin } }

/-! ### Hypotheses met: the queue and the resets -/

theorem test_StepTakesFront_met : (∃ s c l, State.pending s = c :: l) ∧ ∃ s, State.pending s = [] :=
  ⟨⟨{ running with pending := [.owedAdmit] }, .owedAdmit, [], rfl⟩, running, rfl⟩

theorem test_HeldResetTakesNothing_met : State.reset.inReset = true ∧ actsInReset (.status 0) = false :=
  ⟨rfl, rfl⟩

theorem test_ReleasesStart_met : ∀ power pin, ResetClear (clearAs power pin) := fun _ _ =>
  ⟨rfl, rfl, rfl, rfl, rfl, rfl, rfl, rfl, rfl,
    fun k hk => by rw [List.eq_of_mem_replicate hk], rfl, rfl, rfl, rfl, rfl, rfl, rfl, rfl, rfl, rfl, rfl⟩

theorem test_SoftReset_met : Met (node (lockAt 3)) (fun s => 3 ≤ s.lock.level) ∧
    Met (node (lockAt 2)) (fun s => s.lock.level < 3 ∧ s.start.holdn = true) ∧
    Met (node fun s => { s with start := { s.start with holdn := false } })
      (fun s => s.lock.level < 3 ∧ s.start.holdn = false) := by
  refine ⟨met rfl ?_, met rfl ?_, met rfl ?_⟩ <;> decide +kernel

/-! ### A few steps -/

/-- The bytes of "123456789", whose CRC-16 of this polynomial and start value is known. -/
theorem test_lineCheck : lineCheck [0x31, 0x32, 0x33, 0x34, 0x35, 0x36, 0x37, 0x38, 0x39] = 0x29B1 := by
  decide +kernel

theorem test_emptyFrame_length : emptyFrame.length = 7 := by decide +kernel

/-- The state a step leaves, or the state itself where it does not go on. -/
def after (c : Instr) (s : State) : State :=
  match step { s with pending := c :: s.pending } with
  | .next t => t
  | .fault _ => s
  | .refused _ => s

def someStraps : Straps := ⟨2, .stage, some .master, .spi, true⟩

theorem test_release_originates :
    (after (.powerResetRelease true someStraps) State.reset).loop.group = some ⟨2, .master, 1⟩ ∧
    loopMode (after (.powerResetRelease true someStraps) State.reset) = .isolated := by decide +kernel

theorem test_setLock_raises : (after (.setLock 7 2) running).lock.level = 2 ∧
    (after (.setLock 7 2) running).ctl.inbox.map (·.reply) = [.ok] := by decide +kernel

theorem test_setTap_stores :
    (tapAt (after (.setTap 7 63 ⟨some (.loc 5), none, none, none, none, none, none, none, none, none⟩) running) 63).source =
      .loc 5 := by decide +kernel

theorem test_period_counts : (after (.framePeriod ⟨List.replicate 64 0, 0, true⟩) running).loop.count = 1 := by
  decide +kernel

theorem test_pin_reset_holds : (after .pinReset running).inReset = true := by decide +kernel

/-! ### Hypotheses met: requests and settings -/

theorem test_RequestsTaken_met :
    (requestTag (.go 7) = some 7 ∧ (node fun s => { s with ctl := { s.ctl with
      inbox := List.replicate 4 ⟨0, .ok, 0⟩ } }).inReset = false ∧
      Settled (node fun s => { s with ctl := { s.ctl with inbox := List.replicate 4 ⟨0, .ok, 0⟩ } }) ∧
      4 ≤ (node fun s => { s with ctl := { s.ctl with inbox := List.replicate 4 ⟨0, .ok, 0⟩ } }).ctl.inbox.length) ∧
    Met (node id) (fun s => s.supervision.silent = false) ∧
    Met (node silentAs) (fun s => s.supervision.silent = true) := by
  refine ⟨⟨rfl, ?_, settle_settled _, ?_⟩, met rfl ?_, met rfl ?_⟩ <;> decide +kernel

theorem test_ReadsAnswered_met : Met (node id) (fun s => s.supervision.silent = false) :=
  met rfl (by decide +kernel)

theorem test_ReadTableAnswered_met :
    Met (node id) (fun s => topIndex s.start.rate .talk < 5) ∧
    Met (node desk) (fun s => 63 ≤ topIndex s.start.rate .gain ∧ s.start.func = .desk) ∧
    Met (node id) (fun s => 15 ≤ topIndex s.start.rate .links ∧ s.start.role ≠ .master) ∧
    Met (node id) (fun s => 255 ≤ topIndex s.start.rate .allot) ∧
    Met (node id) (fun s => 15 ≤ topIndex s.start.rate .operations) := by
  refine ⟨met rfl ?_, met rfl ?_, met rfl ?_, met rfl ?_, met rfl ?_⟩ <;> decide +kernel

theorem test_RecoveryStored_met :
    (∀ x ∈ [4, 301], ∃ d, (⟨none, some x, none, none⟩ : RecoveryFields).healDelay = some d ∧ (d < 5 ∨ 300 < d)) ∧
    (∀ x ∈ [9, 2001], ∃ d, (⟨none, none, some x, none⟩ : RecoveryFields).takeover = some d ∧
      (d < 10 ∨ 2000 < d)) ∧
    (∀ x ∈ [5, 300], ∀ y ∈ [10, 2000],
      (∀ d, (⟨none, some x, some y, none⟩ : RecoveryFields).healDelay = some d → 5 ≤ d ∧ d ≤ 300) ∧
      (∀ d, (⟨none, some x, some y, none⟩ : RecoveryFields).takeover = some d → 10 ≤ d ∧ d ≤ 2000)) ∧
    Met (node (lockAt 1)) (fun s => 1 ≤ s.lock.level) ∧ Met (node id) (fun s => s.lock.level = 0) := by
  refine ⟨?_, ?_, ?_, met rfl (by decide +kernel), met rfl (by decide +kernel)⟩ <;> simp

theorem test_ThresholdsStored_met :
    Met (node id) (fun s => (s.port .a).loss + 50 ≤ -230 ∧ ¬ (s.port .a).loss + 50 ≤ (s.port .a).marginalAt) ∧
    Met (node id) (fun s => (s.port .b).loss + 40 ≤ (s.port .b).marginalAt) ∧
    Met (node (lockAt 1)) (fun s => 1 ≤ s.lock.level) ∧ Met (node id) (fun s => s.lock.level = 0) := by
  refine ⟨met rfl ?_, met rfl ?_, met rfl ?_, met rfl ?_⟩ <;> decide +kernel

theorem test_SettingsStored_met :
    Met (node (lockAt 1)) (fun s => 1 ≤ s.lock.level ∧ s.lock.level < 2) ∧
    Met (node (lockAt 2)) (fun s => 2 ≤ s.lock.level) ∧
    Met (node id) (fun s => s.lock.level = 0 ∧ s.start.func = .stage) ∧
    Met (node desk) (fun s => s.lock.level = 0 ∧ s.start.func = .desk) := by
  refine ⟨met rfl ?_, met rfl ?_, met rfl ?_, met rfl ?_⟩ <;> decide +kernel

theorem test_HeldOnlyRequests_met :
    Met (node id) (fun s => s.start.held = false) ∧
    Met (node (heldAs ∘ lockAt 1)) (fun s => s.start.held = true ∧ 1 ≤ s.lock.level) ∧
    Met (node heldAs) (fun s => s.start.held = true ∧ s.lock.level = 0) ∧
    (∃ id f r, Instr.setNode 0 (some 8) none none = .setNode 0 (some id) f r ∧ 8 ≤ id) ∧
    (∃ n, Instr.setLoopName 0 65535 = .setLoopName 0 n ∧ n < 65536) := by
  refine ⟨met rfl ?_, met rfl ?_, met rfl ?_, ⟨8, _, _, rfl, by decide⟩, ⟨65535, rfl, by decide⟩⟩ <;> decide +kernel

theorem test_RateChanged_NodeChanged_met :
    Met (node heldAs) (fun s => s.start.held = true ∧ s.lock.level = 0 ∧ Rate.k96 ≠ s.start.rate ∧
      Role.master ≠ s.start.role ∧ Func.desk ≠ s.start.func ∧ (3 : NodeId) ≠ s.start.id ∧
      s.loop.following = false) := by
  refine met rfl ?_; decide +kernel

theorem test_GoStarts_met :
    Met (node fullOps) (fun s => 8 ≤ opCount s) ∧
    Met (node id) (fun s => opCount s < 8 ∧ s.start.held = false) ∧
    Met (node (heldAs ∘ opAs ⟨5, .go, .running, none, none, none⟩))
      (fun s => opCount s < 8 ∧ (findOp 5 s).isSome = true) ∧
    (∀ r ∈ [Role.master, .deputy], Met (node (heldAs ∘ roleOf r)) fun s => WithinRoom s ∧ opCount s < 8 ∧
      findOp 5 s = none ∧ s.start.held = true ∧ s.loop.conflict = none ∧ s.start.role = r) := by
  refine ⟨met rfl (by decide +kernel), met rfl (by decide +kernel), met rfl (by decide +kernel), ?_⟩
  intro r hr
  simp only [List.mem_cons, List.not_mem_nil, or_false] at hr
  rcases hr with rfl | rfl <;>
    exact met rfl ⟨⟨by decide +kernel, by decide +kernel, by decide +kernel, by decide +kernel, by decide +kernel⟩,
      by decide +kernel, by decide +kernel, by decide +kernel, by decide +kernel, by decide +kernel⟩

theorem test_LockRaised_met :
    (∀ n ∈ [0, 1], Met (node (lockAt 2)) fun s => n < s.lock.level) ∧
    Met (node (lockAt 3)) (fun s => 3 = s.lock.level) ∧
    Met (node (lockAt 2)) (fun s => s.lock.level < 3 ∧ hasUnsent isLockNote s = false ∧ queueLen s < 16) ∧
    Met (node (queueAs 16)) (fun s => s.lock.level < 3 ∧ hasUnsent isLockNote s = false ∧ 16 ≤ queueLen s) ∧
    Met (node (headAs { anItem with body := .lockNote 1 }))
      (fun s => s.lock.level < 3 ∧ hasUnsent isLockNote s = true) := by
  refine ⟨fun n hn => ?_, met rfl ?_, met rfl ?_, met rfl ?_, met rfl ?_⟩
  · simp only [List.mem_cons, List.not_mem_nil, or_false] at hn
    rcases hn with rfl | rfl <;> exact met rfl (by decide +kernel)
  all_goals decide +kernel

/-! ### Hypotheses met: outputs -/

def localTap : Tap := { Tap.power with source := .loc 0 }
def safeOut (set : CauseSet) : OutRec := { OutRec.power with state := .safe, causes := set }

theorem test_ResumeOutputs_ForceSafeOutputs_met :
    (¬ ∀ l, OutputSel.list [] = .list l → 1 ≤ l.length ∧ l.length ≤ 64 ∧ ∀ n ∈ l, n < 64) ∧
    (¬ ∀ l, OutputSel.list [64] = .list l → 1 ≤ l.length ∧ l.length ≤ 64 ∧ ∀ n ∈ l, n < 64) ∧
    (∀ l, OutputSel.list [0, 63] = .list l → 1 ≤ l.length ∧ l.length ≤ 64 ∧ ∀ n ∈ l, n < 64) ∧
    Met (node (outAs (safeOut .empty) localTap)) (fun s =>
      (outAt (goodRequest s) 0).state = .safe ∧ causesEmpty (outAt (goodRequest s) 0).causes = true) ∧
    Met (node (outAs (safeOut { CauseSet.empty with forced := true }) localTap)) (fun s =>
      (outAt (goodRequest s) 0).state = .safe ∧ causesEmpty (outAt (goodRequest s) 0).causes = false) := by
  refine ⟨?_, ?_, ?_, met rfl (by decide +kernel), met rfl (by decide +kernel)⟩ <;> simp

theorem test_PanicFiltered_met :
    Met (node id) (fun s => false = s.safety.panicOn ∧ true ≠ s.safety.panicOn ∧ s.safety.panicT = none ∧
      s.safety.filterMs ≠ 0 ∧ s.safety.panicT ≠ some 0) ∧
    Met (node fun s => { s with safety := { s.safety with panicT := some 5 } })
      (fun s => true ≠ s.safety.panicOn ∧ s.safety.panicT.isSome = true) ∧
    Met (node fun s => { s with safety := { s.safety with filterMs := 0 } })
      (fun s => true ≠ s.safety.panicOn ∧ s.safety.panicT = none ∧ s.safety.filterMs = 0) ∧
    Met (node fun s => { s with safety := { s.safety with panicT := some 0 } })
      (fun s => s.safety.panicT = some 0) := by
  refine ⟨met rfl ?_, met rfl ?_, met rfl ?_, met rfl ?_⟩ <;> decide +kernel

theorem test_FadesAndHoldsEnd_met :
    Met (node (outAs { safeOut { CauseSet.empty with forced := true } with state := .fadingOut } localTap))
      (fun s => (outAt s 0).state = .fadingOut ∧ (outAt s 0).pos = 0 ∧ causesEmpty (outAt s 0).causes = false) ∧
    Met (node (outAs { OutRec.power with state := .fadingOut } { localTap with resume := .manual }))
      (fun s => (outAt s 0).state = .fadingOut ∧ causesEmpty (outAt s 0).causes = true ∧
        (tapAt s 0).resume = .manual ∧ s.supervision.silent = false) ∧
    Met (node (outAs { OutRec.power with state := .fadingOut } localTap))
      (fun s => (outAt s 0).state = .fadingOut ∧ causesEmpty (outAt s 0).causes = true ∧
        (tapAt s 0).resume = .auto ∧ s.safety.holdMs ≠ 0) ∧
    Met (node fun s => outAs { OutRec.power with state := .fadingOut } localTap
        { s with safety := { s.safety with holdMs := 0 } })
      (fun s => (outAt s 0).state = .fadingOut ∧ causesEmpty (outAt s 0).causes = true ∧ s.safety.holdMs = 0) ∧
    Met (node (outAs { OutRec.power with state := .fadingIn, pos := 959 } localTap))
      (fun s => (outAt s 0).state = .fadingIn ∧ (outAt s 0).pos < (tapAt s 0).fade * 48) ∧
    Met (node (outAs { OutRec.power with state := .fadingIn, pos := 960 } localTap))
      (fun s => (outAt s 0).state = .fadingIn ∧ (tapAt s 0).fade * 48 ≤ (outAt s 0).pos) ∧
    Met (node (outAs { safeOut .empty with hold := some 0, stage := .hold } localTap))
      (fun s => (outAt s 0).hold = some 0) := by
  refine ⟨met rfl ?_, met rfl ?_, met rfl ?_, met rfl ?_, met rfl ?_, met rfl ?_, met rfl ?_⟩ <;> decide +kernel

theorem test_ReportedCauseHighest_met :
    outputNotices [.power] [{ OutRec.power with state := .live }] =
      [.outputChange [0] .live .none .empty .none] := by decide +kernel

theorem test_OutputStateRules_met :
    causesEmpty .empty = true ∧ (∀ set ∈ [({ CauseSet.empty with panic := true } : CauseSet),
      { CauseSet.empty with orphan := true }, { CauseSet.empty with sourceLost := true },
      { CauseSet.empty with forced := true }], causesEmpty set = false) := by decide

theorem test_WaitsRunOut_met :
    Met (node id) (fun s => s.slots.retry ≠ some 0 ∧ s.supervision.timer ≠ some 0 ∧ findOp 5 s = none) ∧
    Met (node fun s => headAs { anItem with body := .snapReq none }
        { follows s with slots := { s.slots with retry := some 0 } })
      (fun s => s.slots.retry = some 0 ∧ ∃ i ∈ s.queue.items, i.sends = 0 ∧ ∃ n, i.body = .snapReq n) ∧
    (∀ n ∈ [15, 16], Met (node fun s => queueAs n { follows s with slots := { s.slots with retry := some 0 } })
      (fun s => s.slots.retry = some 0 ∧ (∀ i ∈ s.queue.items, ∀ k, i.body ≠ .snapReq k) ∧
        s.queue.items.length = n)) ∧
    Met (node fun s => outAs { safeOut .empty with stage := .await } { localTap with resume := .manual }
        { s with supervision := { s.supervision with timer := some 0 } })
      (fun s => s.supervision.timer = some 0 ∧ (tapAt s 0).resume = .manual ∧ (outAt s 0).state = .safe ∧
        causesEmpty (outAt s 0).causes = true ∧ (outAt s 0).stage = .await ∧ s.safety.holdMs ≠ 0) ∧
    Met (node (opAs ⟨5, .heal, .awaiting, some 0, none, none⟩))
      (fun s => ∃ o, findOp 5 s = some o ∧ o.answer = some 0) ∧
    Met (node (opAs ⟨5, .go, .running, none, some 0, none⟩))
      (fun s => ∃ o, findOp 5 s = some o ∧ o.kind = .go ∧ o.limit = some 0) := by
  refine ⟨met rfl (by decide +kernel), met rfl ⟨by decide +kernel, _, .head _, rfl, none, rfl⟩, ?_,
    met rfl (by decide +kernel), met rfl ⟨_, rfl, by decide +kernel⟩, met rfl ⟨_, rfl, by decide +kernel⟩⟩
  intro n hn
  simp only [List.mem_cons, List.not_mem_nil, or_false] at hn
  rcases hn with rfl | rfl <;>
    exact met rfl ⟨by decide +kernel, fun i hi k => by rw [List.eq_of_mem_replicate hi]; simp [anItem],
      by decide +kernel⟩

/-! ### Hypotheses met: optical ports -/

def portIn (st : PortState) : PortRec := { PortRec.power with state := st, txOn := true }

theorem test_LightMeasured_met :
    (∃ x n : Int, -400 ≤ n ∧ n ≤ 30 ∧ 100 * n - 50 < x ∧ x < 100 * n + 50) ∧
    Met (node id) (fun s => (s.port .a).state = .dark ∧ lightLevel (some (-27000)) ≤ (s.port .a).loss + (s.port .a).hyst ∧
      (s.port .a).loss + (s.port .a).hyst < lightLevel (some (-26900))) ∧
    Met (node (portAs (portIn .seek))) (fun s => (s.port .a).state = .seek ∧
      (s.port .a).loss ≤ lightLevel (some (-28000)) ∧ lightLevel (some (-28100)) < (s.port .a).loss) ∧
    Met (node (portAs (portIn .drill))) (fun s => (s.port .a).state = .drill) ∧
    Met (node (portAs (portIn .offer))) (fun s => isAligned (s.port .a).state = true ∧ s.usable .a = false ∧
      (s.port .a).lightCond = false ∧ (s.port .a).marginalAt ≤ lightLevel (some (-24000)) ∧
      lightLevel (some (-24100)) < (s.port .a).marginalAt ∧ (s.port .a).flags.marginal = false) ∧
    Met (node (portAs { portIn .up with lightCond := true, flags := ⟨true, false, false⟩ }))
      (fun s => isAligned (s.port .a).state = true ∧ (s.port .a).lightCond = true ∧ (s.port .a).flags.marginal = true ∧
        lightLevel (some (-23100)) < (s.port .a).marginalAt + (s.port .a).hyst) ∧
    Met (node bothUp) (fun s => s.usable .a = true ∧ s.start.role ≠ .master ∧ (s.port .a).flags.marginal = false) := by
  refine ⟨⟨-28000, -280, by decide⟩, met rfl ?_, met rfl ?_, met rfl ?_, met rfl ?_, met rfl ?_, met rfl ?_⟩ <;>
    decide +kernel

theorem test_BadFramesCounted_met :
    Met (node id) (fun s => isAligned (s.port .a).state = false) ∧
    Met (node (portAs { portIn .settle with badRun := 14 })) (fun s =>
      isAligned (s.port .a).state = true ∧ (s.port .a).badRun + 1 < 16 ∧ (s.port .a).winBad + 1 ≤ 48) ∧
    Met (node (portAs { portIn .settle with badRun := 15 })) (fun s =>
      isAligned (s.port .a).state = true ∧ 16 ≤ (s.port .a).badRun + 1 ∧ (s.port .a).state ≠ .up) ∧
    Met (node (portAs { portIn .offer with badRun := 15, winBad := 48 })) (fun s =>
      isAligned (s.port .a).state = true ∧ 16 ≤ (s.port .a).badRun + 1 ∧ (s.port .a).state ≠ .up ∧
        48 < (s.port .a).winBad + 1 ∧ (s.port .a).flags.marginal = false) ∧
    Met (node (portAs { portIn .offer with winBad := 48, badRun := 14 })) (fun s =>
      isAligned (s.port .a).state = true ∧ (s.port .a).flags.marginal = false ∧ s.start.rate = .k48 ∧
        48 < (s.port .a).winBad + 1 ∧ (s.port .a).badRun + 1 < 16 ∧ s.usable .a = false) ∧
    Met (node (portAs { portIn .up with winBad := 48 })) (fun s =>
      isAligned (s.port .a).state = true ∧ (s.port .a).flags.marginal = false ∧
        48 < (s.port .a).winBad + 1 ∧ (s.port .a).badRun + 1 < 16 ∧ s.usable .a = true ∧ s.start.role ≠ .master) := by
  refine ⟨met rfl ?_, met rfl ?_, met rfl ?_, met rfl ?_, met rfl ?_, met rfl ?_⟩ <;> decide +kernel

/-- An arrival whose check is its frame's, and one whose check is not. -/
def goodArr (f : Frame) : Arrival := ⟨f, frameCheck f, 0⟩
def badArr (f : Frame) : Arrival := ⟨f, ~~~ frameCheck f, 0⟩
/-- A standby frame with an offer from this sender. -/
def offering (n : NodeId) (hear : Bool) : Frame := { plain with link := some ⟨n, .b, offerOf hear⟩ }

theorem bad_check (f : Frame) : frameCheck f ≠ (badArr f).check := by
  intro h
  have h2 := congrArg (fun x : BitVec 32 => x.getLsbD 0) h
  simp [badArr] at h2

theorem test_FramesAlign_met :
    frameCheck plain = (goodArr plain).check ∧ frameCheck plain ≠ (badArr plain).check ∧
    (¬ ∃ l, (goodArr plain).frame.link = some l ∧ l.sender = (node id).start.id) ∧
    (∃ l, (goodArr (offering 2 false)).frame.link = some l ∧ l.sender = (node id).start.id) ∧
    Met (node (portAs (portIn .drill))) (fun s => (s.port .a).state = .drill) ∧
    Met (node id) (fun s => (s.port .a).state = .dark ∧ s.loop.conflict = none) ∧
    Met (node (portAs { portIn .seek with alignRun := 6 })) (fun s =>
      (s.port .a).state = .seek ∧ (s.port .a).alignRun + 1 < 8) ∧
    Met (node (portAs { portIn .seek with alignRun := 7 })) (fun s =>
      (s.port .a).state = .seek ∧ 8 ≤ (s.port .a).alignRun + 1) ∧
    Met (node (portAs (portIn .settle))) (fun s => (s.port .a).state = .settle) ∧
    Met (node (portAs { portIn .settle with badRun := 15, winBad := 48 })) (fun s =>
      isAligned (s.port .a).state = true ∧ 16 ≤ (s.port .a).badRun + 1 ∧ 48 < (s.port .a).winBad + 1 ∧
        (s.port .a).flags.marginal = false ∧ (s.port .a).state ≠ .up) := by
  refine ⟨rfl, bad_check _, ?_, ⟨_, rfl, by decide +kernel⟩, met rfl ?_, met rfl ?_, met rfl ?_, met rfl ?_,
    met rfl ?_, met rfl ?_⟩
  · simp [goodArr, plain]
  all_goals decide +kernel

theorem test_PartnerHeard_met :
    frameCheck (offering 1 true) = (goodArr (offering 1 true)).check ∧
    frameCheck (offering 1 true) ≠ (badArr (offering 1 true)).check ∧
    (goodArr (offering 1 true)).frame.link = some ⟨1, .b, offerOf true⟩ ∧
    Met (node (portAs { portIn .offer with agreeRun := 2, agreeFrom := some (1, .b) })) (fun s =>
      (1 : NodeId) ≠ s.start.id ∧ (offerOf true).loopName = s.start.loopName ∧ (offerOf true).rate = s.start.rate ∧
        (s.port .a).state = .offer ∧ (offerOf true).hearYou = true ∧ (s.port .a).agreeFrom = some (1, .b) ∧
        3 ≤ (s.port .a).agreeRun + 1) ∧
    Met (node (portAs { portIn .offer with agreeRun := 1, agreeFrom := some (1, .b) })) (fun s =>
      (s.port .a).agreeRun + 1 < 3) ∧
    Met (node fun s => { bothUp s with portA := { upPort .a with clearRun := 47 } }) (fun s =>
      (s.port .a).state = .up ∧ (s.port .a).flags.fixed = false ∧ (s.port .a).flags.remoteFault = false ∧
        48 ≤ (s.port .a).clearRun + 1 ∧ (goodArr plain).frame.link = none ∧ (goodArr plain).frame.slots = none ∧
        s.usable (portOther .a) = true) ∧
    Met (node id) (fun s => (s.port .a).state ≠ .up) := by
  refine ⟨rfl, bad_check _, rfl, met rfl ?_, met rfl ?_, met rfl ?_, met rfl ?_⟩
  · decide +kernel
  · decide +kernel
  · exact ⟨by decide +kernel, by decide +kernel, by decide +kernel, by decide +kernel, rfl, rfl, by decide +kernel⟩
  · decide +kernel

def aDrill : DrillRec := ⟨0, 100, none, 5⟩

theorem test_PortTimersExpire_met :
    Met (node (portAs { portIn .settle with settle := some 0 })) (fun s =>
      (s.port .a).state = .settle ∧ (s.port .a).settle = some 0) ∧
    (∀ seen, Met (node (portAs { portIn .offer with offerT := some 0, offerSeen := seen })) fun s =>
      (s.port .a).state = .offer ∧ (s.port .a).offerT = some 0 ∧ (s.port .a).offerSeen = seen) ∧
    Met (node (portAs { portIn .seek with relock := some 0 })) (fun s =>
      (s.port .a).relock = some 0 ∧ (s.port .a).drill = none) ∧
    Met (node fun s => opAs ⟨5, .drill, .running, none, none, none⟩
        (portAs { portIn .dark with relock := some 0, drill := some aDrill } s)) (fun s =>
      (s.port .a).relock = some 0 ∧ (s.port .a).drill = some aDrill ∧ (s.port .a).state ≠ .drill ∧
        ∃ o, findOp aDrill.tag s = some o ∧ o.kind = .drill) ∧
    Met (node (portAs { portIn .up with winWholeUp := true, delayCount := 2, delaySum := 9 })) (fun s =>
      (s.port .a).winWholeUp = true ∧ 0 < (s.port .a).delayCount) ∧
    2 * 3 * 5 < 2 * 14 + 3 ∧ 2 * 14 < 2 * 3 * 5 + 3 ∧
    Met (node (portAs { portIn .up with window := some 0 })) (fun s =>
      (s.port .a).window = some 0 ∧ (s.port .a).flags.marginal = false) ∧
    (∀ st ∈ [PortState.offer, .up], Met (node (portAs { portIn st with
      window := some 0, flags := ⟨true, false, false⟩, winBad := 48 })) fun s =>
        (s.port .a).window = some 0 ∧ (s.port .a).flags.marginal = true ∧ (s.port .a).winBad ≤ 48 ∧
          (s.port .a).lightHeld = false ∧ s.usable .a = decide (st = .up) ∧ s.start.role ≠ .master) ∧
    Met (node id) (fun s => (s.port .a).settle ≠ some 0 ∧ (s.port .a).offerT ≠ some 0 ∧
      (s.port .a).relock ≠ some 0 ∧ (s.port .a).window ≠ some 0 ∧ (s.port .a).winWholeUp = false) := by
  refine ⟨met rfl ?_, fun x => ?_, met rfl ?_, met rfl ⟨?_, ?_, ?_, _, rfl, rfl⟩, met rfl ?_, by decide, by decide,
    met rfl ?_, fun st hs => ?_, met rfl ?_⟩
  case refine_2 => cases x <;> exact met rfl (by decide +kernel)
  case refine_9 =>
    simp only [List.mem_cons, List.not_mem_nil, or_false] at hs
    rcases hs with rfl | rfl <;> exact met rfl (by decide +kernel)
  all_goals decide +kernel

theorem test_DrillRuns_met :
    Met (node fullOps) (fun s => 8 ≤ opCount s ∧ s.ctl.ops.length = 8) ∧
    Met (node (opAs ⟨5, .heal, .queued, none, none, none⟩)) (fun s => opCount s < 8 ∧ (findOp 5 s).isSome = true) ∧
    Met (node (lockAt 1)) (fun s => opCount s < 8 ∧ findOp 5 s = none ∧ 1 ≤ s.lock.level) ∧
    Met (node id) (fun s => opCount s < 8 ∧ findOp 5 s = none ∧ s.lock.level = 0 ∧ loopMode s ≠ .closed) ∧
    Met (node follows) (fun s => opCount s < 8 ∧ findOp 5 s = none ∧ s.lock.level = 0 ∧ s.portA.drill = none ∧
      s.portB.drill = none ∧ loopMode s = .closed ∧ s.usable (portOther .a) = true ∧ s.usable .a = true ∧
      WithinRoom s) ∧
    Met (node (portAs { portIn .drill with drillT := some 0 })) (fun s =>
      (s.port .a).state = .drill ∧ (s.port .a).drillT = some 0) := by
  refine ⟨met rfl ?_, met rfl ?_, met rfl ?_, met rfl ?_, met rfl ?_, met rfl ?_⟩
  case refine_5 =>
    exact ⟨by decide +kernel, by decide +kernel, by decide +kernel, rfl, rfl, by decide +kernel, by decide +kernel,
      by decide +kernel, by decide +kernel, by decide +kernel, by decide +kernel, by decide +kernel, by decide +kernel⟩
  all_goals decide +kernel

/-! ### Hypotheses met: the loop -/

theorem test_LoopModeTable_met :
    Met (node heldAs) (fun s => s.start.held = true) ∧
    Met (node fun s => { s with loop := { s.loop with conflict := some .duplicateId } })
      (fun s => s.start.held = false ∧ s.loop.conflict ≠ none) ∧
    Met (node id) (fun s => s.start.held = false ∧ s.loop.conflict = none ∧ s.loop.role = .follower ∧
      s.loop.group = none) ∧
    Met (node fun s => { follows s with portA := portIn .dark, portB := portIn .dark })
      (fun s => s.usable .a = false ∧ s.usable .b = false ∧ s.loop.group ≠ none) ∧
    Met (node fun s => { follows s with loop := { (follows s).loop with following := false } })
      (fun s => s.usable .a = true ∧ s.loop.group ≠ none ∧ s.loop.role = .follower ∧ s.loop.following = false) ∧
    Met (node fun s => { follows s with portA := portIn .dark, loop := { (follows s).loop with wrapA := .loss } })
      (fun s => s.usable .b = true ∧ s.loop.following = true ∧ s.loop.wrapA ≠ .none) ∧
    Met (node fun s => { follows s with portB := portIn .dark, loop := { (follows s).loop with wrapB := .loss } })
      (fun s => s.usable .a = true ∧ s.loop.following = true ∧ s.loop.wrapA = .none ∧ s.loop.wrapB ≠ .none) ∧
    Met (node follows)
      (fun s => s.usable .a = true ∧ s.loop.following = true ∧ s.loop.wrapA = .none ∧ s.loop.wrapB = .none) := by
  refine ⟨met rfl ?_, met rfl ?_, met rfl ?_, met rfl ?_, met rfl ?_, met rfl ?_, met rfl ?_, met rfl ?_⟩ <;>
    decide +kernel

theorem test_NumbersGroupsRelay_met :
    (relayPort (node follows) .a = some .b ∧ (node follows).usable .b = true) ∧
    (relayPort (node id) .a = some .b ∧ (node id).usable .b = false) ∧
    ((node fun s => { s with loop := { s.loop with wrapA := .loss } }).loop.wrapA ≠ .none ∧
      relayPort (node fun s => { s with loop := { s.loop with wrapA := .loss } }) .a = none) ∧
    ((node follows).port .a).txOn = true ∧ ((node follows).port .a).routed = none ∧
    ((node id).port .a).txOn = false ∧
    (groupWins ⟨1, .master, 1⟩ ⟨1, .master, 2⟩ = false ∧ groupWins ⟨1, .master, 2⟩ ⟨1, .master, 1⟩ = false) := by
  decide +kernel

/-- A follower whose origin timeout has counted `n` periods. -/
def quietFor (n : Nat) (s : State) : State := { follows s with loop := { (follows s).loop with timeout := n } }

theorem test_OriginTimesOut_met :
    Met (node (quietFor 46)) (fun s => s.loop.timeout + 1 < 48) ∧
    (∀ r ∈ [Role.deputy, .member, .master], Met (node (quietFor 47 ∘ roleOf r)) fun s =>
      s.loop.following = true ∧ s.loop.role = .follower ∧ s.loop.heard = false ∧ 48 ≤ s.loop.timeout + 1 ∧
        writesCells (loopMode s) = true ∧ s.start.role = r) := by
  refine ⟨met rfl (by decide +kernel), fun r hr => ?_⟩
  simp only [List.mem_cons, List.not_mem_nil, or_false] at hr
  rcases hr with rfl | rfl | rfl <;> exact met rfl (by decide +kernel)

/-- A node in ORPHAN whose takeover timer has `n` left. -/
def orphanWith (n : Nat) (s : State) : State := { follows s with
  loop := { (follows s).loop with following := false, takeover := some n } }

theorem test_DeputyTakesOver_met :
    Met (node (orphanWith 1 ∘ roleOf .deputy)) (fun s => s.loop.takeover ≠ some 0) ∧
    Met (node (orphanWith 0 ∘ roleOf .deputy)) (fun s =>
      s.loop.takeover = some 0 ∧ s.start.role = .deputy ∧ loopMode s = .orphan) := by
  refine ⟨met rfl ?_, met rfl ?_⟩ <;> decide +kernel

/-- A DEPUTY's own frame on its return, without node 3 in its hop list. -/
def ownFrame : Frame := ⟨⟨5, ⟨2, .deputy, 1⟩, 0, .k48, 0, [], [⟨1, .forward⟩]⟩, some (partnerOf .a),
  List.replicate 8 none, some (List.replicate 256 0)⟩
def absentTwice : OwnMapEntry := ⟨3, none, none, 2, .forward, 2⟩
def awaitsReturn (s : State) : State := { originAs .deputy s with
  loop := { (originAs .deputy s).loop with
    orig := { OrigRec.none with last := some 5 }
    ownMap := [⟨2, none, none, 1, .forward, 0⟩, absentTwice] } }

theorem test_AbsentNodeLeavesMap_met :
    frameCheck ownFrame = (goodArr ownFrame).check ∧
    Met (node awaitsReturn) (fun s => s.usable .a = true ∧ (s.port .a).flags.fixed = false ∧ s.wrapAt .a = .none ∧
      ownFrame.slots.isSome = true ∧ ownFrame.header.rate = s.start.rate ∧
      (s.port .a).partner = some (partnerOf .a) ∧ (partnerOf .a).sender ≠ s.start.id ∧
      (partnerOf .a).offer.loopName = s.start.loopName ∧ (partnerOf .a).offer.rate = s.start.rate ∧
      loopMode s = .closed ∧ s.loop.role = .origin ∧ s.loop.group = some ownFrame.header.origin ∧
      ownFrame.header.origin.id = s.start.id ∧ .a = circuitPort s ∧
      s.loop.orig.last = some ownFrame.header.count ∧ s.loop.orig.inTime = false ∧
      absentTwice ∈ s.loop.ownMap ∧ (∀ h ∈ ownFrame.header.hops, h.id ≠ absentTwice.id) ∧
      absentTwice.absence = 2 ∧ ∀ x ∈ s.loop.ownMap, x.id = absentTwice.id → x = absentTwice) := by
  refine ⟨rfl, met rfl ?_⟩
  decide +kernel

theorem test_QueueMoves_met :
    Met (node (headAs { anItem with sends := 3 } ∘ follows)) (fun s => ∀ i, s.queue.items.head? = some i → i.sends < 4) ∧
    Met (node (headAs { anItem with body := .lockNote 1, sends := 4 } ∘ follows)) (fun s =>
      s.queue.items = [{ anItem with body := .lockNote 1, sends := 4 }] ∧ s.queue.written = none ∧
        writesCells (loopMode s) = true ∧ s.snap.run = none) ∧
    Met (node (headAs { anItem with sends := 4, op := some 5 } ∘ opAs ⟨5, .yieldGain, .sent, none, none, none⟩ ∘ follows))
      (fun s => s.queue.items = [{ anItem with sends := 4, op := some 5 }] ∧ s.queue.written = none ∧
        writesCells (loopMode s) = true ∧ s.snap.run = none ∧
        findOp 5 s = some ⟨5, .yieldGain, .sent, none, none, none⟩) ∧
    Met (node fun s => { follows s with snap := { s.snap with run := some ⟨.allot, 1, 62, 4, none, none⟩ } }) (fun s =>
      s.queue.written = none ∧ writesCells (loopMode s) = true ∧ s.queue.items = [] ∧
        s.snap.run = some ⟨.allot, 1, 62, 4, none, none⟩ ∧ 62 + 1 < slotCount s.start.rate / 4) ∧
    (∀ n ∈ [15, 16], Met (node (queueAs n)) fun s => s.queue.items.length = n ∧ (∀ b ∈ allBuses, (busAt s b).owed = false) ∧
      (∀ k ∈ allKeys, (keyAt s k).releaseOwed = false) ∧ s.loop.mapOwed = false ∧ s.loop.unwrapOwed = [] ∧
      s.loop.noteOwedA = false ∧ s.loop.noteOwedB = false ∧ s.lock.noteOwed = false ∧
      ∀ i ∈ s.queue.items, ∀ k, i.body ≠ .lockNote k) ∧
    Met (node fun s => { s with loop := { s.loop with noteOwedA := true } }) (fun s => s.loop.noteOwedA = true) ∧
    Met (node fun s => { s with loop := { s.loop with noteOwedB := true } }) (fun s => s.loop.noteOwedB = true) ∧
    Met (node fun s => { s with lock := { s.lock with noteOwed := true } }) (fun s => s.lock.noteOwed = true) ∧
    Met (node fun s => { s with snap := ⟨none, true, true⟩ }) (fun s =>
      s.snap.run = none ∧ s.snap.pendAllot = true ∧ s.queue.outstanding = none) ∧
    Met (node fun s => { s with snap := ⟨none, true, true⟩, queue := { s.queue with outstanding := some 0 } }) (fun s =>
      s.snap.run = none ∧ s.snap.pendGain = true ∧ s.queue.outstanding = some 0 ∧ passed s.loop.count 0 = false) := by
  refine ⟨met rfl ?_, met rfl ?_, met rfl ?_, met rfl ?_, fun n hn => ?_, met rfl ?_, met rfl ?_, met rfl ?_,
    met rfl ?_, met rfl ?_⟩
  case refine_1 =>
    intro i hi
    have e : some { anItem with sends := 3 } = some i := hi
    cases e
    decide
  case refine_5 =>
    simp only [List.mem_cons, List.not_mem_nil, or_false] at hn
    rcases hn with rfl | rfl <;>
      exact met rfl ⟨by decide +kernel, by decide +kernel, by decide +kernel, by decide +kernel, by decide +kernel,
        by decide +kernel, by decide +kernel, by decide +kernel,
        fun i hi k => by rw [List.eq_of_mem_replicate hi]; simp [anItem]⟩
  all_goals decide +kernel

def dueOf (n : NodeId) (m : LoopMsg) : PendingSwitch := ⟨n, .msg m, 0, 1, none, false, .loc⟩
def aLink : Link := ⟨2, .a, 1, .b⟩

theorem test_SwitchApplied_met :
    Met (node id) (fun s => ∀ x ∈ s.switches, reached s.loop.count x.frame = false) ∧
    Met (node fun s => { follows s with switches := [dueOf 2 (.gainNote 0 ⟨10, false, true, none⟩ 1)] }) (fun s =>
      pendingOf s 2 = some (dueOf 2 (.gainNote 0 ⟨10, false, true, none⟩ 1)) ∧ reached s.loop.count 0 = true ∧
        s.loop.visited = false ∧ s.start.id = 2 ∧ s.gain.table[0]? = some .power ∧ newer8 1 GainEntry.power.serial = true) ∧
    Met (node fun s => { follows s with switches := [dueOf 0 (.wrapPlan aLink)] }) (fun s =>
      pendingOf s 0 = some (dueOf 0 (.wrapPlan aLink)) ∧ linkPortOf aLink s.start.id = some .a ∧
        loopMode s = .closed ∧ s.usable .a = true) ∧
    Met (node fun s => { follows s with
        loop := { (follows s).loop with wrapA := .planned (some 1) }, switches := [dueOf 0 (.unwrapPlan aLink)] }) (fun s =>
      pendingOf s 0 = some (dueOf 0 (.unwrapPlan aLink)) ∧ linkPortOf aLink s.start.id = some .a ∧
        s.wrapAt .a = .planned (some 1) ∧ s.usable .a = true) := by
  refine ⟨met rfl ?_, met rfl ?_, met rfl ?_, met rfl ?_⟩ <;> decide +kernel

/-- The master's table has one link ready to heal. -/
def readyEnd : LinkEntry := ⟨none, false, some 1, none, true, some 0, true, true⟩
def readyLink (s : State) : State := { originAs .master (roleOf .master s) with
  loop := { (originAs .master s).loop with links := (List.replicate 16 none).set 0 (some readyEnd) } }

theorem test_LinksHeal_met :
    (∃ x q, HealTarget.linkEnd 8 .a = .linkEnd x q ∧ 8 ≤ x) ∧
    (¬ ∃ x q, HealTarget.linkEnd 7 .a = .linkEnd x q ∧ 8 ≤ x) ∧
    Met (node id) (fun s => s.start.role ≠ .master) ∧
    Met (node (lockAt 3 ∘ roleOf .master)) (fun s => s.start.role = .master ∧ 3 ≤ s.lock.level) ∧
    Met (node (lockAt 2 ∘ roleOf .master)) (fun s =>
      s.start.role = .master ∧ s.lock.level < 3 ∧ s.loop.role = .follower) ∧
    (∀ n ∈ [0, 11], Met (node (queueAs n ∘ readyLink)) fun s => s.start.role = .master ∧ s.lock.level < 3 ∧
      s.loop.role = .origin ∧ (healLink s .any).isSome = true ∧ opCount s < 8 ∧ findOp 5 s = none ∧
      s.queue.items.length < 12) ∧
    (∀ pol ∈ [HealPolicy.auto, .onCommand], Met (node fun s => { readyLink s with
        loop := { (readyLink s).loop with policy := pol } }) fun s =>
      ∃ e, linkAt s 0 .a = some e ∧ e.heal = some 0 ∧ e.partner = some 1 ∧ s.loop.policy = pol ∧
        s.queue.items.length < 16) := by
  refine ⟨⟨8, .a, rfl, by decide⟩, ?_, met rfl (by decide +kernel), met rfl (by decide +kernel),
    met rfl (by decide +kernel), fun n hn => ?_, fun pol hp => ?_⟩
  · rintro ⟨x, q, h, k⟩
    cases h
    omega
  · simp only [List.mem_cons, List.not_mem_nil, or_false] at hn
    rcases hn with rfl | rfl <;> exact met rfl (by decide +kernel)
  · simp only [List.mem_cons, List.not_mem_nil, or_false] at hp
    rcases hp with rfl | rfl <;>
      exact met rfl ⟨_, rfl, by decide +kernel, by decide +kernel, by decide +kernel, by decide +kernel⟩

/-- The master originates, with this restart mark. -/
def restarting (r : Restart) (s : State) : State := { originAs .master (roleOf .master s) with
  loop := { (originAs .master s).loop with restart := r } }

theorem test_LoopResetPrepared_met :
    Met (node id) (fun s => s.start.role ≠ .master) ∧
    Met (node (lockAt 1 ∘ roleOf .master)) (fun s => s.start.role = .master ∧ 1 ≤ s.lock.level) ∧
    Met (node (roleOf .master)) (fun s => s.start.role = .master ∧ s.lock.level = 0 ∧ s.loop.role = .follower) ∧
    Met (node (restarting .idle)) (fun s => s.start.role = .master ∧ s.lock.level = 0 ∧ s.loop.role = .origin ∧
      loopMode s ≠ .isolated ∧ s.loop.restart = .idle) := by
  refine ⟨met rfl ?_, met rfl ?_, met rfl ?_, met rfl ?_⟩ <;> decide +kernel

theorem test_RestartCarriedOut_met :
    Met (node (restarting (.prepared 2))) (fun s => s.loop.role = .origin ∧ s.start.held = false ∧
      s.loop.conflict = none ∧ s.loop.originated = false ∧ writesCells (loopMode s) = true ∧
      s.loop.restart = .prepared 2 ∧ s.loop.group = some ⟨2, .master, 1⟩) ∧
    Met (node (restarting (.written 2))) (fun s => s.loop.role = .origin ∧ s.start.held = false ∧
      s.loop.conflict = none ∧ s.loop.originated = false ∧ s.loop.restart = .written 2 ∧
      s.loop.group = some ⟨2, .master, 1⟩) ∧
    Met (node (restarting .idle)) (fun s => s.loop.restart = .idle) := by
  refine ⟨met rfl ?_, met rfl ?_, met rfl ?_⟩ <;> decide +kernel

/-! ### Hypotheses met: slots, taps, gain -/

def slotsWith (e : SlotEntry) : SlotRec := { SlotRec.power .k48 with table := (freshTable .k48).set 3 e }

theorem test_SlotTables_met :
    (251 < firstTalk .k48 ∧ firstTalk .k48 ≤ 252 ∧ 255 < slotCount .k48) ∧
    (123 < firstTalk .k96 ∧ firstTalk .k96 ≤ 124 ∧ 127 < slotCount .k96) ∧
    ((freshTable .k48).getD 251 slotFree).state = .free ∧
    ((slotsWith ⟨.assigned, some 2, some 5, none⟩).table.getD 3 slotFree).state = .assigned ∧
    ((slotsWith ⟨.assigned, some 2, some 5, none⟩).table.getD 3 slotFree).writer = some 2 ∧
    (∀ m, m < firstTalk .k96 → m ∈ List.range 124) ∧
    (({ SlotRec.power .k48 with unsettled := (List.replicate 256 false).set 3 true }).unsettled.getD 3 false) = true := by
  decide +kernel

theorem test_SlotsAsked_met :
    Met (node fullOps) (fun s => 8 ≤ opCount s) ∧
    Met (node (opAs ⟨5, .heal, .queued, none, none, none⟩)) (fun s => opCount s < 8 ∧ (findOp 5 s).isSome = true) ∧
    (∀ n ∈ [11, 12], Met (node (queueAs n)) fun s => opCount s < 8 ∧ findOp 5 s = none ∧ s.queue.items.length = n ∧
      s.start.held = false ∧ s.loop.conflict = none ∧ s.start.role ≠ .master ∧ s.lock.loopLevel = none ∧
      s.loop.role = .follower) ∧
    Met (node (queueAs 12 ∘ roleOf .master)) (fun s => s.start.role = .master ∧ 12 ≤ s.queue.items.length ∧
      s.start.held = false ∧ s.loop.conflict = none ∧ s.loop.role = .follower) ∧
    Met (node heldAs) (fun s => s.start.held = true) ∧
    Met (node fun s => { s with lock := { s.lock with loopLevel := some 1 } })
      (fun s => s.start.role ≠ .master ∧ s.lock.loopLevel = some 1) ∧
    Met (node (originAs .deputy ∘ roleOf .deputy)) (fun s => s.start.held = false ∧ s.loop.conflict = none ∧
      s.lock.loopLevel = none ∧ s.loop.role = .origin ∧ s.loop.group = some ⟨2, .deputy, 1⟩) ∧
    (∀ n ∈ [1, 4], 1 ≤ (List.replicate n (⟨some 255, 63⟩ : ClaimPair)).length ∧
      (List.replicate n (⟨some 255, 63⟩ : ClaimPair)).length ≤ 4 ∧
      ∀ x ∈ List.replicate n (⟨some 255, 63⟩ : ClaimPair), x.input < 64 ∧ x.slot = some 255) := by
  refine ⟨met rfl (by decide +kernel), met rfl (by decide +kernel), fun n hn => ?_, met rfl (by decide +kernel),
    met rfl (by decide +kernel), met rfl (by decide +kernel), met rfl (by decide +kernel), by decide⟩
  simp only [List.mem_cons, List.not_mem_nil, or_false] at hn
  rcases hn with rfl | rfl <;> exact met rfl (by decide +kernel)

theorem test_SlotsDecided_met :
    (∀ n ∈ [0, 1], Met (node (lockAt n ∘ roleOf .master)) fun s => s.start.role = .master ∧ s.start.held = false ∧
      s.loop.conflict = none ∧ s.loop.role = .follower ∧ s.queue.items.length < 12 ∧ s.lock.level = n ∧
      (claimPairs s.start.rate s.slots s.start.id [] [⟨none, 0⟩]).2 ≠ [] ∧
      (claimPairs s.start.rate s.slots s.start.id [] [⟨some 252, 0⟩]).2 = [] ∧
      (releaseSlots s.start.rate s.slots s.start.id false [] [0]).2 = []) ∧
    Met (node fun s => { roleOf .master s with slots := slotsWith ⟨.assigned, some 2, some 5, none⟩ }) (fun s =>
      (releaseSlots s.start.rate s.slots s.start.id false [] [3]).2 ≠ []) := by
  refine ⟨fun n hn => ?_, met rfl (by decide +kernel)⟩
  simp only [List.mem_cons, List.not_mem_nil, or_false] at hn
  rcases hn with rfl | rfl <;> exact met rfl (by decide +kernel)

/-- Tap 0 tracks slot 3, whose cache entry is given. -/
def tracks (e : CacheEntry) (s : State) : State := { s with lanes := { s.lanes with
  taps := s.lanes.taps.set 0 { Tap.power with source := .slot 3, tracking := true }
  cache := s.lanes.cache.set 3 e } }

theorem test_TapsStored_met :
    Met (node id) (fun s => s.lock.level = 0 ∧ slotCount s.start.rate = 256 ∧ s.lanes.taps[63]? = some (tapAt s 63) ∧
      (tapAt s 63).source = .unused ∧ (tapAt s 63).tracking = false ∧ sourceValid s (.slot 251) = false) ∧
    Met (node (lockAt 1)) (fun s => 1 ≤ s.lock.level ∧ s.lock.level < 2) ∧
    Met (node (lockAt 2)) (fun s => 2 ≤ s.lock.level) ∧
    Met (node (lockAt 2 ∘ tracks none)) (fun s => (tapAt s 0).tracking = true ∧ 2 ≤ s.lock.level) ∧
    Met (node (tracks none)) (fun s => (tapAt s 0).tracking = true ∧ (tapAt s 0).source = .slot 3 ∧
      cacheAt s 3 = none ∧ s.lock.level < 2) ∧
    (∀ o ∈ [some 2, some 1, none], Met (node (tracks (some (⟨10, false, false, o⟩, 0)))) fun s =>
      (tapAt s 0).tracking = true ∧ (tapAt s 0).source = .slot 3 ∧
        cacheAt s 3 = some (⟨10, false, false, o⟩, 0) ∧ s.start.id = 2) ∧
    (∀ g ∈ [50, 60], ¬ ((g : Int) - 10 < -40 ∨ 40 < (g : Int) - 10) ↔ g = 50) := by
  refine ⟨met rfl (by decide +kernel), met rfl (by decide +kernel), met rfl (by decide +kernel),
    met rfl (by decide +kernel), met rfl (by decide +kernel), fun o ho => ?_, by decide⟩
  simp only [List.mem_cons, List.not_mem_nil, or_false] at ho
  rcases ho with rfl | rfl | rfl <;> exact met rfl (by decide +kernel)

/-- Input 0 is owned by node 1. -/
def owned (s : State) : State := { s with gain := { s.gain with
  table := s.gain.table.set 0 { GainEntry.power with applied := { gainZero with owner := some 1 } } } }

theorem test_LocalGainSet_met :
    Met (node desk) (fun s => s.start.func = .desk) ∧
    Met (node owned) (fun s => s.start.func = .stage ∧ (decidedSetting (gainAt s 0)).owner = some 1) ∧
    Met (node (lockAt 2)) (fun s => s.start.func = .stage ∧ 2 ≤ s.lock.level ∧
      (decidedSetting (gainAt s 0)).owner = none ∧ (decidedSetting (gainAt s 0)).pad = false) ∧
    (∀ n ∈ [11, 12], Met (node (queueAs n ∘ follows)) fun s => s.start.func = .stage ∧ s.lock.level < 2 ∧
      (decidedSetting (gainAt s 0)).owner = none ∧ (decidedSetting (gainAt s 0)).gain = 0 ∧
      writesCells (loopMode s) = true ∧ s.queue.items.length = n) ∧
    Met (node id) (fun s => s.start.func = .stage ∧ (decidedSetting (gainAt s 63)).gain = 0 ∧
      writesCells (loopMode s) = false ∧ s.gain.table[63]? = some (gainAt s 63) ∧
      newer8 ((gainAt s 63).issued + 1) (gainAt s 63).serial = true) := by
  refine ⟨met rfl (by decide +kernel), met rfl (by decide +kernel), met rfl (by decide +kernel), fun n hn => ?_,
    met rfl (by decide +kernel)⟩
  simp only [List.mem_cons, List.not_mem_nil, or_false] at hn
  rcases hn with rfl | rfl <;> exact met rfl (by decide +kernel)

theorem test_GainAsked_met :
    Met (node id) (fun s => s.start.func = .stage ∧ (3 : Nat) ≠ s.start.id.val) ∧
    Met (node desk) (fun s => s.start.func = .desk ∧ (3 : Nat) ≠ s.start.id.val ∧ s.start.held = false ∧
      s.loop.conflict = none ∧ (∀ e ∈ s.loop.copy.entries, e.id.val ≠ 3) ∧ s.lock.view.getD 3 none = none ∧
      admission 5 true s = none) ∧
    Met (node (fullOps ∘ desk)) (fun s => admission 5 true s = some .busy) ∧
    Met (node fun s => { desk s with lock := { s.lock with view := s.lock.view.set 3 (some 2) } }) (fun s =>
      s.lock.view.getD 3 none = some 2) := by
  refine ⟨met rfl ?_, met rfl ?_, met rfl ?_, met rfl ?_⟩ <;> decide +kernel

theorem test_PreampLane_met :
    Met (node desk) (fun s => s.start.func = .desk) ∧
    Met (node fun s => { s with gain := { s.gain with records := [⟨0, 0, false, false⟩] } }) (fun s =>
      s.start.func = .stage ∧ s.gain.laneUsed = false ∧ s.gain.records = [⟨0, 0, false, false⟩]) ∧
    Met (node fun s => { s with gain := { s.gain with table := s.gain.table.set 63 { GainEntry.power with mute := some 0 } } })
      (fun s => (gainAt s 63).mute = some 0 ∧ (gainAt s 0).mute ≠ some 0 ∧ s.gain.records = []) := by
  refine ⟨met rfl ?_, met rfl ?_, met rfl ?_⟩ <;> decide +kernel

/-! ### Hypotheses met: keys -/

/-- Key V0 is on, and in this state. -/
def keyIn (st : KeyState) : KeyRec := { KeyRec.power with enabled := true, state := st }

theorem test_TalkDecided_met :
    (∀ d ∈ [(⟨⟨1, .k0⟩, 2⟩ : Claim)], d.talker ≠ ⟨2, .k0⟩ ∧ d.priority < 3 ∧ 2 ≤ d.priority) ∧
    (List.replicate 8 (⟨⟨1, .k0⟩, 0⟩ : Claim)).length = 8 ∧
    (∀ i ∈ (node id).queue.items, i.sends = 0 → ∀ x n d, i.body ≠ .talkGrant .tb1 x n d) ∧
    (node id).queue.items.length < 16 := by
  refine ⟨by decide, by decide, fun i hi => ?_, by decide +kernel⟩
  have e : (node id).queue.items = [] := by decide +kernel
  rw [e] at hi
  cases hi

theorem test_KeyStored_met :
    Met (node (keyAs .v0 (keyIn .talking))) (fun s => keyActive (keyAt s .v0).state = true ∧ s.lock.level = 0 ∧
      (keyAt s .v0).enabled = true ∧ s.loop.role = .follower ∧ s.queue.items.length < 16) ∧
    Met (node (lockAt 1)) (fun s => (keyAt s .v0).state = .idle ∧ 1 ≤ s.lock.level) ∧
    Met (node id) (fun s => (keyAt s .v0).state = .idle ∧ s.lock.level = 0) ∧
    (∀ st ∈ [KeyState.refused, .dropped], Met (node (keyAs .v0 (keyIn st))) fun s =>
      (keyAt s .v0).enabled = true ∧ (keyAt s .v0).state = st ∧ s.lock.level = 0) := by
  refine ⟨met rfl (by decide +kernel), met rfl (by decide +kernel), met rfl (by decide +kernel), fun st hs => ?_⟩
  simp only [List.mem_cons, List.not_mem_nil, or_false] at hs
  rcases hs with rfl | rfl <;> exact met rfl (by decide +kernel)

theorem test_KeysPressedAndTimed_met :
    (keyVirtual .k0 = false ∧ keyVirtual .v0 = true) ∧
    Met (node id) (fun s => (keyAt s .v0).pressed = false ∧ (keyAt s .k0).pressed = false ∧
      (keyAt s .k0).settle = none ∧ (keyAt s .k0).settleMs ≠ 0 ∧ (keyAt s .k0).answer ≠ some 0) ∧
    Met (node (keyAs .k0 { keyIn .idle with settleMs := 0 })) (fun s =>
      true ≠ (keyAt s (keyOfInput 0)).pressed ∧ (keyAt s (keyOfInput 0)).settleMs = 0 ∧
        (keyAt s (keyOfInput 0)).settle = none) ∧
    Met (node (keyAs .k0 { keyIn .idle with settle := some 5 })) (fun s =>
      true ≠ (keyAt s (keyOfInput 0)).pressed ∧ (keyAt s (keyOfInput 0)).settle.isSome = true) ∧
    Met (node (keyAs .k0 { keyIn .idle with settle := some 0 })) (fun s =>
      (keyAt s (keyOfInput 0)).settle = some 0) ∧
    (∀ n ∈ [15, 16], Met (node (queueAs n ∘ keyAs .v0 { keyIn .claiming with answer := some 0 })) fun s =>
      (keyAt s .v0).answer = some 0 ∧ (keyAt s .v0).state = .claiming ∧ s.loop.role = .follower ∧
        s.queue.items.length = n) ∧
    Met (node (keyAs .v0 { keyIn .talking with answer := some 0 })) (fun s =>
      (keyAt s .v0).answer = some 0 ∧ (keyAt s .v0).state ≠ .claiming) := by
  refine ⟨by decide, met rfl (by decide +kernel), met rfl (by decide +kernel), met rfl (by decide +kernel),
    met rfl (by decide +kernel), fun n hn => ?_, met rfl (by decide +kernel)⟩
  simp only [List.mem_cons, List.not_mem_nil, or_false] at hn
  rcases hn with rfl | rfl <;> exact met rfl (by decide +kernel)

/-- What the press and the lift of a key find, case by case. -/
theorem test_PressAndLift_met :
    Met (node id) (fun s => (keyAt s .v0).enabled = false) ∧
    Met (node (keyAs .v0 (keyIn .idle))) (fun s => (keyAt s .v0).enabled = true ∧ (keyAt s .v0).state = .idle ∧
      s.isOrigin = false ∧ s.loop.following = false) ∧
    Met (node (keyAs .v0 (keyIn .idle) ∘ follows)) (fun s => (keyAt s .v0).enabled = true ∧
      (keyAt s .v0).state = .idle ∧ s.isOrigin = false ∧ s.loop.following = true ∧
      writesCells (loopMode s) = true ∧ s.queue.items.length < 16) ∧
    (∀ l, Met (node (keyAs .v0 { keyIn .talking with latched := l, press := some ⟨38399, 400⟩ })) fun s =>
      (keyAt s .v0).enabled = true ∧ keyActive (keyAt s .v0).state = true ∧ (keyAt s .v0).latched = l ∧
        (keyAt s .v0).mode = .auto ∧ (keyAt s .v0).press = some ⟨38399, 400⟩ ∧ 38399 < 400 * 96 ∧
        s.isOrigin = false ∧ s.queue.items.length < 16) ∧
    Met (node (keyAs .v0 { keyIn .stacked with press := some ⟨38400, 400⟩ })) (fun s =>
      keyActive (keyAt s .v0).state = true ∧ (keyAt s .v0).mode = .auto ∧
        (keyAt s .v0).press = some ⟨38400, 400⟩ ∧ 400 * 96 ≤ 38400) ∧
    Met (node (keyAs .v0 (keyIn .refused))) (fun s => (keyAt s .v0).enabled = true ∧ (keyAt s .v0).state = .refused) := by
  refine ⟨met rfl (by decide +kernel), met rfl (by decide +kernel), met rfl (by decide +kernel), fun l => ?_,
    met rfl (by decide +kernel), met rfl (by decide +kernel)⟩
  cases l <;> exact met rfl (by decide +kernel)

/-! ### Hypotheses met: the Control Port -/

def ctlAs (f : ControlRec → ControlRec) (s : State) : State := { s with ctl := f s.ctl }
def anEntry (n : Nat) : InboxEntry := ⟨0, .ok, n⟩

theorem test_SpiFrameChosen_met :
    Met (node (ctlAs fun c => { c with inbox := [anEntry 0], overflow := some (anEntry 1) })) (fun s =>
      s.start.line = .spi ∧ s.ctl.inbox.head? = some (anEntry 0) ∧ s.ctl.overflow = some (anEntry 1)) ∧
    Met (node (ctlAs fun c => { c with inbox := [anEntry 1], overflow := some (anEntry 0) })) (fun s =>
      s.ctl.inbox.head? = some (anEntry 1) ∧ s.ctl.overflow = some (anEntry 0)) ∧
    Met (node (ctlAs fun c => { c with notices := [.lockLoop 1] })) (fun s =>
      s.ctl.inbox = [] ∧ s.ctl.overflow = none ∧ s.ctl.notices = [.lockLoop 1]) ∧
    Met (node id) (fun s => s.ctl.inbox = [] ∧ s.ctl.overflow = none ∧ s.ctl.notices = []) ∧
    Met (node uartAs) (fun s => s.start.line = .uart) := by
  refine ⟨met rfl ?_, met rfl ?_, met rfl ?_, met rfl ?_, met rfl ?_⟩ <;> decide +kernel

theorem test_SpiTransactions_met :
    (∀ item ∈ [ChosenItem.empty, .inbox 0, .overflow 0, .notice], ∀ n ∈ [1, 9],
      Met (node (ctlAs fun c => { c with chosen := some ⟨item, List.replicate n 0⟩ })) fun s =>
        s.start.line = .spi ∧ s.ctl.chosen = some ⟨item, List.replicate n 0⟩ ∧ Taken s) ∧
    Met (node uartAs) (fun s => s.start.line = .uart) ∧
    (List.replicate 250 (0 : Byte)).length ≤ 250 ∧
    judgeBytes [] = .silent ∧ judgeBytes (lineFrame 1 5 1 []) = .good 5 1 [] ∧
    parseRequest 5 1 [] = .request (.status 5) ∧ parseRequest 5 31 [] = .unknown ∧
    parseRequest 5 1 [0] = .unfit ∧ judgeBytes [0xA5, 1, 5, 1, 0, 0, 0] = .damaged ∧
    Met (node id) (fun s => s.start.line = .spi ∧ s.ctl.chosen = none) := by
  refine ⟨fun item hi n hn => ?_, met rfl (by decide +kernel), by decide +kernel, by decide +kernel, by decide +kernel,
    by decide +kernel, by decide +kernel, by decide +kernel, by decide +kernel, met rfl (by decide +kernel)⟩
  simp only [List.mem_cons, List.not_mem_nil, or_false] at hi hn
  have room (f : ControlRec → ControlRec) (h : calm (ctlAs f running) = true) : Taken (node (ctlAs f)) :=
    (met (p := fun _ => True) h trivial).1
  rcases hi with rfl | rfl | rfl | rfl <;> rcases hn with rfl | rfl <;>
    exact met rfl ⟨by decide +kernel, by decide +kernel, room _ rfl⟩

theorem test_UartLine_met :
    Met (node uartAs) (fun s => s.start.line = .uart ∧ s.ctl.openFrame = none ∧ s.ctl.chosen = none) ∧
    (∀ n ∈ [95, 96], Met (node (ctlAs (fun c => { c with openFrame := some ⟨[0xA5], n⟩ }) ∘ uartAs)) fun s =>
      s.ctl.openFrame = some ⟨[0xA5], n⟩ ∧ frameComplete ([0xA5] ++ [1]) = false) ∧
    Met (node (ctlAs (fun c => { c with openFrame := some ⟨[0xA5, 1, 5, 1, 0, 0], 0⟩ }) ∘ uartAs)) (fun s =>
      s.start.line = .uart ∧ s.ctl.openFrame = some ⟨[0xA5, 1, 5, 1, 0, 0], 0⟩ ∧
        frameComplete ([0xA5, 1, 5, 1, 0, 0] ++ [0]) = true) ∧
    Met (node (ctlAs (fun c => { c with chosen := some ⟨.notice, [0]⟩ }) ∘ uartAs)) (fun s =>
      s.start.line = .uart ∧ s.ctl.chosen = some ⟨.notice, [0]⟩) ∧
    Met (node id) (fun s => s.start.line = .spi) := by
  refine ⟨met rfl (by decide +kernel), fun n hn => ?_, met rfl (by decide +kernel), met rfl (by decide +kernel),
    met rfl (by decide +kernel)⟩
  simp only [List.mem_cons, List.not_mem_nil, or_false] at hn
  rcases hn with rfl | rfl <;> exact met rfl (by decide +kernel)

/-! ### Hypotheses met: the frame period and the invariants -/

theorem test_FramePeriodPasses_met :
    Met (node follows) (fun s => (s.port .a).txOn = true) ∧ Met (node id) (fun s => (s.port .a).txOn = false) := by
  refine ⟨met rfl ?_, met rfl ?_⟩ <;> decide +kernel

/-- A running state with a waiting command that is in order in every way the invariants name. -/
def inOrder : State := node fun s => { s with pending := [.owedAdmit] }

theorem test_StepKeeps_met : (inOrder.inReset = true → ResetClear inOrder) ∧ Settled inOrder ∧
    OutputsSafe inOrder ∧ WithinRoom inOrder ∧ PendingInOrder inOrder ∧ WrapsInOrder inOrder ∧
    inOrder.pending = [.owedAdmit] ∧ ∃ t, step inOrder = .next t := by
  refine ⟨?_, settle_settled { running with pending := [.owedAdmit] }, ?_, ⟨?_, ?_, ?_, ?_, ?_⟩, ⟨?_, ?_⟩, ⟨?_, ?_, ?_⟩, ?_, _, rfl⟩
  case refine_2 =>
    unfold OutputsSafe OutClean
    decide +kernel
  case refine_11 => intro p; cases p <;> decide +kernel
  case refine_12 => intro p; cases p <;> decide +kernel
  case refine_1 =>
    intro h
    have e : inOrder.inReset = false := by decide +kernel
    rw [e] at h
    cases h
  all_goals decide +kernel

theorem test_ForResetStates_met : State.reset.inReset = true ∧ ResetClear State.reset := by
  exact ⟨rfl, test_ReleasesStart_met true false⟩

/-- A 96k node expects a frame of a 48k line in every other period, a 48k node two of a 96k line in each. -/
theorem test_positions_by_line : positionsPast .k96 .power = 0 ∧ positionsPast .k96 { PortRec.power with position := 1 } = 1 ∧
    positionsPast .k48 { PortRec.power with lineRate := .k96 } = 2 := by decide

/-! ### Hypotheses met: what a visit, a message and a switch frame find -/

theorem test_StatusByRole_met :
    Met (node (roleOf .master)) (fun s => s.start.role = .master ∧ s.start.func = .stage) ∧
    Met (node desk) (fun s => s.start.role ≠ .master ∧ s.start.func = .desk) := by
  refine ⟨met rfl ?_, met rfl ?_⟩ <;> decide +kernel

/-- The copy of a follower is current, places nodes 1 and 2, and gives slot 3 to node `w`, from input 5. -/
def placed (w : NodeId) (s : State) : State := { follows s with
  slots := { slotsWith ⟨.assigned, some w, some 5, none⟩ with current := true, lastApplied := some 4 }
  loop := { (follows s).loop with copy := ⟨some 1, [⟨1, some .stage, some .master, some 1, some .forward⟩,
    ⟨2, some .stage, some .member, some 2, some .forward⟩]⟩ } }

theorem test_TapLatencies_met :
    (loopMode (placed 2 running) = .closed ∧ (entryAt (placed 2 running) 3).writer = some running.start.id) ∧
    (copyPos (placed 1 running) 1 = some 1 ∧ copyPos (placed 1 running) running.start.id = some 2 ∧
      (entryAt (placed 1 running) 3).writer = some 1) ∧
    ((entryAt (placed 5 running) 3).writer = some 5 ∧ copyPos (placed 5 running) 5 = none) := by decide +kernel

/-- A loop frame of the group a follower follows, that has not visited it. -/
def loopFrame (g : OriginGroup) : Frame :=
  ⟨⟨5, g, 0, .k48, 0, [1], [⟨1, .forward⟩]⟩, none, List.replicate 8 none, some (List.replicate 256 0)⟩

/-- Port A of a follower keeps this wrap. -/
def wrapped (w : Wrap) (s : State) : State := { follows s with loop := { (follows s).loop with wrapA := w } }

theorem test_Dispatch_met :
    let g : OriginGroup := ⟨1, .master, 1⟩;
    let s := follows running;
    let o := originAs .deputy running;
    (loopFrame g).header.rate = s.start.rate ∧
    (loopMode s = .closed ∧ s.wrapAt .a = .none ∧ g.id ≠ s.start.id ∧ followedGroup s = some g) ∧
    (groupWins ⟨0, .master, 1⟩ g = true ∧ groupWins ⟨3, .master, 1⟩ g = false ∧ newer16 2 g.epoch = true) ∧
    (o.loop.role = .origin ∧ o.loop.group = some ⟨2, .deputy, 1⟩ ∧ groupWins g ⟨2, .deputy, 1⟩ = true) ∧
    ((originAs .master running).loop.role = .origin ∧ groupWins ⟨1, .master, 1⟩ ⟨2, .master, 1⟩ = true) ∧
    (loopMode (orphanWith 1 running) = .orphan ∧ followedGroup (orphanWith 1 running) = none) ∧
    loopMode { s with loop := { s.loop with conflict := some .masterMet } } = .conflict ∧
    loopMode (heldAs s) = .held ∧ (wrapped .loss running).wrapAt .a = .loss ∧
    (isPlanned ((wrapped (.planned (some 1)) running).wrapAt .a) = true ∧
      (wrapped (.planned (some 1)) running).usable .a = true ∧
      linkPortOf aLink running.start.id = some .a ∧ reached (loopFrame g).header.count 5 = true) ∧
    (running.start.id ∉ (loopFrame g).header.visited ∧ (5 : FrameNo) ∉ s.loop.visits) ∧
    ((s.port .a).state = .up ∧ (s.port .a).flags.fixed = false ∧ (s.port .a).clearRun + 1 < 48) := by
  decide +kernel

theorem test_PartnerLost_met :
    let away : LinkField := ⟨3, .b, { offerOf true with loopName := 7 }⟩;
    let moved : LinkField := ⟨3, .b, offerOf true⟩;
    (away.offer.loopName ≠ running.start.loopName ∧ away.sender ≠ running.start.id) ∧
    (moved.offer.loopName = running.start.loopName ∧ moved.offer.rate = running.start.rate) ∧
    (∀ st ∈ [PortState.offer, .mismatch, .up], Met (node (portAs { portIn st with clearRun := 46 })) fun s =>
      (s.port .a).state = st ∧ (s.port .a).clearRun + 1 < 48 ∧ (s.port .a).flags.fixed = false) ∧
    Met (node (portAs { portIn .up with flags := ⟨false, true, false⟩ })) (fun s =>
      (s.port .a).state = .up ∧ (s.port .a).flags.fixed = true) ∧
    Met (node bothUp) (fun s => (s.port .a).partner = some (partnerOf .a) ∧ (partnerOf .a).sender ≠ moved.sender ∧
      s.usable .a = true ∧ s.usable .b = true) ∧
    Met (node fun s => { wrapped .loss s with portA := { upPort .a with flags := ⟨false, false, true⟩ } }) (fun s =>
      (s.port .a).state = .up ∧ (s.port .a).flags.remoteFault = true ∧ s.usable .a = false ∧ s.wrapAt .a = .loss) := by
  refine ⟨by decide, by decide, fun st hs => ?_, met rfl ?_, met rfl ?_, met rfl ?_⟩
  case refine_1 =>
    simp only [List.mem_cons, List.not_mem_nil, or_false] at hs
    rcases hs with rfl | rfl | rfl <;> exact met rfl (by decide +kernel)
  all_goals decide +kernel

theorem test_DrillOvertaken_met :
    Met (node fun s => { bothUp s with portB := { portIn .drill with drill := some aDrill, drillT := some 9 } })
      (fun s => (s.port .a).state = .up ∧ lightLevel (some (-28100)) < (s.port .a).loss ∧
        (s.port (portOther .a)).state = .drill ∧ (s.port (portOther .a)).drill = some aDrill) := by
  refine met rfl ?_; decide +kernel

theorem test_FixedOriginFrame_met :
    let f : Frame := { ownFrame with link := none, header := { ownFrame.header with hops := [⟨2, .forward⟩, ⟨1, .ret⟩] } };
    let a : State := node fun s => { awaitsReturn s with portA := { upPort .a with
      partner := none, flags := ⟨false, true, false⟩ } };
    f.link = none ∧ (a.port .a).flags.fixed = true ∧ a.usable .a = true ∧ a.loop.orig.last = some f.header.count ∧
      a.loop.group = some f.header.origin ∧ f.header.hops[1]? = some ⟨1, .ret⟩ ∧
      (∀ h ∈ f.header.hops, h.id ≠ absentTwice.id) ∧ absentTwice ∈ a.loop.ownMap := by decide +kernel

/-- What was written at count 4 in epoch 1, and the frame that brings it back at count 5. -/
def wroteItem (piece : Bool) : WrittenItem := ⟨piece, ⟨none, 0, .gainYield 0 0, none⟩, 4, 1⟩
def cameBack : Frame := { loopFrame ⟨1, .master, 1⟩ with
  cells := (List.replicate 8 none).set 2 (some (wroteItem false).msg) }
def queueRecAs (f : QueueRec → QueueRec) (s : State) : State := { follows s with queue := f s.queue }
def runAs (r : SnapRun) (s : State) : State := { s with snap := { s.snap with run := some r } }
def plannedItem : QItem := { anItem with body := .wrapPlan aLink }

theorem test_Cells_met :
    (∀ piece, cameBack.header.count = (wroteItem piece).count + 1 ∧
      (follows running).loop.epoch = (wroteItem piece).epoch ∧
      cameBack.header.origin.epoch = (wroteItem piece).epoch ∧
      cameBack.cells.getD running.start.id.val none = some (wroteItem piece).msg) ∧
    (let s := opAs ⟨5, .yieldGain, .sent, none, none, none⟩ (queueRecAs (fun q => { q with
        items := [{ anItem with op := some 5 }], written := some (wroteItem false) }) running);
      s.queue.written = some (wroteItem false) ∧ s.queue.items = [{ anItem with op := some 5 }] ∧
        findOp 5 s = some ⟨5, .yieldGain, .sent, none, none, none⟩) ∧
    (let s := runAs ⟨.gain, 0, 14, 1, none, none⟩ (queueRecAs (fun q => { q with
        written := some (wroteItem true) }) running);
      s.queue.written = some (wroteItem true) ∧ s.snap.run = some ⟨.gain, 0, 14, 1, none, none⟩) ∧
    (∀ out ∈ [none, some 7], let s := queueRecAs (fun q => { q with
        items := [plannedItem], outstanding := out }) running;
      s.queue.items = [plannedItem] ∧ bearsSwitch plannedItem.body = true ∧ plannedItem.stamp = none ∧
        s.queue.outstanding = out ∧ pendingOf s s.start.id = none ∧ s.snap.run = none ∧
        ∀ e, s.loop.restart ≠ .prepared e) ∧
    bearsSwitch anItem.body = false ∧
    (∀ r ∈ [(⟨.allot, 1, 63, 0, none, none⟩ : SnapRun), ⟨.allot, 1, 63, 1, some 9, some (1, .snap 1 63 [])⟩,
        ⟨.gain, 0, 15, 0, none, none⟩], let s := runAs r (follows running);
      s.queue.items = [] ∧ s.snap.run = some r ∧ s.queue.outstanding = none) ∧
    (let m : Message := ⟨none, 3, .lockNote 1, none⟩;
      ¬ ((1 : NodeId) = running.start.id ∨ ∀ x, some m = some x → (x.dest ≠ none ∧ x.dest ≠ some running.start.id) ∨
        running.loop.lastActed.getD 1 none = some x.num)) := by
  refine ⟨by decide +kernel, by decide +kernel, by decide +kernel, ?_, by decide, by decide +kernel, ?_⟩
  · intro out h
    simp only [List.mem_cons, List.not_mem_nil, or_false] at h
    rcases h with rfl | rfl <;> exact ⟨rfl, rfl, rfl, rfl, rfl, rfl, fun e h => by cases h⟩
  · intro m h
    rcases h with h | h
    · revert h; decide +kernel
    · rcases h _ rfl with h | h <;> revert h <;> decide +kernel

/-- A held entry of node 1, due at frame 9. -/
def heldOf (x : SwitchItem) : PendingSwitch := ⟨1, x, 9, 1, none, false, .loc⟩
def collects (l : List (Option (List SlotEntry))) (cur : Bool) (s : State) : State := { follows s with
  slots := { s.slots with current := cur, collection := some ⟨2, 9, l⟩, retry := some 5 } }

theorem test_SwitchItems_met :
    (let s := originAs .master (roleOf .master running);
      s.start.role = .master ∧ (dueOf 2 (.allot 5 [])).sender = s.start.id) ∧
    (let s := placed 1 running;
      s.start.role ≠ .master ∧ s.slots.current = true ∧ s.slots.lastApplied = some 4 ∧ (5 : Serial) = 4 + 1 ∧
        newer16 (6 : Serial) 4 = true ∧ (6 : Serial) ≠ 4 + 1 ∧ pendingOf s 1 = none ∧
        (loopFrame ⟨1, .master, 1⟩).header.origin.epoch = s.loop.epoch) ∧
    (let s := placed 2 running;
      s.start.func = .stage ∧ (entryAt s 3).writer = some s.start.id ∧ (entryAt s 3).state = .assigned) ∧
    (let s := placed 1 running;
      (entryAt s 3).state = .assigned ∧ (entryAt s 3).writer = some 1 ∧ (entryAt s 3).input = some 5 ∧
        cacheAt s 3 = none ∧ (1 : NodeId) ≠ s.start.id) ∧
    (∀ cur, let s := collects [none] cur running;
      s.start.role ≠ .master ∧ s.slots.collection = some ⟨2, 9, [none]⟩ ∧ s.slots.current = cur ∧
        reached s.loop.count 0 = true) ∧
    (let s := collects [some []] false running;
      (∀ y ∈ [some ([] : List SlotEntry)], y ≠ none) ∧ writesCells (loopMode s) = true) ∧
    (∀ x ∈ [SwitchItem.snapshot 1, .msg (.allot 5 [])],
      let s := { follows running with switches := [heldOf x] };
      pendingOf s 1 = some (heldOf x) ∧ reached s.loop.count (heldOf x).frame = false ∧
        s.slots.collection = none) := by
  refine ⟨by decide +kernel, by decide +kernel, by decide +kernel, by decide +kernel, ?_, by decide +kernel, by decide +kernel⟩
  intro cur
  cases cur <;> decide +kernel

/-- A master that may pre-empt, with node 1 in its map. -/
def preempts (s : State) : State := { originAs .master (roleOf .master s) with
  loop := { (originAs .master s).loop with preempt := true, ownMap := [⟨1, none, none, 1, .forward, 0⟩] } }

theorem test_HealRefused_Preempts_met :
    Met (node (fullOps ∘ readyLink)) (fun s => (healLink s .any).isSome = true ∧ s.loop.role = .origin ∧ 8 ≤ opCount s) ∧
    Met (node (opAs ⟨5, .heal, .queued, none, none, none⟩ ∘ readyLink)) (fun s =>
      (healLink s .any).isSome = true ∧ opCount s < 8 ∧ (findOp 5 s).isSome = true) ∧
    Met (node (queueAs 12 ∘ readyLink)) (fun s => (healLink s .any).isSome = true ∧ opCount s < 8 ∧
      findOp 5 s = none ∧ s.queue.items.length = 12) ∧
    (∀ n ∈ [15, 16], Met (node (queueAs n ∘ preempts)) fun s => s.start.role = .master ∧ s.loop.preempt = true ∧
      loopMode s = .closed ∧ s.loop.plan = none ∧ (∀ e, some e ∈ s.loop.links → e.wrapped = false) ∧
      (∃ e ∈ s.loop.ownMap, e.id = 1) ∧ linkAt s 2 .a = none ∧ s.queue.items.length = n) := by
  refine ⟨met rfl (by decide +kernel), met rfl (by decide +kernel), met rfl (by decide +kernel), fun n hn => ?_⟩
  have e (n : Nat) : ∀ e, some e ∈ (node (queueAs n ∘ preempts)).loop.links → e.wrapped = false := by
    intro e h
    have h0 : (node (queueAs n ∘ preempts)).loop.links = List.replicate 16 none := rfl
    rw [h0, List.mem_replicate] at h
    cases h.2
  simp only [List.mem_cons, List.not_mem_nil, or_false] at hn
  rcases hn with rfl | rfl <;>
    exact met rfl ⟨by decide +kernel, by decide +kernel, by decide +kernel, by decide +kernel, e _,
      by decide +kernel, by decide +kernel, by decide +kernel⟩

theorem test_GainMessages_met :
    (∀ n ∈ [14, 15, 16], let s := queueAs n (owned running);
      s.start.func = .stage ∧ s.gain.answers.getD 1 none = none ∧ s.queue.items.length = n ∧
        (decidedSetting (gainAt s 0)).owner = some 1 ∧ s.lock.level = 0) ∧
    (let s := lockAt 2 (owned running);
      2 ≤ s.lock.level ∧ (decidedSetting (gainAt s 0)).owner = some 1 ∧ (decidedSetting (gainAt s 0)).pad = false) ∧
    (desk running).start.func = .desk ∧
    (let s : State := { running with gain := { running.gain with
        answers := running.gain.answers.set 1 (some ⟨5, 7, .ok⟩) } };
      s.gain.answers.getD 1 none = some ⟨5, 7, .ok⟩) ∧
    (let s := opAs ⟨5, .setGain, .awaiting, some 9, none, some (3, 63)⟩ running;
      findOp 5 s = some ⟨5, .setGain, .awaiting, some 9, none, some (3, 63)⟩) := by decide +kernel

/-- The node's view of TB1 stands at serial 4, and its key V0 is in this state. -/
def viewed (st : KeyState) (s : State) : State := keyAs .v0 (keyIn st) { follows s with
  talk := { s.talk with views := s.talk.views.set 0 ⟨some 4, none⟩ } }

theorem test_TalkMessages_met :
    (∀ r ∈ [Rank.master, .deputy], (originAs r running).loop.role = .origin ∧
      (originAs r running).loop.conflict = none) ∧
    (∀ st ∈ [KeyState.claiming, .stacked, .talking, .idle], let s := viewed st running;
      (viewAt s .tb1).serial = some 4 ∧ newer16 (5 : Serial) 4 = true ∧ newer16 (4 : Serial) 4 = false ∧
        (keyAt s .v0).bus = .tb1 ∧ (keyAt s .v0).state = st ∧ s.talk.keys.length = 12 ∧ s.talk.views.length = 4 ∧
        s.talk.records.length = 4 ∧ s.loop.role = .follower) ∧
    (let s := placed 2 running;
      let t : State := { s with slots := { s.slots with table := s.slots.table.set 252 ⟨.talk, some 2, none, none⟩ } };
      talkSlot t.start.rate .tb1 = 252 ∧ (entryAt t 252).writer = some t.start.id ∧ t.slots.current = true) ∧
    (∀ n ∈ [15, 16], Met (node (queueAs n ∘ keyAs .v0 (keyIn .talking) ∘ follows)) fun s =>
      keyActive (keyAt s .v0).state = true ∧ (keyAt s .v0).enabled = true ∧ s.loop.role = .follower ∧
        s.queue.items.length = n) ∧
    Met (node (keyAs .v0 (keyIn .idle) ∘ originAs .deputy)) (fun s => s.isOrigin = true ∧ s.loop.conflict = none ∧
      (decideClaim ⟨⟨s.start.id, .v0⟩, 0⟩ (busAt s .tb1)).2 = .grant) ∧
    Met (node (keyAs .v0 (keyIn .talking) ∘ originAs .deputy)) (fun s => s.loop.role = .origin ∧
      s.loop.conflict = none ∧ (decideRelease ⟨s.start.id, .v0⟩ (busAt s .tb1)).2 = .nothing) := by
  refine ⟨by decide +kernel, by decide +kernel, by decide +kernel, fun n hn => ?_, met rfl (by decide +kernel),
    met rfl (by decide +kernel)⟩
  simp only [List.mem_cons, List.not_mem_nil, or_false] at hn
  rcases hn with rfl | rfl <;> exact met rfl (by decide +kernel)

theorem test_FadeEntered_met :
    Met (node (outAs { safeOut { CauseSet.empty with forced := true } with state := .fadingOut, entered := true }
      localTap)) (fun s => (outAt s 0).state = .fadingOut ∧ (outAt s 0).pos = 0 ∧ (outAt s 0).entered = true) ∧
    (∀ k ∈ [(-80 : Int), 40, 20, -20, 1], -80 ≤ k ∧ k ≤ 40) := by
  refine ⟨met rfl ?_, by decide⟩; decide +kernel

theorem test_DamagedBytes_met :
    judgeBytes [0xA5, 1, 5, 1, 251] = .damaged ∧ judgeBytes [0xA5, 2, 5, 1, 0, 0, 0] = .damaged ∧
    judgeBytes [0xA5, 1, 5, 1, 1, 0, 0] = .damaged ∧ judgeBytes [0xA5, 1, 5] = .damaged := by decide +kernel

theorem test_PeriodByRole_met :
    Met (node follows) (fun s => s.loop.role = .follower ∧ s.start.role ≠ .deputy ∧ s.loop.visited = false) ∧
    Met (node (originAs .deputy)) (fun s => s.loop.role = .origin ∧ s.start.held = false ∧ s.loop.conflict = none ∧
      s.loop.originated = false ∧ s.loop.group = some ⟨2, .deputy, 1⟩ ∧ s.usable .b = true ∧ (s.port .b).txOn = true ∧
      ∀ e, s.loop.restart ≠ .written e) ∧
    Met (node fun s => { s with
        supervision := { s.supervision with timer := some 1 }, safety := { s.safety with panicT := some 1 } })
      (fun s => s.supervision.timer = some 1 ∧ s.safety.panicT = some 1) := by
  refine ⟨met rfl (by decide +kernel), met rfl ⟨by decide +kernel, by decide +kernel, by decide +kernel,
    by decide +kernel, by decide +kernel, by decide +kernel, by decide +kernel, fun e h => by cases h⟩,
    met rfl (by decide +kernel)⟩

/-- Node 1's answer record stands at the master. -/
def answered (s : State) : State := { roleOf .master s with slots := { s.slots with
  answers := s.slots.answers.set 1 (some ⟨5, 7, [.refused .full]⟩) } }

theorem test_SlotMessages_met :
    (∀ n ∈ [14, 15, 16], let s := queueAs n (roleOf .master running);
      s.start.role = .master ∧ s.slots.answers.getD 1 none = none ∧ s.queue.items.length = n ∧ s.lock.level = 0) ∧
    (claimPairs .k48 running.slots 1 [] [⟨none, 63⟩]).2 ≠ [] ∧
    (claimPairs .k48 running.slots 1 [] [⟨some 252, 63⟩]).2 = [] ∧
    (releaseSlots .k48 (slotsWith ⟨.assigned, some 1, some 5, none⟩) 1 false [] [3]).2 ≠ [] ∧
    (releaseSlots .k48 running.slots 1 false [] [3]).2 = [] ∧
    (lockAt 1 (roleOf .master running)).lock.level = 1 ∧
    (∀ n ∈ [15, 16], (queueAs n (answered running)).slots.answers.getD 1 none = some ⟨5, 7, [.refused .full]⟩ ∧
      (queueAs n (answered running)).queue.items.length = n) ∧
    ((originAs .deputy (roleOf .deputy running)).start.role ≠ .master ∧
      (originAs .deputy (roleOf .deputy running)).loop.role = .origin) ∧
    (running.start.role ≠ .master ∧ running.loop.role = .follower ∧
      findOp 5 (opAs ⟨5, .claimSlot, .awaiting, some 9, none, none⟩ running) =
        some ⟨5, .claimSlot, .awaiting, some 9, none, none⟩ ∧
      findOp 5 (opAs ⟨5, .claimSlot, .sent, none, none, none⟩ running) =
        some ⟨5, .claimSlot, .sent, none, none, none⟩) ∧
    (let s := roleOf .master (runAs ⟨.gain, 0, 0, 0, none, none⟩ running); s.snap.run ≠ none) ∧
    (let s := roleOf .master (queueRecAs (fun q => { q with outstanding := some 7 }) running);
      s.snap.run = none ∧ s.queue.outstanding ≠ none ∧ s.snap.pendGain = false) ∧
    (let s := roleOf .master running; s.snap.run = none ∧ s.queue.outstanding = none) := by decide +kernel

theorem test_MapAndLockNote_met :
    let one : MapEntry := ⟨1, some .stage, some .master, some 1, some .forward⟩;
    let two : MapEntry := ⟨2, some .stage, some .member, some 2, some .forward⟩;
    ((placed 2 running).loop.copy.entries = [one, two] ∧ (∃ e ∈ [two], e.id = running.start.id) ∧
      (∀ e ∈ [one], e.id ≠ running.start.id)) ∧
    (∀ i ∈ running.loop.copy.entries, i.pos = none) ∧
    (running.start.func = .stage ∧ running.snap.run = none ∧ running.snap.pendAllot = false ∧
      (desk running).start.func = .desk ∧ (runAs ⟨.gain, 0, 0, 0, none, none⟩ running).snap.run ≠ none) ∧
    (running.ctl.notices.length < 24 ∧ running.queue.items = []) ∧
    (running.lock.view.getD 1 none = none ∧ running.lock.view.getD 2 none = some 0 ∧ running.start.id = 2) := by
  decide +kernel

/-- A MAP that places the node anew enters the copy, and the node's LOCK_NOTE the queue. -/
theorem test_map_joins :
    let t := actOn 1 (loopFrame ⟨1, .master, 1⟩).header
      ⟨none, 3, .map 9 [⟨2, some .stage, some .member, some 2, some .forward⟩], none⟩ (follows running);
    t.loop.copy = ⟨some 9, [⟨2, some .stage, some .member, some 2, some .forward⟩]⟩ ∧
      t.queue.items.map (·.body) = [.lockNote 0] ∧ t.ctl.notices = [.mapChange (some 9) [2] [2] []] := by
  decide +kernel

/-- A HEAL of this master waits in the queue, and its entry in the switch list. -/
def heals (s : State) : State := { opAs ⟨5, .heal, .sent, none, none, none⟩ (originAs .master (roleOf .master s)) with
  queue := { s.queue with items := [{ anItem with body := .unwrapPlan aLink, op := some 5, sends := 1 }] }
  switches := [⟨2, .msg (.unwrapPlan aLink), 9, 1, some 5, false, .loc⟩] }

theorem test_RestartHeard_met :
    (let s := opAs ⟨5, .yieldGain, .sent, none, none, none⟩ (queueRecAs (fun q => { q with
        items := [{ anItem with op := some 5 }] }) running);
      s.loop.role = .follower ∧ s.loop.group = some ⟨1, .master, 1⟩ ∧ (2 : Epoch) ≠ 1 ∧ s.ctl.ops.length ≤ 8 ∧
        (∃ i ∈ s.queue.items, i.op = some 5) ∧ findOp 5 s = some ⟨5, .yieldGain, .sent, none, none, none⟩) ∧
    (originAs .deputy running).loop.role = .origin ∧ running.loop.group = none := by decide +kernel

/-- A discarded entry of the master's own UNWRAP_PLAN ends its HEAL though the plan stands in the queue (R70). -/
theorem test_discarded_heal_ends :
    (∀ x ∈ (heals running).switches, x.epoch ≠ 2 ∧ x.sender = (heals running).start.id ∧ x.op = some 5) ∧
    let t := epochChange ⟨2, .master, 2⟩ .origin (heals running);
    findOp 5 t = none ∧ t.ctl.ended = [⟨5, .heal, .no .lost, .none⟩] ∧
      t.queue.items.map (fun i => (i.body, i.op)) = [(.unwrapPlan aLink, none), (.lockNote 0, none)] := by
  decide +kernel

/-- A collection's entry goes with the collection also where the new group's epoch has the same number (R90). -/
theorem test_collection_discarded :
    let s := { collects [none] true running with switches := [heldOf (.snapshot 2)] };
    (epochChange ⟨0, .master, 1⟩ .follower s).switches = [] ∧
      (epochChange ⟨0, .master, 1⟩ .follower s).slots.collection = none := by decide +kernel

theorem test_UnwrapDue_met :
    let e : PendingSwitch := ⟨1, .msg (.unwrapPlan aLink), 5, 1, none, false, .loc⟩;
    let x : PendingSwitch := ⟨3, .msg (.allot 5 []), 9, 1, none, false, .loc⟩;
    let s : State := { wrapped (.planned (some 1)) running with switches := [x, e, x] };
    loopMode s ≠ .held ∧ loopMode s ≠ .conflict ∧ isPlanned (s.wrapAt .a) = true ∧ s.switches = [x] ++ e :: [x] ∧
      x.sender ≠ e.sender ∧ linkPortOf aLink s.start.id = some .a ∧
      reached (loopFrame ⟨1, .master, 1⟩).header.count e.frame = true ∧
      followedGroup s = some ⟨1, .master, 1⟩ ∧ s.usable .a = true := by decide +kernel

/-- In HELD a frame handed over by a port with REMOTE_FAULT leaves by the other port (R47, R49). -/
theorem test_held_relays :
    let s : State := { heldAs (follows running) with
      portA := { upPort .a with flags := ⟨false, false, true⟩ } };
    ((dispatch .a (loopFrame ⟨1, .master, 1⟩) 0 s).port .b).routed = some (loopFrame ⟨1, .master, 1⟩) := by
  decide +kernel

/-- Two fades that end in one frame period end with the row of either, in one notice (R160). -/
def fading : OutRec := { OutRec.power with state := .fadingIn, pos := 960 }
theorem test_fades_end_together :
    let s := node fun s => { outAs fading localTap s with
      safety := { s.safety with outs := (s.safety.outs.set 0 fading).set 3 fading }
      lanes := { s.lanes with taps := (s.lanes.taps.set 0 localTap).set 3 localTap } };
    (after (.fadeInEnd 3) s).ctl.notices = [.outputChange [0, 3] .live .none .empty .none] := by decide +kernel

theorem test_PeriodCounts_met :
    (∀ seen made, Met (node fun s => { originAs .deputy s with
        loop := { (originAs .deputy s).loop with visited := seen, originated := made } }) fun s =>
      s.loop.role = .origin ∧ s.start.held = false ∧ s.loop.conflict = none ∧ s.loop.visited = seen ∧
        s.loop.originated = made) ∧
    running.inReset = false := by
  refine ⟨fun seen made => ?_, rfl⟩
  cases seen <;> cases made <;> exact met rfl (by decide +kernel)

/-- The node originates, with one message that has been sent 4 times at the head of its queue. -/
def spent (m : LoopMsg) (s : State) : State :=
  headAs { anItem with body := m, sends := 4, group := some ⟨2, .deputy, 1⟩ } (originAs .deputy s)
/-- An allotment snapshot or none runs, one or none is outstanding, and each kind is pending or not. -/
def snapAs (run : Option SnapRun) (out : Option FrameNo) (allot gain : Bool) (s : State) : State := { s with
  queue := { s.queue with outstanding := out }
  snap := { s.snap with run := run, pendAllot := allot, pendGain := gain } }

theorem test_QueueDrops_met :
    (∀ m ∈ [LoopMsg.allot 5 [⟨3, none⟩], .gainNote 1 gainZero 2, .talkRelease .tb1 .k0, .talkGrant .tb1 none 1 0,
        .talkClaim .tb1 .k0 3], ∀ run ∈ [none, some ⟨.gain, 0, 3, 1, none, none⟩], ∀ out ∈ [none, some 9],
      Met (node (snapAs run out true true ∘ spent m)) fun s => s.queue.written = none ∧
        writesCells (loopMode s) = true ∧ (∃ i, s.queue.items = [i] ∧ i.body = m ∧ i.sends = 4 ∧ i.op = none ∧
          i.group = s.loop.group) ∧ (∀ r, s.snap.run = some r → r.sends < 4) ∧ s.snap.run = run ∧
        s.queue.outstanding = out ∧ s.snap.pendAllot = true ∧ s.snap.pendGain = true) ∧
    (∀ st ∈ [KeyState.claiming, .dropped], ∀ f ∈ [originAs .deputy, follows],
      Met (node (keyAs .k0 (keyIn st) ∘ headAs { anItem with body := .talkClaim .tb1 .k0 3, sends := 4 } ∘ f))
        fun s => (keyAt s .k0).state = st ∧ s.loop.conflict = none ∧ writesCells (loopMode s) = true ∧
          s.queue.written = none ∧ s.snap.run = none) := by
  refine ⟨fun m hm run hr out ho => ?_, fun st hs f hf => ?_⟩
  · simp only [List.mem_cons, List.not_mem_nil, or_false] at hm hr ho
    rcases hm with rfl | rfl | rfl | rfl | rfl <;> rcases hr with rfl | rfl <;> rcases ho with rfl | rfl <;>
      exact met rfl ⟨rfl, by decide +kernel, ⟨_, rfl, rfl, rfl, rfl, rfl⟩, by decide +kernel, rfl, rfl, rfl, rfl⟩
  · simp only [List.mem_cons, List.not_mem_nil, or_false] at hs hf
    rcases hs with rfl | rfl <;> rcases hf with rfl | rfl <;> exact met rfl (by decide +kernel)

/-- Nothing is owed. -/
def owesNone (s : State) : Prop := (∀ b, (busAt s b).owed = false) ∧ (∀ k, (keyAt s k).releaseOwed = false) ∧
  s.loop.mapOwed = false ∧ s.loop.noteOwedA = false ∧ s.loop.noteOwedB = false ∧ s.loop.unwrapOwed = [] ∧
  s.lock.noteOwed = false

theorem running_owes : owesNone running := by
  refine ⟨fun b => ?_, fun k => ?_, rfl, rfl, rfl, rfl, rfl⟩
  · cases b <;> rfl
  · cases k <;> rfl

theorem test_OwedAdmitted_met :
    owesNone running ∧
    Met (node (fun s => setBusRec .tb1 { BusRec.empty with owed := true } s)) (fun s => (busAt s .tb1).owed = true ∧
      (busAt s .tb2).owed = false ∧ s.queue.items.length < 16) ∧
    (∀ f ∈ [originAs .deputy, follows], Met (node (keyAs .k0 { KeyRec.power with releaseOwed := true } ∘ f))
      fun s => (keyAt s .k0).releaseOwed = true ∧ (keyAt s .k1).releaseOwed = false ∧ s.loop.conflict = none ∧
        s.queue.items.length < 16) ∧
    (∀ l ∈ [[], [aLink]], Met (node fun s => { originAs .master (roleOf .master s) with
        loop := { (originAs .master s).loop with mapOwed := l.isEmpty, unwrapOwed := l } })
      fun s => s.loop.mapOwed = l.isEmpty ∧ s.loop.unwrapOwed = l ∧ s.queue.items.length < 16) := by
  refine ⟨running_owes, met rfl (by decide +kernel), fun f hf => ?_, fun l hl => ?_⟩
  · simp only [List.mem_cons, List.not_mem_nil, or_false] at hf
    rcases hf with rfl | rfl <;> exact met rfl (by decide +kernel)
  · simp only [List.mem_cons, List.not_mem_nil, or_false] at hl
    rcases hl with rfl | rfl <;> exact met rfl (by decide +kernel)

/-- The ALLOT written at the last visit, the frame that brings it back, and a head that waits behind another item. -/
theorem test_AllotConfirmed_HeldHead_met :
    (let w : WrittenItem := { wroteItem false with msg := ⟨none, 0, .allot 5 [⟨3, none⟩], some 9⟩ };
      let i : QItem := { anItem with body := .allot 5 [⟨3, none⟩], stamp := some 9, sends := 1 };
      let s := queueRecAs (fun q => { q with items := [i], written := some w }) running;
      let f : Frame := { cameBack with cells := (List.replicate 8 none).set 2 (some w.msg) };
      s.queue.written = some w ∧ w.piece = false ∧ s.queue.items = [i] ∧ f.header.count = w.count + 1 ∧
        s.loop.epoch = w.epoch ∧ f.header.origin.epoch = w.epoch ∧
        f.cells.getD s.start.id.val none = some w.msg) ∧
    (∀ stamp ∈ [none, some 7, some 9], ∀ run ∈ [none, some ⟨.gain, 0, 3, 1, none, none⟩],
      let i := { plannedItem with stamp := stamp };
      let s := snapAs run (some 9) false false (headAs i (follows running));
      s.queue.items = [i] ∧ bearsSwitch i.body = true ∧ s.queue.outstanding ≠ none ∧ s.snap.run = run ∧
        (s.queue.outstanding = i.stamp ↔ stamp = some 9) ∧ ∀ e, s.loop.restart ≠ .prepared e) := by
  refine ⟨by decide +kernel, fun stamp hs run hr => ?_⟩
  simp only [List.mem_cons, List.not_mem_nil, or_false] at hs hr
  rcases hs with rfl | rfl | rfl <;> rcases hr with rfl | rfl <;>
    exact ⟨rfl, rfl, by decide, rfl, by decide, fun e h => by cases h⟩

/-- A written piece is still assessed after the queue is emptied at a LOOP reset (R12, R73). -/
theorem test_emptied_keeps_piece : ∀ piece, (emptyQueue (queueRecAs (fun q => { q with
    items := [anItem], written := some (wroteItem piece) }) running)).queue.written =
      if piece then some (wroteItem true) else none := by decide +kernel

/-- The master's map holds these nodes, and both ends of the link from node 0 port A to node 1 port B stand in its
table, wrapped, as given. -/
def linkTable (ids : List NodeId) (near far : LinkEntry) (s : State) : State := { originAs .master (roleOf .master s) with
  loop := { (originAs .master s).loop with
    links := ((List.replicate 16 none).set 0 (some near)).set 3 (some far)
    ownMap := ids.map fun n => ⟨n, none, none, 1, .forward, 0⟩ } }
/-- An end reported usable, in the link with this partner. -/
def goodEnd (n : NodeId) (ready : Bool) : LinkEntry := ⟨some (.port .up), false, some n, none, true, none, ready, false⟩

theorem test_LinkReady_met :
    (∀ ids ∈ [[0, 1], [0]], let s := linkTable ids (goodEnd 1 false) (goodEnd 0 false) running;
      linkAt s 0 .a = some (goodEnd 1 false) ∧ linkReady s 0 .a (goodEnd 1 false) = true ∧ s.start.role = .master ∧
        s.loop.links.length = 16 ∧ (goodEnd 0 false).ready = false) ∧
    (let s := linkTable [1] (goodEnd 1 true) (goodEnd 0 false) running;
      linkAt s 0 .a = some (goodEnd 1 true) ∧ linkReady s 0 .a (goodEnd 1 true) = false) ∧
    (let s := linkTable [0, 1] (goodEnd 1 true) (goodEnd 0 false) running;
      (∀ t ∈ [HealTarget.any, .linkEnd 0 .a, .linkEnd 1 .b], healLink s t = some ⟨0, .a, 1, .b⟩) ∧
        healLink s (.linkEnd 0 .b) = none ∧ linkReady s 0 .a (goodEnd 1 true) = true) ∧
    (LinkState.port .dark ≠ .port .up ∧ LinkState.remoteFault ≠ .port .up) ∧
    (∀ plan ∈ [none, some ⟨1, .b, 0, .a⟩, some aLink], ∀ x ∈ [none, some (1 : NodeId)],
      let s := { linkTable [0, 1] (goodEnd 1 true) (goodEnd 0 false) running with
        loop := { (linkTable [0, 1] (goodEnd 1 true) (goodEnd 0 false) running).loop with plan := plan } };
      s.loop.plan = plan ∧ x.orElse (fun _ => (linkAt s 0 .a).bind (·.partner)) = some 1) ∧
    (∀ st ∈ [LinkState.port .up, .port .dark],
      let s := linkTable [0, 1] (goodEnd 1 true) { goodEnd 0 false with state := some st } running;
      let x : PendingSwitch := ⟨2, .msg (.unwrapPlan ⟨0, .a, 1, .b⟩), 9, 1, none, false, .loc⟩;
      x.sender = s.start.id ∧ s.start.role = .master ∧ s.loop.links.length = 16 ∧
        endStillUsable s 0 .a = true ∧ endStillUsable s 1 .b = linkUsable st) := by decide +kernel

theorem test_MapPublished_Purged_met :
    (∀ m ∈ [LoopMsg.map 1 [], .gainYield 0 0], ∀ n ∈ [0, 15], let s := { running with
        queue := { running.queue with items := List.replicate n anItem ++ [{ anItem with body := m }] } };
      s.queue.items = List.replicate n anItem ++ { anItem with body := m } :: [] ∧ (n = 0 ↔ s.queue.items.length < 16)) ∧
    (∀ d ∈ [none, some (⟨⟨1, .k0⟩, 3⟩ : Claim), some ⟨⟨3, .k0⟩, 3⟩],
      let s := setBusRec .tb1 { BusRec.empty with decided := d, stack := [⟨⟨3, .k1⟩, 2⟩, ⟨⟨1, .k1⟩, 1⟩] } running;
      (busAt s .tb1).decided = d ∧ (busAt s .tb1).stack.length = 2) := by decide +kernel

/-- Tap 0 reads this source, with tracking as given, beside a slot whose entry is known. -/
def tapOn (src : TapSource) (on : Bool) (s : State) : State := { s with lanes := { s.lanes with
  taps := s.lanes.taps.set 0 { Tap.power with source := src, tracking := on, safe := .fallback 0 }
  cache := s.lanes.cache.set 3 (some (⟨10, false, false, none⟩, 0)) } }

theorem test_TapTracking_met :
    (∀ src ∈ [TapSource.slot 3, .slot 4], ∀ on, Met (node (tapOn src on)) fun s => s.lock.level = 0 ∧
      (tapAt s 0).source = src ∧ (tapAt s 0).tracking = on ∧ (tapAt s 0).safe = .fallback 0 ∧
      s.lanes.taps[0]? = some (tapAt s 0) ∧ cacheAt s 3 = some (⟨10, false, false, none⟩, 0) ∧
      cacheAt s 4 = none) ∧
    (let f : TapFields := ⟨none, none, none, none, none, none, none, none, none, none⟩;
      f.source = none ∧ f.tracking = none ∧ f.safe = none ∧ f.resume = none ∧ f.fade = none ∧ f.panicFollow = none ∧
        Met (node (lockAt 2)) fun s => 2 ≤ s.lock.level) := by
  refine ⟨fun src hs on => ?_, rfl, rfl, rfl, rfl, rfl, rfl, met rfl (by decide +kernel)⟩
  simp only [List.mem_cons, List.not_mem_nil, or_false] at hs
  rcases hs with rfl | rfl <;> cases on <;>
    exact met rfl (by decide +kernel)

theorem test_TapFallback_met : Tap.power.safe = .mute ∧ ∀ i ∈ [0, 1],
    ({ Tap.power with safe := .fallback i } : Tap).safe = .fallback i := by decide

/-- A HELD master that writes slot 5 with its input 7. -/
theorem test_NodeCache_met :
    Met (node fun s => { heldAs (roleOf .master (desk s)) with
        slots := { s.slots with table := s.slots.table.set 5 ⟨.assigned, some 2, some 7, some 1⟩ } }) (fun s =>
      s.start.held = true ∧ s.lock.level = 0 ∧ s.start.role = .master ∧ Func.stage ≠ s.start.func ∧
        5 < s.lanes.cache.length ∧ s.slots.table[5]? = some ⟨.assigned, some 2, some 7, some 1⟩ ∧ s.start.id = 2 ∧
        s.lock.view.length = 8) := met rfl (by decide +kernel)

/-- Input 1 has a change in flight whose note stands in the queue, sent or not. -/
def flies (sends : Nat) (s : State) : State := headAs { anItem with body := .gainNote 1 gainZero 2, sends := sends }
  { follows s with gain := { s.gain with
    table := s.gain.table.set 1 { GainEntry.power with inFlight := some ⟨gainZero, 2⟩ } } }

theorem test_SoftBlocks_met :
    (∀ r ∈ [Role.master, .member], Met (node (roleOf r)) fun s =>
      s.lock.level < 3 ∧ s.start.holdn = true ∧ s.start.role = r) ∧
    (∀ n ∈ [0, 1], Met (node (flies n)) fun s => s.lock.level < 3 ∧
      s.gain.table[1]? = some { GainEntry.power with inFlight := some ⟨gainZero, 2⟩ } ∧
      s.queue.items = [{ anItem with body := .gainNote 1 gainZero 2, sends := n }] ∧ s.switches = [] ∧
      newer8 2 GainEntry.power.serial = true ∧ s.gain.table[0]? = some .power) ∧
    (∀ hold ∈ [0, 100], ∀ res ∈ [ResumeMode.auto, .manual], ∀ forced,
      Met (node fun s => outAs (safeOut { CauseSet.empty with forced := forced }) { localTap with resume := res }
          { s with safety := { s.safety with holdMs := hold } }) fun s =>
        s.lock.level < 3 ∧ s.safety.outs[0]? = some (outAt s 0) ∧ (outAt s 0).causes.forced = forced ∧
          (tapAt s 0).source = .loc 0 ∧ (tapAt s 0).resume = res ∧ s.safety.holdMs = hold ∧
          (tapAt s 1).source = .unused ∧ s.start.holdn = true) := by
  refine ⟨fun r hr => ?_, fun n hn => ?_, fun hold hh res hr forced => ?_⟩
  · simp only [List.mem_cons, List.not_mem_nil, or_false] at hr
    rcases hr with rfl | rfl <;> exact met rfl (by decide +kernel)
  · simp only [List.mem_cons, List.not_mem_nil, or_false] at hn
    rcases hn with rfl | rfl <;> exact met rfl (by decide +kernel)
  · simp only [List.mem_cons, List.not_mem_nil, or_false] at hh hr
    rcases hh with rfl | rfl <;> rcases hr with rfl | rfl <;> cases forced <;> exact met rfl (by decide +kernel)

/-- A due UNWRAP_PLAN for a frame whose group the node does not follow: a losing and a winning one (R49, R72). -/
theorem test_UnwrapDueElsewhere_met :
    ∀ g ∈ [(⟨3, .deputy, 1⟩ : OriginGroup), ⟨0, .master, 1⟩],
      let s : State := { wrapped (.planned (some 1)) running with
        switches := [⟨1, .msg (.unwrapPlan aLink), 5, 1, none, false, .loc⟩] };
      loopMode s ≠ .held ∧ loopMode s ≠ .conflict ∧ isPlanned (s.wrapAt .a) = true ∧ (unwrapDue s .a (loopFrame g)).isSome = true ∧
        followedGroup s ≠ some g ∧ s.usable .a = true ∧ (loopFrame g).header.rate = s.start.rate ∧
        mergeDue s .a (loopFrame g) = (g.rank == .master) := by decide +kernel

/-! ### What the local count, the line and the outputs do -/

/-- The count of a follower stands just before, or at, the last at which its visit to frame 5 is remembered. -/
def remembers (c : FrameNo) (s : State) : State := { follows s with
  loop := { (follows s).loop with count := c, visits := [5] } }

/-- A visited count is forgotten once the local count has moved half its range past it, so that a later frame of that
count which holds the own id unvisited is the duplicate-id condition (R2, R67); a step back forgets nothing. -/
theorem test_visit_forgotten :
    let g : OriginGroup := ⟨1, .master, 1⟩;
    let f : Frame := { loopFrame g with header := { (loopFrame g).header with visited := [1, 2] } };
    let old : State := setCount 2147483653 (remembers 2147483652 running);
    (setCount 2147483652 (remembers 2147483651 running)).loop.visits = [5] ∧ old.loop.visits = [] ∧
    (setCount 4 (remembers 5 running)).loop.visits = [5] ∧
    (takeFrame .a f (remembers 6 running)).loop.conflict = none ∧
    (takeFrame .a f old).loop.conflict = some .duplicateId := by decide +kernel

/-- Clocked beyond its end, a frame is followed by FFh on CPDO; cut short, it is carried as far as it went (R178). -/
theorem test_line_out :
    (after (.spiTransactionEnd (List.replicate 9 0xFF)) (after .spiSelectFall running)).ctl.lineOut =
      emptyFrame ++ [0xFF, 0xFF] ∧
    (after (.spiTransactionEnd (List.replicate 3 0xFF)) (after .spiSelectFall running)).ctl.lineOut =
      emptyFrame.take 3 := by decide +kernel

def noFields : TapFields := ⟨none, none, none, none, none, none, none, none, none, none⟩

/-- One field of a SET_TAP alone moves the tap, and its output's record with it (R147, R150, R151, R156). -/
theorem test_SetTap_outputs :
    (∀ f ∈ [{ noFields with fade := some 0 }, { noFields with fade := some 40 }, { noFields with resume := some .manual },
        { noFields with panicFollow := some false }, { noFields with safe := some (.fallback 1) }],
      tapAt (after (.setTap 7 0 f) (node (outAs (safeOut .empty) localTap))) 0 =
        withTapFields f (tapAt (node (outAs (safeOut .empty) localTap)) 0)) ∧
    (∀ x ∈ [(OutState.fadingOut, 0, OutState.safe, 0), (.fadingIn, 0, .live, 0), (.fadingOut, 40, .fadingOut, 960),
        (.fadingIn, 40, .fadingIn, 960), (.live, 40, .live, 1920)],
      let t := after (.setTap 7 0 { noFields with fade := some x.2.1 })
        (node (outAs { OutRec.power with state := x.1, pos := 480 } localTap));
      ((outAt t 0).state, (outAt t 0).pos) = x.2.2) ∧
    (outAt (after (.setTap 7 0 { noFields with fade := some 20 })
      (node (outAs { OutRec.power with state := .live } { localTap with fade := 0 }))) 0).pos = 960 ∧
    (outAt (after (.setTap 7 0 { noFields with resume := some .manual })
      (node (outAs { OutRec.power with state := .safe, hold := some 5, stage := .hold } localTap))) 0).stage = .await ∧
    (outAt (after (.setTap 7 0 { noFields with resume := some .auto })
      (node (outAs { OutRec.power with state := .safe, stage := .await } { localTap with resume := .manual }))) 0).stage =
        .hold ∧
    (outAt (after (.setTap 7 0 { noFields with panicFollow := some true })
      (node fun s => outAs { OutRec.power with state := .live, pos := 960 } { localTap with panicFollow := false }
        { s with safety := { s.safety with panicOn := true } })) 0).state = .fadingOut := by decide +kernel

/-! ### Hypotheses met: further clauses -/

/-- Input 1 has a change in flight under serial 2; a note of this serial has been sent. -/
def sentBefore (n : GainSerial) (s : State) : State :=
  headAs { anItem with body := .gainNote 1 gainZero n, sends := 1 } (flies 1 s)

theorem test_SoftBlocks_more_met :
    (∀ n ∈ [(0 : GainSerial), 1], Met (node (sentBefore n)) fun s => s.lock.level < 3 ∧
      s.queue.items = [{ anItem with body := .gainNote 1 gainZero n, sends := 1 }] ∧ s.switches = [] ∧
      s.gain.table[1]? = some { GainEntry.power with inFlight := some ⟨gainZero, 2⟩ } ∧
      newer8 n GainEntry.power.serial = decide (n = 1) ∧ (2 : GainSerial) ≠ n) ∧
    (∀ r ∈ [Role.master, .member], ∀ f ∈ [id, desk], ∀ on, Met (node (tapOn (.slot 3) on ∘ f ∘ roleOf r)) fun s =>
      s.start.role = r ∧ s.lanes.taps[0]? = some (tapAt s 0) ∧ (tapAt s 0).tracking = on ∧ s.lock.level < 3) ∧
    (∀ r ∈ [Rank.master, .deputy], Met (node (originAs r)) fun s => s.loop.role = .origin ∧
      s.loop.group = some ⟨2, r, 1⟩ ∧ s.lock.level < 3) ∧
    Met (node fun s => { roleOf .master s with
        slots := { s.slots with table := s.slots.table.set 5 ⟨.assigned, some 2, some 7, some 1⟩ } }) (fun s =>
      s.start.role = .master ∧ s.start.func = .stage ∧ (entryAt s 5).writer = some s.start.id ∧ s.lock.level < 3) := by
  refine ⟨fun n hn => ?_, fun r hr f hf on => ?_, fun r hr => ?_, met rfl (by decide +kernel)⟩
  · simp only [List.mem_cons, List.not_mem_nil, or_false] at hn
    rcases hn with rfl | rfl <;> exact met rfl (by decide +kernel)
  · simp only [List.mem_cons, List.not_mem_nil, or_false] at hr hf
    rcases hr with rfl | rfl <;> rcases hf with rfl | rfl <;> cases on <;> exact met rfl (by decide +kernel)
  · simp only [List.mem_cons, List.not_mem_nil, or_false] at hr
    rcases hr with rfl | rfl <;> exact met rfl (by decide +kernel)

/-- A HELD node whose tap 0 hears the last slot below the talk slots of 96k mode, or the first of them. -/
theorem test_RateChanged_outputs_met :
    (∀ n ∈ [123, 124], ∀ fade ∈ [0, 20], Met (node (heldAs ∘ outAs { OutRec.power with state := .live, pos := 480 }
        { localTap with source := .slot n, fade := fade })) fun s => s.start.held = true ∧ s.lock.level = 0 ∧
      s.start.rate = .k48 ∧ (tapAt s 0).source = .slot n ∧ (tapAt s 0).fade = fade ∧
      (slotCount .k96 - 4 ≤ n ↔ n = 124) ∧ ((goodRequest s).safety.outs[0]?).isSome = true) := by
  intro n hn fade hf
  simp only [List.mem_cons, List.not_mem_nil, or_false] at hn hf
  rcases hn with rfl | rfl <;> rcases hf with rfl | rfl <;> exact met rfl (by decide +kernel)

theorem test_PortRows_more_met :
    (∀ c ∈ [none, some ConflictCause.masterMet], ∀ n ∈ [6, 7],
      Met (node fun s => { portAs { portIn .seek with alignRun := n } s with loop := { s.loop with conflict := c } })
        fun s => (s.port .a).state = .seek ∧ (s.port .a).alignRun = n ∧ s.loop.conflict = c) ∧
    ((goodArr (offering 2 true)).frame.link = some ⟨2, .b, offerOf true⟩ ∧ running.start.id = 2) ∧
    Met (node (portAs { portIn .offer with agreeRun := 2, agreeFrom := some (2, .b) })) (fun s =>
      s.loop.conflict = none ∧ (s.port .a).state = .offer ∧ (s.port .a).agreeFrom = some (2, .b) ∧
        3 ≤ (s.port .a).agreeRun + 1 ∧ (2 : NodeId) = s.start.id) ∧
    ((goodArr plain).frame.link = none ∧ (∃ l, (goodArr { plain with
      link := some ⟨1, .b, { offerOf true with loopName := 9 }⟩ }).frame.link = some l ∧ l.offer.loopName ≠ running.start.loopName)) ∧
    Met (node fun s => { bothUp s with portA := { upPort .a with clearRun := 46 } }) (fun s =>
      (s.port .a).state = .up ∧ (s.port .a).clearRun + 1 < 48) ∧
    Met (node fun s => { bothUp s with portA := { upPort .a with flags := { PortFlags.empty with fixed := true } } })
      (fun s => (s.port .a).state = .up ∧ (s.port .a).flags.fixed = true) ∧
    (∀ k, (upPort .a).partner = some k → (3 : NodeId) ≠ k.sender ∨ PortId.b ≠ k.port) := by
  refine ⟨fun c hc n hn => ?_, ⟨rfl, rfl⟩, met rfl (by decide +kernel), ⟨rfl, _, rfl, by decide +kernel⟩,
    met rfl (by decide +kernel), met rfl (by decide +kernel), fun k h => ?_⟩
  · simp only [List.mem_cons, List.not_mem_nil, or_false] at hc hn
    rcases hc with rfl | rfl <;> rcases hn with rfl | rfl <;> exact met rfl (by decide +kernel)
  · cases h; exact .inl (by decide)

theorem test_QueueDrops_rest_met :
    ∀ m ∈ [LoopMsg.map 1 [], .snapReq none, .slotAnswer 5 [], .gainAnswer 5 .ok, .wrapPlan aLink, .unwrapPlan aLink,
      .talkRefuse .tb1 1 .k0 .lower, .linkNote .a (.port .up) false none none],
      Met (node (spent m)) fun s => s.queue.written = none ∧ writesCells (loopMode s) = true ∧
        (∃ i, s.queue.items = [i] ∧ i.body = m ∧ i.sends = 4 ∧ i.op = none ∧ i.group = s.loop.group) ∧
        s.snap.run = none := by
  intro m hm
  simp only [List.mem_cons, List.not_mem_nil, or_false] at hm
  rcases hm with rfl | rfl | rfl | rfl | rfl | rfl | rfl | rfl <;>
    exact met rfl ⟨rfl, by decide +kernel, ⟨_, rfl, rfl, rfl, rfl, rfl⟩, rfl⟩

/-- Four replies wait; the first of them, or none, is being sent. -/
def fullInbox (item : ChosenItem) : State → State := ctlAs fun c => { c with
  inbox := [anEntry 0, anEntry 1, anEntry 2, anEntry 3], made := 4, chosen := some ⟨item, emptyFrame⟩ }

theorem test_LineFull_met :
    (∀ x ∈ [(ChosenItem.empty, 4), (.inbox 0, 3)],
      let s := fullInbox x.1 running;
      let l := lineFrame 1 5 31 [];
      judgeBytes l = .good 5 31 [] ∧ s.ctl.chosen = some ⟨x.1, emptyFrame⟩ ∧
        (deliver ⟨x.1, emptyFrame⟩ (endLine [] s)).ctl.inbox.length = x.2 ∧ emptyFrame.length ≤ l.length) ∧
    (∀ x ∈ [((31 : Byte), ([] : List Byte), Parsed.unknown), (1, [0], .unfit)],
      let l := lineFrame 1 5 x.1.toNat x.2.1;
      let s : State := uartAs (ctlAs (fun c => { c with openFrame := some ⟨l.dropLast, 0⟩ }) running);
      s.start.line = .uart ∧ (∃ o, s.ctl.openFrame = some o ∧ o.bytes ++ [l.getLast?.getD 0] = l) ∧
        frameComplete l = true ∧ judgeBytes l = .good 5 x.1 x.2.1 ∧ parseRequest 5 x.1 x.2.1 = x.2.2) := by
  refine ⟨by decide +kernel, fun x hx => ?_⟩
  simp only [List.mem_cons, List.not_mem_nil, or_false] at hx
  rcases hx with rfl | rfl <;> exact ⟨rfl, ⟨_, rfl, by decide +kernel⟩, by decide +kernel, by decide +kernel, by decide +kernel⟩

end Sys2Proof.Machine.Tests
end

section
/-! PROOFS. Every command keeps a state in order: the places of the part within their bounds, the pending switch
list and the wraps (Safety.lean). -/

namespace Sys2Proof.Machine
open Sys2Proof

/-- What a step must keep of a state that is in order (Safety.lean). -/
structure InOrderKept (s t : State) : Prop where
  outs : OutputsSafe s → OutputsSafe t
  room : WithinRoom s → WithinRoom t
  pend : PendingInOrder s → PendingInOrder t
  wraps : WrapsInOrder s → WrapsInOrder t

theorem Sound.inOrderKept {s t : State} (h : Sound s t) : InOrderKept s t := ⟨h.outs, h.room, h.pend, h.wraps⟩

theorem InOrderKept.on {s t u : State} (k : InOrderKept t u) (h : InOrderKept s t) : InOrderKept s u :=
  ⟨k.outs ∘ h.outs, k.room ∘ h.room, k.pend ∘ h.pend, k.wraps ∘ h.wraps⟩

/-- A state in order whatever came before it. -/
theorem InOrderKept.of_inOrder (s : State) {t : State}
    (h : OutputsSafe t ∧ WithinRoom t ∧ PendingInOrder t ∧ WrapsInOrder t) : InOrderKept s t :=
  ⟨fun _ => h.1, fun _ => h.2.1, fun _ => h.2.2.1, fun _ => h.2.2.2⟩

/-- The end of a command: the waiting delivery chosen, the queue of commands as it stood. -/
theorem finish_inOrder {s t u : State} (h : InOrderKept s t) (e : finish s t = .next u) : InOrderKept s u := by
  rw [finish_eq] at e
  cases e
  have queue : Steady (pickUart t) { pickUart t with pending := s.pending } := .of_vitals rfl
  exact (queue.on (pickUart_steady t)).toKeeps.sound.inOrderKept.on h

theorem done_inOrder {f : State → State} {s u : State} (h : Sound s (f s)) (e : done f s = .next u) :
    InOrderKept s u := by
  refine finish_inOrder ?_ e
  split
  · exact (Sound.refl s).inOrderKept
  · exact (event_sound h).inOrderKept

/-- A host request is taken, judged and answered in one event (R181). -/
theorem exec_request {c : Instr} {tag : Byte} (h : requestTag c = some tag) (s : State) :
    exec c s = done (takeRequest tag (judgeOf c)) s := by
  cases c <;> cases h <;> rfl

/-- The end of a held reset: the blocks still stand at their values after the reset, or the node starts from them. -/
theorem endReset_inOrder (p : Straps) {s : State} (h : ResetClear s) : InOrderKept s (endReset p s) := by
  unfold endReset
  split
  · exact (Sound.refl s).inOrderKept
  · exact .of_inOrder s (release_inOrder p s h)

theorem afterRelease_inOrder (s : State) : InOrderKept s (afterRelease s) := by
  unfold afterRelease
  split
  · exact (Sound.refl s).inOrderKept
  · exact (settle_steady s).toKeeps.sound.inOrderKept

theorem startRecord_inOrder (s : State) (r : StartRec) : InOrderKept s { s with start := r } :=
  ⟨id, fun k => ⟨k.notices, k.queue, k.inbox, k.ops, k.ended⟩, fun k => ⟨k.senders, k.epochs⟩,
    fun k => ⟨k.one, k.planned, k.loss⟩⟩

/-- The record of the held resets is none of the blocks that stand cleared. -/
theorem ResetClear.of_start {s : State} (h : ResetClear s) {r : StartRec} (hr : r.rate = s.start.rate)
    (hn : r.loopName = s.start.loopName) : ResetClear { s with start := r } :=
  ⟨h.portA, h.portB, h.loop, h.queue, h.snap, h.switches, h.slots, h.lanes, h.gain, h.keys, h.views, h.records,
    h.outs, h.panicT, h.holdMs, h.filterMs, h.lock, h.supervision, h.ctl, hr.trans h.rate, hn.trans h.loopName⟩

theorem execPowerResetRelease_inOrder (below : Bool) (p : Straps) {s u : State} (h : s.inReset = true → ResetClear s)
    (e : execPowerResetRelease below p s = .next u) : InOrderKept s u := by
  refine finish_inOrder ?_ e
  split
  · rename_i hp
    have clear := h (by simp [State.inReset, hp])
    unfold endPower
    rw [if_pos hp]
    refine ((afterRelease_inOrder _).on (endReset_inOrder p ?_)).on (startRecord_inOrder s _)
    exact clear.of_start rfl rfl
  · exact (Sound.refl s).inOrderKept

theorem execPinResetRelease_inOrder (p : Straps) {s u : State} (h : s.inReset = true → ResetClear s)
    (e : execPinResetRelease p s = .next u) : InOrderKept s u := by
  refine finish_inOrder ?_ e
  split
  · rename_i hp
    have clear := h (by simp [State.inReset, hp])
    unfold endPin
    rw [if_pos hp]
    refine ((afterRelease_inOrder _).on (endReset_inOrder p ?_)).on (startRecord_inOrder s _)
    exact clear.of_start rfl rfl
  · exact (Sound.refl s).inOrderKept

/-- Every command keeps a state in order (R14, R18, R43, R149, R181 to R185). -/
theorem exec_inOrder {c : Instr} {s u : State} (h : s.inReset = true → ResetClear s) (e : exec c s = .next u) :
    InOrderKept s u := by
  cases hc : requestTag c with
  | some tag =>
    rw [exec_request hc] at e
    exact done_inOrder (takeRequest_sound _ _ (judgeOf_sound c) s) e
  | none =>
    cases c
    all_goals first | (cases hc; done) | clear hc
    case spiSelectFall => exact done_inOrder (selectFall_steady s).toKeeps.sound e
    case spiTransactionEnd l => exact done_inOrder (transactionEnd_sound l s) e
    case uartFrameReceive b => exact done_inOrder (uartFrame_sound b s) e
    case uartGapTimeout => exact done_inOrder (uartGap_steady s).toKeeps.sound e
    case uartFrameSent => exact done_inOrder (uartSent_sound s) e
    case uartByteArrival b => exact done_inOrder (uartByte_sound b s) e
    case powerReset => exact finish_inOrder (.of_inOrder s (clearAll_clear _).inOrder) e
    case powerResetRelease below p => exact execPowerResetRelease_inOrder below p h e
    case pinReset => exact finish_inOrder (.of_inOrder s (clearAll_clear _).inOrder) e
    case pinResetRelease p => exact execPinResetRelease_inOrder p h e
    case framePeriod inp =>
      refine finish_inOrder ?_ e
      split
      · exact Sound.inOrderKept (.of_vitals rfl rfl)
      · exact (framePeriod_sound inp s).inOrderKept
    case keyInputChange k high =>
      have e : execKeyInputChange k high s = .next u := e
      unfold execKeyInputChange at e
      split at e
      · exact finish_inOrder (modifyKey_steady _ _ s).toKeeps.sound.inOrderKept e
      · exact done_inOrder (keyRaw_steady _ high s).toKeeps.sound e
    case panicInputChange high =>
      have e : execPanicInputChange high s = .next u := e
      unfold execPanicInputChange at e
      split at e
      · refine finish_inOrder ?_ e
        exact Sound.inOrderKept (.of_vitals rfl rfl)
      · exact done_inOrder (panicRaw_steady high s).toKeeps.sound e
    case preampRecordSend => exact done_inOrder (sendRecord_steady s).toKeeps.sound e
    case lightMeasurement p l => exact done_inOrder (lightMeasured_steady p l s).toKeeps.sound e
    case portFrameReceive p arr => exact done_inOrder (receive_keeps p arr s).sound e
    case aligned p arr => exact done_inOrder (onlyIf_keeps _ _ s (receive_keeps p arr s)).sound e
    case joined p arr => exact done_inOrder (onlyIf_keeps _ _ s (receive_keeps p arr s)).sound e
    case remoteFaultSet p arr => exact done_inOrder (onlyIf_keeps _ _ s (receive_keeps p arr s)).sound e
    case mapAbsenceLimit p arr => exact done_inOrder (onlyIf_keeps _ _ s (receive_keeps p arr s)).sound e
    case alignLost p => exact done_inOrder (onlyIf_keeps _ _ s (badFrameAt_steady p s).toKeeps).sound e
    case marginalSet p => exact done_inOrder (onlyIf_keeps _ _ s (badFrameAt_steady p s).toKeeps).sound e
    case settleTimerExpiry p => exact done_inOrder (settleExpired_steady p s).toKeeps.sound e
    case offerTimerExpiry p => exact done_inOrder (offerExpired_steady p s).toKeeps.sound e
    case relockTimerExpiry p => exact done_inOrder (relockExpired_steady p s).toKeeps.sound e
    case errorWindowEnd p => exact done_inOrder (windowEnded_steady p s).toKeeps.sound e
    case drillTimerExpiry p => exact done_inOrder (drillExpired_steady p s).toKeeps.sound e
    case originTimeout => exact done_inOrder (reachTimeout_steady s).toKeeps.sound e
    case takeoverTimerExpiry => exact done_inOrder (takeoverExpired_keeps s).sound e
    case itemDrop => exact done_inOrder (dropAssessed_steady s).toKeeps.sound e
    case owedAdmit => exact done_inOrder (admitOwed_steady s).toKeeps.sound e
    case snapshotStart => exact done_inOrder (snapshotStart_steady s).toKeeps.sound e
    case switchApply n => exact done_inOrder (applyReached_steady n s).toKeeps.sound e
    case currencyRetryExpiry => exact done_inOrder (retryExpired_steady s).toKeeps.sound e
    case phantomMuteExpiry i => exact done_inOrder (endMute_steady i s).toKeeps.sound e
    case healTimerExpiry n p => exact done_inOrder (healExpired_steady n p s).toKeeps.sound e
    case restartWrite n => exact done_inOrder (Keeps.ite (originateEarly_keeps n s) (.refl s)).sound e
    case restartEpochTake n => exact done_inOrder (Keeps.ite (originateEarly_keeps n s) (.refl s)).sound e
    case keySettleExpiry k => exact done_inOrder (keySettled_steady _ s).toKeeps.sound e
    case keyAnswerTimeout k => exact done_inOrder (answerExpired_steady k s).toKeeps.sound e
    case panicFilterExpiry => exact done_inOrder (panicSettled_steady s).toKeeps.sound e
    case fadeOutEnd i => exact done_inOrder (fadeOutEnds_steady i s).toKeeps.sound e
    case fadeInEnd i => exact done_inOrder (fadeInEnds_steady i s).toKeeps.sound e
    case resumeHoldExpiry i => exact done_inOrder (holdEnds_steady i s).toKeeps.sound e
    case silenceTimerExpiry => exact done_inOrder (silenceExpired_steady s).toKeeps.sound e
    case operationAnswerTimeout t => exact done_inOrder (answerTimeout_steady t s).toKeeps.sound e
    case goTimeout t => exact done_inOrder (goTimeout_steady t s).toKeeps.sound e

theorem step_inOrder {s t : State} (h : s.inReset = true → ResetClear s) (e : step s = .next t) : InOrderKept s t := by
  unfold step at e
  split at e
  · cases e
    exact (Sound.refl s).inOrderKept
  · rename_i c rest _
    have clear : ({ s with pending := rest } : State).inReset = true → ResetClear { s with pending := rest } := fun r =>
      let k := h r
      ⟨k.portA, k.portB, k.loop, k.queue, k.snap, k.switches, k.slots, k.lanes, k.gain, k.keys, k.views, k.records,
        k.outs, k.panicT, k.holdMs, k.filterMs, k.lock, k.supervision, k.ctl, k.rate, k.loopName⟩
    have queue : Keeps s { s with pending := rest } := .of_vitals rfl
    exact (exec_inOrder clear e).on queue.sound.inOrderKept

/-- Settles O57: every command keeps a state in order, by `exec_inOrder`. -/
theorem stepKeepsRoom : Obligations.StepKeepsRoom :=
  fun _ _ clear room e => (step_inOrder clear e).room room

/-- Settles O58: every command keeps a state in order, by `exec_inOrder`. -/
theorem stepKeepsListsAndWraps : Obligations.StepKeepsListsAndWraps :=
  ⟨fun _ _ clear pend e => (step_inOrder clear e).pend pend, fun _ _ clear wraps e => (step_inOrder clear e).wraps wraps⟩

end Sys2Proof.Machine
end

section
/-! PROOFS. The settings and values of single records: SET_SWITCH_LEAD, SET_SAFETY, SET_SUPERVISION and
SET_PHANTOM_MUTE, and the values after a POWER reset. -/

namespace Sys2Proof.Machine

open Sys2Proof

/-! ### A request whose effect leaves the Control Port alone -/

/-- A taken request that is answered with `r` and gives a settled state with the Control Port as it stood. -/
theorem request_changed {tag : Byte} {judge : State → Judged} {s u : State} {r : Reply} (h : Taken s)
    (hj : judge (goodRequest s) = (some r, u)) (hu : Settled u) (hc : u.ctl = (goodRequest s).ctl)
    (hst : u.start.line = s.start.line) :
    ∃ t, done (takeRequest tag judge) s = .next t ∧ Answered tag r [] s u t :=
  request_settled h hj hu ((Raised.refl _).of_eq rfl rfl (by rw [hc]) (by rw [hc]))
    (by rw [hc, goodRequest_chosen]) hst

theorem locked_goodRequest (n : Nat) (s : State) : locked n (goodRequest s) = decide (n ≤ s.lock.level) := by
  simp [locked]

/-! ### Settings (R16, R119, R159, R168) -/

theorem setSwitchLead_answered (tag : Byte) (n : Nat) (s : State) (h : Taken s) (hs : Settled s) :
    (n < 48 ∨ 4800 < n → ∃ t, exec (.setSwitchLead tag n) s = .next t ∧
       Answered tag (.refused .range) [] s (goodRequest s) t) ∧
     (48 ≤ n → n ≤ 4800 → 1 ≤ s.lock.level → ∃ t, exec (.setSwitchLead tag n) s = .next t ∧
       Answered tag (.refused .locked) [] s (goodRequest s) t) ∧
     (48 ≤ n → n ≤ 4800 → s.lock.level = 0 → ∃ t, exec (.setSwitchLead tag n) s = .next t ∧
       Answered tag .ok [] s { goodRequest s with queue := { s.queue with lead := n } } t) := by
  refine ⟨fun hn => ?_, fun h1 h2 hl => ?_, fun h1 h2 hl => ?_⟩
  · exact request_idle h hs (by simp [judgeSetSwitchLead, refuse, hn])
  · exact request_idle h hs (by
      simp [judgeSetSwitchLead, refuse, locked_goodRequest, hl, Nat.not_lt.2 h1, Nat.not_lt.2 h2])
  · refine request_changed h (u := { goodRequest s with queue := { s.queue with lead := n } }) ?_ ?_ rfl (by simp)
    · simp [judgeSetSwitchLead, ok, storeLead, locked_goodRequest, hl, Nat.not_lt.2 h1, Nat.not_lt.2 h2]
    · exact (goodRequest_settled hs).of_same rfl rfl rfl rfl rfl rfl rfl rfl rfl rfl rfl rfl

theorem setSafety_answered (tag : Byte) (hold filter : Option Nat) (s : State) (h : Taken s) (hs : Settled s) :
    ((∃ x, hold = some x ∧ 2000 < x) ∨ (∃ x, filter = some x ∧ 20 < x) →
       ∃ t, exec (.setSafety tag hold filter) s = .next t ∧
         Answered tag (.refused .range) [] s (goodRequest s) t) ∧
     ((∀ x, hold = some x → x ≤ 2000) → (∀ x, filter = some x → x ≤ 20) →
       (1 ≤ s.lock.level → ∃ t, exec (.setSafety tag hold filter) s = .next t ∧
         Answered tag (.refused .locked) [] s (goodRequest s) t) ∧
       (s.lock.level = 0 → ∃ t, exec (.setSafety tag hold filter) s = .next t ∧
         Answered tag .ok [] s { goodRequest s with safety := { (goodRequest s).safety with
           holdMs := hold.getD s.safety.holdMs, filterMs := filter.getD s.safety.filterMs } } t)) := by
  have inRange : (hold.all (fun x => decide (x ≤ 2000)) = true ↔ ∀ x, hold = some x → x ≤ 2000) ∧
      (filter.all (fun x => decide (x ≤ 20)) = true ↔ ∀ x, filter = some x → x ≤ 20) := by
    simp [Option.all_eq_true]
  refine ⟨fun hn => ?_, fun hh hf => ⟨fun hl => ?_, fun hl => ?_⟩⟩
  · refine request_idle h hs ?_
    unfold judgeSetSafety
    rw [if_pos]
    · rfl
    · rcases hn with ⟨x, rfl, hx⟩ | ⟨x, rfl, hx⟩ <;> simp [hx]
  · exact request_idle h hs (by
      simp [judgeSetSafety, refuse, locked_goodRequest, hl, inRange.1.2 hh, inRange.2.2 hf])
  · have kept : (goodRequest s).safety.holdMs = s.safety.holdMs ∧ (goodRequest s).safety.filterMs = s.safety.filterMs := by
      unfold goodRequest
      simp only
      split <;> simp [onSilenceClear, mapOuts]
    refine request_changed h ?_ ?_ rfl (by simp)
    · simp [judgeSetSafety, ok, storeSafety, locked_goodRequest, hl, inRange.1.2 hh, inRange.2.2 hf, kept]
    · exact (goodRequest_settled hs).of_same rfl rfl rfl rfl rfl rfl rfl rfl rfl rfl rfl rfl

theorem setSupervision_answered (tag : Byte) (ms : Nat) (s : State) (h : Taken s) (hs : Settled s) :
    ((0 < ms ∧ ms < 100) ∨ 10000 < ms → ∃ t, exec (.setSupervision tag ms) s = .next t ∧
       Answered tag (.refused .range) [] s (goodRequest s) t) ∧
     (ms = 0 ∨ (100 ≤ ms ∧ ms ≤ 10000) →
       (2 ≤ s.lock.level → ∃ t, exec (.setSupervision tag ms) s = .next t ∧
         Answered tag (.refused .locked) [] s (goodRequest s) t) ∧
       (s.lock.level < 2 → ∃ t, exec (.setSupervision tag ms) s = .next t ∧
         Answered tag .ok [] s { goodRequest s with supervision := { (goodRequest s).supervision with
           periodMs := ms, timer := if ms = 0 then none else some (ms * 96) } } t)) := by
  have range : (ms ≠ 0 && (decide (ms < 100) || decide (10000 < ms))) = true ↔
      (0 < ms ∧ ms < 100) ∨ 10000 < ms := by simp; omega
  refine ⟨fun hn => ?_, fun hn => ⟨fun hl => ?_, fun hl => ?_⟩⟩
  · exact request_idle h hs (by unfold judgeSetSupervision; rw [if_pos (range.2 hn)]; rfl)
  · have fits := mt range.1 (by omega)
    exact request_idle h hs (by unfold judgeSetSupervision; rw [if_neg fits, locked_goodRequest]; simp [hl, refuse])
  · have fits := mt range.1 (by omega)
    refine request_changed h ?_ ?_ rfl (by simp)
    · unfold judgeSetSupervision
      rw [if_neg fits, locked_goodRequest]
      simp [hl, ok, storePeriod, silenceTimer, ticksOf, Config.ticksPerMs]
    · exact (goodRequest_settled hs).of_same rfl rfl rfl rfl rfl rfl rfl rfl rfl rfl rfl rfl

theorem setPhantomMute_answered (tag : Byte) (ms : Nat) (s : State) (h : Taken s) (hs : Settled s) :
    (2000 < ms → ∃ t, exec (.setPhantomMute tag ms) s = .next t ∧
       Answered tag (.refused .range) [] s (goodRequest s) t) ∧
     (ms ≤ 2000 → 1 ≤ s.lock.level → ∃ t, exec (.setPhantomMute tag ms) s = .next t ∧
       Answered tag (.refused .locked) [] s (goodRequest s) t) ∧
     (ms ≤ 2000 → s.lock.level = 0 → s.start.func = .desk → ∃ t, exec (.setPhantomMute tag ms) s = .next t ∧
       Answered tag (.refused .state) [] s (goodRequest s) t) ∧
     (ms ≤ 2000 → s.lock.level = 0 → s.start.func = .stage → ∃ t, exec (.setPhantomMute tag ms) s = .next t ∧
       Answered tag .ok [] s { goodRequest s with gain := { s.gain with muteMs := ms } } t) := by
  refine ⟨fun hn => ?_, fun hn hl => ?_, fun hn hl hf => ?_, fun hn hl hf => ?_⟩
  · exact request_idle h hs (by simp [judgeSetPhantomMute, refuse, hn])
  · exact request_idle h hs (by simp [judgeSetPhantomMute, refuse, Nat.not_lt.2 hn, locked_goodRequest, hl])
  · exact request_idle h hs (by
      simp [judgeSetPhantomMute, refuse, Nat.not_lt.2 hn, locked_goodRequest, hl, State.isStage, hf])
  · refine request_changed h (u := { goodRequest s with gain := { s.gain with muteMs := ms } }) ?_ ?_ rfl (by simp)
    · simp [judgeSetPhantomMute, ok, storeMute, Nat.not_lt.2 hn, locked_goodRequest, hl, State.isStage, hf]
    · exact (goodRequest_settled hs).of_same rfl rfl rfl rfl rfl rfl rfl rfl rfl rfl rfl rfl

/-- Settles O13, request by request. -/
theorem settingsStored : Obligations.SettingsStored :=
  ⟨setSwitchLead_answered, setSafety_answered, setSupervision_answered, setPhantomMute_answered⟩

/-! ### Values after a POWER reset -/

theorem port_reset (p : PortId) : State.reset.port p = .power := by cases p <;> rfl

/-- Each block stands as its record of values after a reset gives it; of the lists whose entries all hold one value
the entry is that value. -/
theorem resetValues_lists :
    (∀ t ∈ State.reset.lanes.taps, t = Tap.power) ∧ (∀ e ∈ State.reset.gain.table, e = GainEntry.power) ∧
      (∀ k ∈ State.reset.talk.keys, k = KeyRec.power) ∧ (∀ r ∈ State.reset.safety.outs, r = OutRec.power) ∧
      State.reset.lanes.taps.length = 64 ∧ State.reset.talk.keys.length = 12 ∧
      State.reset.safety.outs.length = 64 :=
  ⟨fun _ h => List.eq_of_mem_replicate h, fun _ h => List.eq_of_mem_replicate h, fun _ h => List.eq_of_mem_replicate h,
    fun _ h => List.eq_of_mem_replicate h, List.length_replicate, List.length_replicate, List.length_replicate⟩

/-- Settles O3: block by block, each value is that of the record the state after reset is made of. -/
theorem resetValues : Obligations.ResetValues := by
  obtain ⟨taps, gains, keys, outs, ntaps, nkeys, nouts⟩ := resetValues_lists
  refine ⟨fun p => ?ports, ?loop, ⟨rfl, rfl, rfl, rfl, rfl, rfl, rfl⟩, ?slots,
    ⟨ntaps, fun t ht => ?tap, rfl, rfl, rfl⟩, ⟨rfl, rfl, rfl, rfl, fun e he => ?gain⟩,
    ⟨nkeys, fun k hk => ?key, rfl, rfl⟩, ⟨nouts, fun r hr => ?out, rfl, rfl⟩,
    ⟨rfl, rfl, rfl, rfl, rfl, rfl, rfl, rfl, rfl⟩, ⟨rfl, rfl, rfl⟩, ⟨rfl, rfl, rfl, rfl, rfl, rfl, rfl⟩⟩
  case ports => rw [port_reset]; simp [PortRec.power, PortRec.fresh, PortFlags.empty, PortCounters.zero]
  case loop =>
    simp [State.reset, LoopRec.power, MapCopy.alone, StartRec.power]
  case slots => exact ⟨rfl, rfl, rfl, rfl, rfl, rfl, rfl, rfl, rfl, rfl, rfl⟩
  case tap => rw [taps t ht]; simp [Tap.power, noBuses]
  case gain => rw [gains e he]; simp [GainEntry.power, gainZero]
  case key => rw [keys k hk]; simp [KeyRec.power]
  case out => rw [outs r hr]; simp [OutRec.power, CauseSet.empty]

end Sys2Proof.Machine
end

section
/-! PROOFS. Waits that run out: the currency retry, the silence of the host, the answer of an operation, GO. -/

namespace Sys2Proof.Machine

open Sys2Proof

/-! ### Output records by number -/

/-- A change of every output record, read at one of them. -/
theorem getElem?_outs_mapOuts (f : Nat → Tap → OutRec → OutRec) (s : State) (n : Nat) :
    (mapOuts f s).safety.outs[n]? = s.safety.outs[n]?.map (f n (tapAt s n)) := by
  simp only [mapOuts, List.getElem?_map, List.getElem?_zipIdx, Option.map_map, Nat.zero_add]
  rfl

@[simp] theorem length_outs_mapOuts (f : Nat → Tap → OutRec → OutRec) (s : State) :
    (mapOuts f s).safety.outs.length = s.safety.outs.length := by
  simp [mapOuts]

/-! ### Timers -/

theorem isDue_iff (t : Timer) : isDue t = true ↔ t = some 0 := by simp [isDue]

/-! ### The currency retry (R92) -/

/-- A running retry timer may take another value. -/
theorem Settled.setRetry {s : State} (h : Settled s) (n : Nat) (k : s.slots.retry.isSome = true) :
    Settled { s with slots := { s.slots with retry := some n } } :=
  h.of_parts rfl rfl (fun _ => rfl) (fun _ => rfl) rfl (by rw [h.retry] at k; exact k.symm) h.takeover h.copy

/-- A node whose retry timer runs is no master. -/
theorem isMaster_of_retry {s : State} (h : Settled s) (k : s.slots.retry.isSome = true) : s.isMaster = false := by
  rw [h.retry] at k
  unfold retryCond at k
  simp only [Bool.and_eq_true, Bool.not_eq_true'] at k
  exact k.1.1.1

theorem hasUnsent_iff (f : LoopMsg → Bool) (s : State) :
    hasUnsent f s = true ↔ ∃ i ∈ s.queue.items, i.sends = 0 ∧ f i.body = true := by
  simp [hasUnsent, List.any_eq_true]

/-- An internal source's message at a queue with room joins its tail (R14). -/
theorem pushInternal_room (d : QDest) (m : LoopMsg) {s : State} (h : s.queue.items.length < 16) :
    pushInternal d m s = { s with queue := queued d m none .loc s } := by
  unfold pushInternal
  rw [if_pos (show queueRoom s = true from decide_eq_true h)]
  rfl

/-- At a full queue it is discarded (R14). -/
theorem pushInternal_full (d : QDest) (m : LoopMsg) {s : State} (h : 16 ≤ s.queue.items.length) :
    pushInternal d m s = notifyLoop (.queueFull (msgKind m)) s := by
  unfold pushInternal
  have noRoom : ¬ queueLen s < Config.queueMax := Nat.not_lt.2 h
  rw [if_neg (show ¬ queueRoom s = true by simpa [queueRoom] using noRoom)]

/-- A SNAP_REQ of the node stands in the queue and has not been sent. -/
def snapReqWaits (s : State) : Prop := ∃ i ∈ s.queue.items, i.sends = 0 ∧ ∃ n, i.body = .snapReq n

theorem hasUnsent_snapReq_iff {f : LoopMsg → Bool} (hf : ∀ m, f m = true ↔ ∃ n, m = .snapReq n) (s : State) :
    hasUnsent f s = true ↔ snapReqWaits s := by
  simp only [hasUnsent_iff, hf, snapReqWaits]

theorem pushSnapReq_eq {s : State} (h : s.isMaster = false) :
    (snapReqWaits s → pushSnapReq s = s) ∧
    (¬ snapReqWaits s → pushSnapReq s = pushInternal .origin (.snapReq s.slots.lastApplied) s) := by
  unfold pushSnapReq
  rw [if_neg (by simp [h])]
  exact ⟨fun k => if_pos ((hasUnsent_snapReq_iff (by intro m; cases m <;> simp) s).2 k),
    fun k => if_neg (mt (hasUnsent_snapReq_iff (by intro m; cases m <;> simp) s).1 k)⟩

theorem currencyRetryExpiry_happened (s : State) (hr : s.inReset = false) (hs : Settled s) :
    let again : State := { s with slots := { s.slots with retry := some (1000 * 96) } }
    (s.slots.retry ≠ some 0 → ∃ t, exec .currencyRetryExpiry s = .next t ∧ Happened [] s s t) ∧
    (s.slots.retry = some 0 → snapReqWaits s → ∃ t, exec .currencyRetryExpiry s = .next t ∧
      Happened [] s again t) ∧
    (s.slots.retry = some 0 → ¬ snapReqWaits s → s.queue.items.length < 16 →
      ∃ t, exec .currencyRetryExpiry s = .next t ∧ Happened [] s
        { again with queue := queued .origin (.snapReq s.slots.lastApplied) none .loc s } t) ∧
    (s.slots.retry = some 0 → ¬ snapReqWaits s → 16 ≤ s.queue.items.length →
      ∃ t, exec .currencyRetryExpiry s = .next t ∧
        Happened [.loopChange (loopView s) (.queueFull 4)] s again t) := by
  intro again
  have due (k : s.slots.retry = some 0) : s.slots.retry.isSome = true := by rw [k]; rfl
  have expired (k : s.slots.retry = some 0) : retryExpired s =
      { pushSnapReq s with slots := { (pushSnapReq s).slots with retry := some (1000 * 96) } } := by
    unfold retryExpired
    rw [if_pos ((isDue_iff _).2 k)]
    rfl
  have settled (k : s.slots.retry = some 0) : Settled again := hs.setRetry _ (due k)
  refine ⟨fun k => ?_, fun k w => ?_, fun k w room => ?_, fun k w full => ?_⟩
  · refine event_nothing hr hs ?_
    unfold retryExpired
    rw [if_neg (by rwa [isDue_iff])]
  · refine event_changed hr ?_ (settled k) rfl rfl
    rw [expired k, (pushSnapReq_eq (isMaster_of_retry hs (due k))).1 w]
  · have h := settled k
    refine event_changed (u := { again with queue := queued .origin (.snapReq s.slots.lastApplied) none .loc s }) hr
      ?_ ⟨h.1, h.2, h.3, h.4, h.5, h.6⟩ rfl rfl
    rw [expired k, (pushSnapReq_eq (isMaster_of_retry hs (due k))).2 w, pushInternal_room _ _ room]
  · refine event_noticed (v := notify (.loopChange (loopView s) (.queueFull 4)) again) hr ?_
      (notify_settled _ (settled k)) (.notify_of _ rfl rfl) (notify_same _ _).1 (notify_same _ _).2.1
      (notify_same _ _).2.2.1 (notify_same _ _).2.2.2 (by simp [again])
    rw [expired k, (pushSnapReq_eq (isMaster_of_retry hs (due k))).2 w, pushInternal_full _ _ full]
    unfold notifyLoop notify
    show _ = if s.ctl.notices.length < Config.noticeMax then _ else _
    split <;> rfl

/-! ### The silence of the host (R154, R169) -/

/-- The supervision record as a silence leaves it (R169). -/
def silentRec (s : State) : SuperRec :=
  { s.supervision with
    timer := none, silent := true, since := some s.loop.count, span := s.supervision.periodMs, spanTicks := 0 }

/-- A MANUAL output that awaits RESUME (R154). -/
def awaitsResume (x : Tap) (r : OutRec) : Prop :=
  x.resume = .manual ∧ r.state = .safe ∧ causesEmpty r.causes = true ∧ r.stage = .await

/-- What a silence leaves of an output record (R152, R154). -/
theorem getElem?_outs_onSilenceSet {s : State} (hsilent : s.supervision.silent = true) {n : Nat} {r : OutRec}
    (h : s.safety.outs[n]? = some r) :
    (¬ awaitsResume (tapAt s n) r → (onSilenceSet s).safety.outs[n]? = some r) ∧
    (awaitsResume (tapAt s n) r → s.safety.holdMs ≠ 0 → (onSilenceSet s).safety.outs[n]? = some { r with
      hold := some (s.safety.holdMs * 96), stage := .hold }) ∧
    (awaitsResume (tapAt s n) r → s.safety.holdMs = 0 → (onSilenceSet s).safety.outs[n]? = some { r with
      state := if fadeLen s.start.rate (tapAt s n) = 0 then .live else .fadingIn
      pos := 0, hold := none, stage := .none }) := by
  have cond : (decide ((tapAt s n).resume = .manual) && decide (r.state = .safe) && causesEmpty r.causes &&
      decide (r.stage = .await)) = true ↔ awaitsResume (tapAt s n) r := by
    simp [awaitsResume, and_assoc]
  have begun (hw : awaitsResume (tapAt s n) r) : (onSilenceSet s).safety.outs[n]? =
      some (beginResume (outCtx s (tapAt s n)) r) := by
    unfold onSilenceSet
    rw [getElem?_outs_mapOuts, h, Option.map_some, if_pos (cond.2 hw)]
  refine ⟨fun hw => ?_, fun hw hh => ?_, fun hw hh => ?_⟩
  · unfold onSilenceSet
    rw [getElem?_outs_mapOuts, h, Option.map_some, if_neg (mt cond.1 hw)]
  · rw [begun hw]
    simp [beginResume, outCtx, hsilent, ticksOf, Config.ticksPerMs, hh]
  · rw [begun hw]
    simp [beginResume, enterFadeIn, outCtx, hsilent, ticksOf, hh]

theorem silenceTimerExpiry_happened (s : State) (hr : s.inReset = false) (hs : Settled s) :
    (s.supervision.timer ≠ some 0 → ∃ t, exec .silenceTimerExpiry s = .next t ∧ Happened [] s s t) ∧
    (s.supervision.timer = some 0 → ∃ t outs, exec .silenceTimerExpiry s = .next t ∧
      outs.length = s.safety.outs.length ∧
      (∀ (n : Nat) (r : OutRec), s.safety.outs[n]? = some r →
        (¬ awaitsResume (tapAt s n) r → outs[n]? = some r) ∧
        (awaitsResume (tapAt s n) r → s.safety.holdMs ≠ 0 → outs[n]? = some { r with
          hold := some (s.safety.holdMs * 96), stage := .hold }) ∧
        (awaitsResume (tapAt s n) r → s.safety.holdMs = 0 → outs[n]? = some { r with
          state := if fadeLen s.start.rate (tapAt s n) = 0 then .live else .fadingIn
          pos := 0, hold := none, stage := .none })) ∧
      Happened [] s { s with
        safety := { s.safety with outs := outs }
        supervision := silentRec s } t) := by
  refine ⟨fun k => event_nothing hr hs ?_, fun k => ?_⟩
  · unfold silenceExpired
    rw [if_neg (by rwa [isDue_iff])]
  · have silent : Settled { s with supervision := silentRec s } := ⟨hs.1, hs.2, hs.3, hs.4, hs.5, hs.6⟩
    have effect : silenceExpired s = onSilenceSet { s with supervision := silentRec s } := by
      unfold silenceExpired
      rw [if_pos ((isDue_iff _).2 k)]
      rfl
    have settled : Settled (onSilenceSet { s with supervision := silentRec s }) := by
      refine mapOuts_settled (fun _ _ r => ?_) silent
      split
      · exact causes_beginResume _ _
      · rfl
    obtain ⟨t, ht, hap⟩ := event_changed hr effect settled rfl rfl
    exact ⟨t, (onSilenceSet { s with supervision := silentRec s }).safety.outs, ht, length_outs_mapOuts _ _,
      fun n r h => getElem?_outs_onSilenceSet (s := { s with supervision := silentRec s }) rfl h, hap⟩

/-! ### Operations (R177, R184) -/

/-- An event that ends an operation (R184). -/
theorem event_endOp {f : State → State} {s : State} {tag : Byte} {v : Verdict} {res : OpResult} {o : Operation}
    (hr : s.inReset = false) (hs : Settled s) (hf : findOp tag s = some o) (e : f s = endOp tag v res s) :
    ∃ t, done f s = .next t ∧ Happened [.done tag o.kind v res] s
      { s with ctl := (opEnded ⟨tag, o.kind, v, res⟩ s.ctl) } t := by
  obtain ⟨blocks, raised, inbox, made, chosen⟩ := endOp_raised (v := v) (r := res) hf
  exact event_noticed hr e (endOp_settled hs) raised blocks inbox made chosen (by simp)

theorem operationAnswerTimeout_happened (tag : Byte) (s : State) (hr : s.inReset = false) (hs : Settled s) :
    ((∀ o, findOp tag s = some o → o.answer ≠ some 0) →
      ∃ t, exec (.operationAnswerTimeout tag) s = .next t ∧ Happened [] s s t) ∧
    (∀ o, findOp tag s = some o → o.answer = some 0 →
      ∃ t, exec (.operationAnswerTimeout tag) s = .next t ∧
        Happened [.done tag o.kind (.no .noAnswer) (bareResult o)] s
          { s with ctl := (opEnded ⟨tag, o.kind, .no .noAnswer, bareResult o⟩ s.ctl) } t) := by
  refine ⟨fun k => event_nothing hr hs ?_, fun o ho k => event_endOp hr hs ho ?_⟩
  · unfold answerTimeout
    cases ho : findOp tag s with
    | none => rfl
    | some o => simp only [if_neg (mt (isDue_iff _).1 (k o ho))]
  · unfold answerTimeout
    rw [ho]
    simp only [if_pos ((isDue_iff _).2 k)]

theorem goTimeout_happened (tag : Byte) (s : State) (hr : s.inReset = false) (hs : Settled s) :
    ((∀ o, findOp tag s = some o → o.kind ≠ .go ∨ o.limit ≠ some 0) →
      ∃ t, exec (.goTimeout tag) s = .next t ∧ Happened [] s s t) ∧
    (∀ o, findOp tag s = some o → o.kind = .go → o.limit = some 0 →
      ∃ t, exec (.goTimeout tag) s = .next t ∧ Happened [.done tag .go (.no .noAnswer) .none] s
        { s with ctl := (opEnded ⟨tag, .go, .no .noAnswer, .none⟩ s.ctl) } t) := by
  refine ⟨fun k => event_nothing hr hs ?_, fun o ho kind k => ?_⟩
  · unfold goTimeout
    cases ho : findOp tag s with
    | none => rfl
    | some o =>
      simp only
      rw [if_neg]
      rcases k o ho with h | h <;> simp [isDue, h]
  · rw [← kind]
    refine event_endOp hr hs ho ?_
    unfold goTimeout
    rw [ho]
    simp [kind, isDue, k]

/-- Settles O51, timer by timer. -/
theorem waitsRunOut : Obligations.WaitsRunOut :=
  ⟨currencyRetryExpiry_happened, silenceTimerExpiry_happened, fun tag s hr hs =>
    ⟨(operationAnswerTimeout_happened tag s hr hs).1, (operationAnswerTimeout_happened tag s hr hs).2,
      (goTimeout_happened tag s hr hs).1, (goTimeout_happened tag s hr hs).2⟩⟩

end Sys2Proof.Machine
end

section
/-! PROOFS. Requests that ask for slots (R80, R81): their checks in order, the admission of a long request (R183),
and the message for the master. -/

namespace Sys2Proof.Machine

open Sys2Proof

/-! ### What a request is judged by, as it stood before the request -/

@[simp] theorem queueLen_goodRequest (s : State) : queueLen (goodRequest s) = s.queue.items.length := by
  simp [queueLen]
@[simp] theorem isMaster_goodRequest (s : State) : (goodRequest s).isMaster = s.isMaster := by simp [State.isMaster]
@[simp] theorem isOrigin_goodRequest (s : State) : (goodRequest s).isOrigin = s.isOrigin := by simp [State.isOrigin]
@[simp] theorem isStage_goodRequest (s : State) : (goodRequest s).isStage = s.isStage := by simp [State.isStage]
@[simp] theorem hostRoom_goodRequest (s : State) : hostRoom (goodRequest s) = hostRoom s := by
  unfold hostRoom queueLen
  rw [(parts_goodRequest s).2.2.2.2.1]
@[simp] theorem findOp_goodRequest (tag : Byte) (s : State) : findOp tag (goodRequest s) = findOp tag s := by
  simp [findOp, goodRequest_ops]
@[simp] theorem admission_goodRequest (tag : Byte) (q : Bool) (s : State) :
    admission tag q (goodRequest s) = admission tag q s := by
  simp [admission, opCount, goodRequest_ops]
@[simp] theorem heldOrConflict_goodRequest (s : State) : heldOrConflict (goodRequest s) = heldOrConflict s := by
  simp [heldOrConflict]
@[simp] theorem loopLocked_goodRequest (s : State) : loopLocked (goodRequest s) = loopLocked s := by
  simp [loopLocked]
@[simp] theorem isDeputyOrigin_goodRequest (s : State) : isDeputyOrigin (goodRequest s) = isDeputyOrigin s := by
  simp [isDeputyOrigin]
@[simp] theorem queued_goodRequest (d : QDest) (m : LoopMsg) (o : Option Byte) (c : GainCause) (s : State) :
    queued d m o c (goodRequest s) = queued d m o c s := by
  simp [queued]

theorem push_eq (d : QDest) (m : LoopMsg) (o : Option Byte) (c : GainCause) (s : State) :
    push d m o c s = { s with queue := queued d m o c s } := rfl

theorem hostRoom_iff (s : State) : hostRoom s = true ↔ s.queue.items.length < 12 := by
  exact decide_eq_true_iff
theorem isMaster_iff (s : State) : s.isMaster = true ↔ s.start.role = .master := by simp [State.isMaster]
theorem isOrigin_iff (s : State) : s.isOrigin = true ↔ s.loop.role = .origin := by simp [State.isOrigin]
theorem isStage_iff (s : State) : s.isStage = true ↔ s.start.func = .stage := by simp [State.isStage]
theorem heldOrConflict_iff (s : State) :
    heldOrConflict s = true ↔ s.start.held = true ∨ s.loop.conflict ≠ none := by
  simp [heldOrConflict, Option.isSome_iff_ne_none]

/-! ### The admission of a long request (R183) -/

theorem admission_cases (tag : Byte) (s : State) :
    (8 ≤ opCount s → admission tag true s = some .busy) ∧
    (opCount s < 8 → (findOp tag s).isSome = true → admission tag true s = some (.refused .state)) ∧
    (opCount s < 8 → findOp tag s = none → 12 ≤ s.queue.items.length → admission tag true s = some .busy) ∧
    (opCount s < 8 → findOp tag s = none → s.queue.items.length < 12 → admission tag true s = none) := by
  unfold admission
  refine ⟨fun h => if_pos h, fun h hf => ?_, fun h hf hq => ?_, fun h hf hq => ?_⟩
  all_goals rw [if_neg (Nat.not_le.2 h)]
  · rw [if_pos hf]
  · have full : hostRoom s = false := by rw [← Bool.not_eq_true, hostRoom_iff]; omega
    simp [hf, full]
  · simp [hf, (hostRoom_iff s).2 hq]

/-- A request that comes down to the admission of a long request with one message: what admission refuses, and the
operation and the message that enter (R183). -/
theorem admitLong_answered {tag : Byte} {k : OpKind} {gain : Option (NodeId × Nat)} {d : QDest} {msg : LoopMsg}
    {judge : State → Judged} {s : State} (h : Taken s) (hs : Settled s)
    (hj : judge (goodRequest s) =
      admitLong (queuedOp tag k gain) true (push d msg (some tag) .loc) (goodRequest s)) :
    (∀ r, admission tag true s = some r → ∃ t, done (takeRequest tag judge) s = .next t ∧
      Answered tag r [] s (goodRequest s) t) ∧
    (admission tag true s = none → ∃ t, done (takeRequest tag judge) s = .next t ∧ Answered tag .started [] s
      { goodRequest s with
        queue := queued d msg (some tag) .loc s
        ctl := { (goodRequest s).ctl with
          ops := placeOp ⟨tag, k, .queued, none, none, gain⟩ s.ctl.ops } } t) := by
  refine ⟨fun r hr => request_idle h hs ?_, fun hn => ?_⟩
  · rw [hj]
    simp [admitLong, queuedOp, hr]
  · have g := goodRequest_settled hs
    refine request_settled h (u := { goodRequest s with
        queue := queued d msg (some tag) .loc s
        ctl := { (goodRequest s).ctl with
          ops := placeOp ⟨tag, k, .queued, none, none, gain⟩ s.ctl.ops } })
      ?_ ⟨g.1, g.2, g.3, g.4, g.5, g.6⟩ ((Raised.refl _).of_eq rfl rfl rfl rfl) (goodRequest_chosen s) (by simp)
    rw [hj]
    simp only [admitLong, queuedOp, admission_goodRequest, hn, started, push_eq, addOp, goodRequest_ops,
      ← queued_goodRequest (s := s)]
    rfl

/-! ### CLAIM_SLOT and RELEASE_SLOT -/

/-- The checks that the two requests share, in order (R80, R81, R165), before the request is carried out. -/
def judgeSlots (fits forced : Bool) (tag : Byte) (k : OpKind) (a : SlotAsk) (msg : LoopMsg) (s : State) : Judged :=
  if !fits then refuse .range s
  else if heldOrConflict s then refuse .state s
  else if loopLocked s then refuse .locked s
  else if isDeputyOrigin s || (forced && !s.isMaster) then refuse .notMaster s
  else slotRequest tag k a msg s

theorem judgeClaimSlot_eq (tag : Byte) (pairs : List ClaimPair) (s : State) : judgeClaimSlot tag pairs s =
    judgeSlots (claimFits s pairs) false tag .claimSlot (.claim pairs) (.slotClaim tag pairs) s := by
  simp [judgeClaimSlot, judgeSlots]

theorem judgeReleaseSlot_eq (tag : Byte) (slots : List Nat) (force : Bool) (s : State) :
    judgeReleaseSlot tag slots force s =
      judgeSlots (releaseFits s slots) force tag .releaseSlot (.release slots force) (.slotRelease tag slots) s := rfl

/-- A slot request is refused by the first of its checks that fails, and passes else. -/
theorem judgeSlots_cases (fits forced : Bool) (tag : Byte) (k : OpKind) (a : SlotAsk) (msg : LoopMsg) (s : State) :
    (fits = false → judgeSlots fits forced tag k a msg s = refuse .range s) ∧
    (fits = true → heldOrConflict s = true → judgeSlots fits forced tag k a msg s = refuse .state s) ∧
    (fits = true → heldOrConflict s = false →
      (loopLocked s = true → judgeSlots fits forced tag k a msg s = refuse .locked s) ∧
      (loopLocked s = false →
        ((isDeputyOrigin s || (forced && !s.isMaster)) = true →
          judgeSlots fits forced tag k a msg s = refuse .notMaster s) ∧
        ((isDeputyOrigin s || (forced && !s.isMaster)) = false →
          judgeSlots fits forced tag k a msg s = slotRequest tag k a msg s))) := by
  unfold judgeSlots
  refine ⟨fun hf => ?_, fun hf hh => ?_, fun hf hh => ⟨fun hl => ?_, fun hl => ⟨fun ho => ?_, fun ho => ?_⟩⟩⟩
  · simp [hf]
  · simp [hf, hh]
  · simp [hf, hh, hl]
  · rw [ho]; simp [hf, hh, hl]
  · rw [ho]; simp [hf, hh, hl]

theorem loopLocked_iff (s : State) :
    loopLocked s = true ↔ s.start.role ≠ .master ∧ ∃ l, s.lock.loopLevel = some l ∧ 1 ≤ l := by
  simp [loopLocked, State.isMaster, Option.any_eq_true]

theorem isDeputyOrigin_iff (s : State) :
    isDeputyOrigin s = true ↔ s.loop.role = .origin ∧ ∃ g, s.loop.group = some g ∧ g.rank = .deputy := by
  simp [isDeputyOrigin, State.isOrigin, Option.any_eq_true]

theorem claimFits_iff (s : State) (pairs : List ClaimPair) : claimFits s pairs = true ↔
    1 ≤ pairs.length ∧ pairs.length ≤ 4 ∧ ∀ x ∈ pairs, x.input < 64 ∧
      ∀ n, x.slot = some n → n < slotCount s.start.rate := by
  simp [claimFits, Option.all_eq_true, and_assoc]

theorem releaseFits_iff (s : State) (slots : List Nat) : releaseFits s slots = true ↔
    1 ≤ slots.length ∧ slots.length ≤ 4 ∧ ∀ n ∈ slots, n < slotCount s.start.rate := by
  simp [releaseFits, and_assoc]

/-- The outcome of a slot request by its checks (R80, R81, R165, R183). -/
theorem judgeSlots_answered {fits forced : Bool} {tag : Byte} {k : OpKind} {a : SlotAsk} {msg : LoopMsg}
    {judge : State → Judged} {s : State} (h : Taken s) (hs : Settled s)
    (hj : judge (goodRequest s) = judgeSlots fits forced tag k a msg (goodRequest s)) :
    let stopped : Prop := s.start.held = true ∨ s.loop.conflict ≠ none
    let lockedOut : Prop := s.start.role ≠ .master ∧ ∃ l, s.lock.loopLevel = some l ∧ 1 ≤ l
    let deputy : Prop := s.loop.role = .origin ∧ ∃ g, s.loop.group = some g ∧ g.rank = .deputy
    let other : Prop := deputy ∨ (forced = true ∧ s.start.role ≠ .master)
    (fits = false → ∃ t, done (takeRequest tag judge) s = .next t ∧
      Answered tag (.refused .range) [] s (goodRequest s) t) ∧
    (fits = true → stopped → ∃ t, done (takeRequest tag judge) s = .next t ∧
      Answered tag (.refused .state) [] s (goodRequest s) t) ∧
    (fits = true → ¬ stopped → lockedOut → ∃ t, done (takeRequest tag judge) s = .next t ∧
      Answered tag (.refused .locked) [] s (goodRequest s) t) ∧
    (fits = true → ¬ stopped → ¬ lockedOut → other → ∃ t, done (takeRequest tag judge) s = .next t ∧
      Answered tag (.refused .notMaster) [] s (goodRequest s) t) ∧
    (fits = true → ¬ stopped → ¬ lockedOut → ¬ other →
      judge (goodRequest s) = slotRequest tag k a msg (goodRequest s)) := by
  intro stopped lockedOut deputy other
  have hstop : heldOrConflict (goodRequest s) = true ↔ stopped := by
    rw [heldOrConflict_goodRequest, heldOrConflict_iff]
  have hlock : loopLocked (goodRequest s) = true ↔ lockedOut := by rw [loopLocked_goodRequest, loopLocked_iff]
  have hother : (isDeputyOrigin (goodRequest s) || (forced && !(goodRequest s).isMaster)) = true ↔ other := by
    rw [Bool.or_eq_true, isDeputyOrigin_goodRequest, isDeputyOrigin_iff, isMaster_goodRequest]
    simp [other, deputy, State.isMaster]
  obtain ⟨range, state, rest⟩ := judgeSlots_cases fits forced tag k a msg (goodRequest s)
  refine ⟨fun hf => ?_, fun hf hp => ?_, fun hf hp hl => ?_, fun hf hp hl ho => ?_, fun hf hp hl ho => ?_⟩
  · exact request_idle h hs (hj.trans (range hf))
  · exact request_idle h hs (hj.trans (state hf (hstop.2 hp)))
  all_goals
    have hp' := Bool.eq_false_iff.2 (mt hstop.1 hp)
    obtain ⟨locked, open'⟩ := rest hf hp'
  · exact request_idle h hs (hj.trans (locked (hlock.2 hl)))
  · exact request_idle h hs (hj.trans ((open' (Bool.eq_false_iff.2 (mt hlock.1 hl))).1 (hother.2 ho)))
  · exact hj.trans ((open' (Bool.eq_false_iff.2 (mt hlock.1 hl))).2 (Bool.eq_false_iff.2 (mt hother.1 ho)))

/-- The two requests come down to the shared checks. -/
theorem exec_slotRequest {tag : Byte} {pairs : List ClaimPair} {slots : List Nat} {force : Bool} {c : Instr}
    {fits forced : Prop} {k : OpKind} {msg : LoopMsg} {s : State}
    (hc : (c = .claimSlot tag pairs ∧ k = .claimSlot ∧ msg = .slotClaim tag pairs ∧ ¬ forced ∧
        (fits ↔ 1 ≤ pairs.length ∧ pairs.length ≤ 4 ∧ ∀ x ∈ pairs, x.input < 64 ∧
          ∀ n, x.slot = some n → n < slotCount s.start.rate)) ∨
      (c = .releaseSlot tag slots force ∧ k = .releaseSlot ∧ msg = .slotRelease tag slots ∧
        (forced ↔ force = true) ∧
        (fits ↔ 1 ≤ slots.length ∧ slots.length ≤ 4 ∧ ∀ n ∈ slots, n < slotCount s.start.rate))) :
    ∃ (judge : State → Judged) (a : SlotAsk) (f d : Bool), (f = true ↔ fits) ∧ (d = true ↔ forced) ∧
      exec c s = done (takeRequest tag judge) s ∧
      judge (goodRequest s) = judgeSlots f d tag k a msg (goodRequest s) := by
  rcases hc with ⟨rfl, rfl, rfl, hforced, hfits⟩ | ⟨rfl, rfl, rfl, hforced, hfits⟩
  · exact ⟨_, _, claimFits (goodRequest s) pairs, false, by rw [claimFits_iff, hfits]; simp, by simpa using hforced,
      rfl, judgeClaimSlot_eq tag pairs _⟩
  · exact ⟨_, _, releaseFits (goodRequest s) slots, force, by rw [releaseFits_iff, hfits]; simp, hforced.symm,
      rfl, judgeReleaseSlot_eq tag slots force _⟩

/-- Settles O39: the admission by its checks, the two requests by the checks they share. -/
theorem slotsAsked : Obligations.SlotsAsked := by
  refine ⟨admission_cases, ?_⟩
  intro tag pairs slots force c fits forced k msg s h hs hc stopped lockedOut deputy other
  obtain ⟨judge, a, f, d, hf, hd, hexec, hj⟩ := exec_slotRequest hc
  obtain ⟨range, state, locked, notMaster, passes⟩ := judgeSlots_answered h hs hj
  rw [← hf]
  simp only [hexec]
  have hother : other ↔ deputy ∨ (d = true ∧ s.start.role ≠ .master) := by simp only [other, hd]
  refine ⟨fun hn => range (Bool.eq_false_iff.2 hn), state, locked, fun hf hp hl ho => notMaster hf hp hl (hother.1 ho),
    fun hf hp hl ho hm => ?_, fun hf hp ho hm hq => ?_⟩
  · refine admitLong_answered h hs ?_
    rw [passes hf hp hl (mt hother.2 ho), slotRequest, if_neg (by simpa [isMaster_iff] using hm)]
  · refine request_idle h hs ?_
    have hl : ¬ lockedOut := fun hl => hl.1 hm
    have full : hostRoom s = false := by rw [← Bool.not_eq_true, hostRoom_iff]; omega
    rw [passes hf hp hl (mt hother.2 ho), slotRequest, if_pos (by simpa [isMaster_iff] using hm)]
    simp [full, busy]

end Sys2Proof.Machine
end

section
/-! PROOFS. Slots at the master (R80 to R92): a host's claim or release, the loop messages that ask for slots, their
answers, and SNAP_REQ. -/

namespace Sys2Proof.Machine

open Sys2Proof

/-! ### Changes issued and answers sent -/

/-- The Slot Router after changes were issued together (R85). -/
def issuedRec (ch : List SlotChange) (r : SlotRec) : SlotRec :=
  { r with
    issued := r.issued + 1
    inFlight := ch.foldl (fun l x => l.set x.slot (some (x, r.issued + 1))) r.inFlight }

theorem issueChanges_nil (s : State) : issueChanges [] s = s := rfl

theorem issueChanges_room {ch : List SlotChange} (h : ch ≠ []) {s : State} (room : s.queue.items.length < 16) :
    issueChanges ch s = { s with
      slots := issuedRec ch s.slots, queue := queued .all (.allot (s.slots.issued + 1) ch) none .loc s } := by
  unfold issueChanges
  rw [if_neg (by simpa using h)]
  exact pushInternal_room _ _ room

theorem pushAnswer_room (w : NodeId) (tag : Byte) (l : List PairResult) {s : State}
    (room : s.queue.items.length < 16) :
    pushAnswer w tag l s = { s with queue := queued (.node w) (.slotAnswer tag l) none .loc s } :=
  pushInternal_room _ _ room

/-- A SLOT_ANSWER sent: into the queue, or discarded where 16 messages stand (R14, R82). -/
theorem pushAnswer_sent (w : NodeId) (tag : Byte) (l : List PairResult) (s : State) :
    (s.queue.items.length < 16 →
      pushAnswer w tag l s = { s with queue := queued (.node w) (.slotAnswer tag l) none .loc s }) ∧
    (16 ≤ s.queue.items.length → SameBlocks s (pushAnswer w tag l s) ∧
      Raised [.loopChange (loopView s) (.queueFull (msgKind (.slotAnswer tag l)))] s (pushAnswer w tag l s)) := by
  refine ⟨pushAnswer_room w tag l, fun full => ?_⟩
  unfold pushAnswer
  rw [pushInternal_full _ _ full]
  exact ⟨(notify_same _ _).1, .notify _ _⟩

/-! ### A host's claim or release at the master -/

theorem Settled.issued {s : State} (h : Settled s) (ch : List SlotChange) (q : QueueRec) :
    Settled { s with slots := issuedRec ch s.slots, queue := q } :=
  h.of_parts rfl rfl (fun _ => rfl) (fun _ => rfl) rfl h.retry h.takeover h.copy

theorem arbitrate_goodRequest (s : State) (w : NodeId) (a : SlotAsk) :
    arbitrate (goodRequest s) w a = arbitrate s w a := by
  simp [arbitrate]

theorem arbitrate_locked {s : State} (w : NodeId) (a : SlotAsk) (h : 1 ≤ s.lock.level) :
    arbitrate s w a = (List.replicate (askSize a) (.refused .locked), []) := if_pos h

/-- The decision of an ask at lock level 0 (R83, R84). -/
def decided (s : State) (w : NodeId) : SlotAsk → List PairResult × List SlotChange
  | .claim ps => claimPairs s.start.rate s.slots w [] ps
  | .release ns f => releaseSlots s.start.rate s.slots w f [] ns

theorem arbitrate_open {s : State} (w : NodeId) (a : SlotAsk) (h : s.lock.level = 0) :
    arbitrate s w a = decided s w a := by
  unfold arbitrate
  rw [if_neg (by omega)]
  cases a <;> rfl

/-- A slot request carried out at the master (R80, R81, R85, R165). -/
theorem slotRequest_answered {tag : Byte} {k : OpKind} {a : SlotAsk} {msg : LoopMsg} {judge : State → Judged}
    {s : State} {res : List PairResult} {ch : List SlotChange} (h : Taken s) (hs : Settled s)
    (hm : s.start.role = .master) (room : s.queue.items.length < 12)
    (hj : judge (goodRequest s) = slotRequest tag k a msg (goodRequest s)) (hd : (res, ch) = decided s s.start.id a) :
    (1 ≤ s.lock.level → ∃ t, done (takeRequest tag judge) s = .next t ∧
      Answered tag (.data (.pairs (List.replicate (askSize a) (.refused .locked)))) [] s (goodRequest s) t) ∧
    (s.lock.level = 0 → ch = [] → ∃ t, done (takeRequest tag judge) s = .next t ∧
      Answered tag (.data (.pairs res)) [] s (goodRequest s) t) ∧
    (s.lock.level = 0 → ch ≠ [] → ∃ t, done (takeRequest tag judge) s = .next t ∧
      Answered tag (.data (.pairs res)) [] s { goodRequest s with
        slots := issuedRec ch s.slots
        queue := queued .all (.allot (s.slots.issued + 1) ch) none .loc s } t) := by
  have carried : judge (goodRequest s) = (some (.data (.pairs (arbitrate s s.start.id a).1)),
      issueChanges (arbitrate s s.start.id a).2 (goodRequest s)) := by
    rw [hj, slotRequest, if_pos (by simpa [isMaster_iff] using hm), hostRoom_goodRequest,
      (hostRoom_iff s).2 room, arbitrate_goodRequest]
    simp [data]
  refine ⟨fun hl => ?_, fun hl hch => ?_, fun hl hch => ?_⟩
  · refine request_idle h hs ?_
    rw [carried, arbitrate_locked _ _ hl]
    rfl
  all_goals rw [arbitrate_open _ _ hl, ← hd] at carried
  · refine request_idle h hs ?_
    rw [carried, hch]
    rfl
  · refine request_changed h (u := { goodRequest s with
      slots := issuedRec ch s.slots
      queue := queued .all (.allot (s.slots.issued + 1) ch) none .loc s }) ?_ ?_ rfl (by simp)
    · rw [carried]
      simp only
      rw [issueChanges_room hch (by simp; omega)]
      simp
    · have k := (goodRequest_settled hs).issued ch (queued .all (.allot (s.slots.issued + 1) ch) none .loc s)
      simpa using k

theorem slotsRequested_answered (tag : Byte) (pairs : List ClaimPair) (slots : List Nat) (force : Bool) (s : State)
    (h : Taken s) (hs : Settled s) (hm : s.start.role = .master) (held : s.start.held = false)
    (conflict : s.loop.conflict = none)
    (rank : ∀ g, s.loop.role = .origin → s.loop.group = some g → g.rank = .master)
    (room : s.queue.items.length < 12) (c : Instr) (n : Nat) (res : List PairResult) (ch : List SlotChange)
    (hc : (c = .claimSlot tag pairs ∧ n = pairs.length ∧ 1 ≤ n ∧ n ≤ 4 ∧
        (∀ x ∈ pairs, x.input < 64 ∧ ∀ m, x.slot = some m → m < slotCount s.start.rate) ∧
        (res, ch) = claimPairs s.start.rate s.slots s.start.id [] pairs) ∨
      (c = .releaseSlot tag slots force ∧ n = slots.length ∧ 1 ≤ n ∧ n ≤ 4 ∧
        (∀ m ∈ slots, m < slotCount s.start.rate) ∧
        (res, ch) = releaseSlots s.start.rate s.slots s.start.id force [] slots)) :
    (1 ≤ s.lock.level → ∃ t, exec c s = .next t ∧
      Answered tag (.data (.pairs (List.replicate n (.refused .locked)))) [] s (goodRequest s) t) ∧
    (s.lock.level = 0 → ch = [] → ∃ t, exec c s = .next t ∧
      Answered tag (.data (.pairs res)) [] s (goodRequest s) t) ∧
    (s.lock.level = 0 → ch ≠ [] → ∃ t, exec c s = .next t ∧
      Answered tag (.data (.pairs res)) [] s { goodRequest s with
        slots := issuedRec ch s.slots
        queue := queued .all (.allot (s.slots.issued + 1) ch) none .loc s } t) := by
  have stop : ¬ (s.start.held = true ∨ s.loop.conflict ≠ none) := by simp [held, conflict]
  have lock : ¬ (s.start.role ≠ .master ∧ ∃ l, s.lock.loopLevel = some l ∧ 1 ≤ l) := fun k => k.1 hm
  have deputy : ¬ (s.loop.role = .origin ∧ ∃ g, s.loop.group = some g ∧ g.rank = .deputy) := by
    rintro ⟨ho, g, hg, hr⟩
    rw [rank g ho hg] at hr
    cases hr
  rcases hc with ⟨rfl, rfl, h1, h4, hfit, hd⟩ | ⟨rfl, rfl, h1, h4, hfit, hd⟩
  · have fits : claimFits (goodRequest s) pairs = true := by
      rw [claimFits_iff]
      exact ⟨h1, h4, by simpa using hfit⟩
    refine slotRequest_answered (k := .claimSlot) (a := .claim pairs) (msg := .slotClaim tag pairs) h hs hm room ?_ hd
    exact (judgeSlots_answered h hs (judgeClaimSlot_eq tag pairs _)).2.2.2.2 fits stop lock (by simp [deputy])
  · have fits : releaseFits (goodRequest s) slots = true := by
      rw [releaseFits_iff]
      exact ⟨h1, h4, by simpa using hfit⟩
    refine slotRequest_answered (k := .releaseSlot) (a := .release slots force)
      (msg := .slotRelease tag slots) h hs hm room ?_ hd
    exact (judgeSlots_answered h hs (judgeReleaseSlot_eq tag slots force _)).2.2.2.2 fits stop lock (by simp [deputy, hm])

/-! ### SLOT_CLAIM and SLOT_RELEASE acted on -/

/-- The Slot Router with an answer recorded for its sender (R75). -/
def recorded (w : NodeId) (tag : Byte) (num : MsgNo) (l : List PairResult) (r : SlotRec) : SlotRec :=
  { r with answers := r.answers.set w.val (some ⟨tag, num, l⟩) }

theorem recordAnswer_eq (w : NodeId) (tag : Byte) (num : MsgNo) (l : List PairResult) (s : State) :
    recordAnswer w tag num l s = { s with slots := recorded w tag num l s.slots } := rfl

/-- An ask is no repeat of the one that the sender's answer record answers. -/
def freshAsk (w : NodeId) (tag : Byte) (num : MsgNo) (s : State) : Prop :=
  ∀ r, s.slots.answers.getD w.val none = some r → r.tag ≠ tag ∨ r.num ≠ num

/-- At the master an ask is a repeat, meets a full or nearly full queue, or is decided (R82). -/
theorem takeSlotAsk_master {w : NodeId} {tag : Byte} {num : MsgNo} {a : SlotAsk} {s : State}
    (hm : s.start.role = .master) :
    (∀ r, s.slots.answers.getD w.val none = some r → r.tag = tag → r.num = num →
      takeSlotAsk w tag num a s = pushAnswer w tag r.results s) ∧
    (freshAsk w tag num s →
      (s.queue.items.length = 15 → takeSlotAsk w tag num a s =
        recordAnswer w tag num (List.replicate (askSize a) (.refused .state))
          (pushAnswer w tag (List.replicate (askSize a) (.refused .state)) s)) ∧
      (16 ≤ s.queue.items.length → takeSlotAsk w tag num a s = s) ∧
      (s.queue.items.length < 15 → takeSlotAsk w tag num a s =
        recordAnswer w tag num (arbitrate s w a).1
          (pushAnswer w tag (arbitrate s w a).1 (issueChanges (arbitrate s w a).2 s)))) := by
  have master : s.isMaster = true := (isMaster_iff s).2 hm
  unfold takeSlotAsk freshAsk queueLen
  simp only [master, Bool.not_true, Bool.false_eq_true, if_false]
  generalize s.slots.answers.getD w.val none = answer
  refine ⟨fun r hr ht hn => by subst hr; simp [ht, hn], fun hf => ?_⟩
  cases answer with
  | none =>
    refine ⟨fun hq => if_pos hq, fun hq => ?_, fun hq => ?_⟩
    · rw [if_neg (by omega), if_pos hq]
    · rw [if_neg (by omega), if_neg (by omega)]
  | some r =>
    have notRepeat : (decide (r.tag = tag) && decide (r.num = num)) = false := by
      rcases hf r rfl with k | k <;> simp [k]
    simp only [notRepeat, Bool.false_eq_true, if_false]
    refine ⟨fun hq => if_pos hq, fun hq => ?_, fun hq => ?_⟩
    · rw [if_neg (by omega), if_pos hq]
    · rw [if_neg (by omega), if_neg (by omega)]

/-- The queue with the ALLOT of an ask's changes and, behind it, the SLOT_ANSWER (R82, R85). -/
def decidedQueue (w : NodeId) (tag : Byte) (res : List PairResult) (ch : List SlotChange) (s : State) : QueueRec :=
  { s.queue with
    items := s.queue.items ++
      [⟨s.queue.nextNum, .all, .allot (s.slots.issued + 1) ch, 0, none, none, s.loop.group, .loc⟩,
        ⟨s.queue.nextNum + 1, .node w, .slotAnswer tag res, 0, none, none, s.loop.group, .loc⟩]
    nextNum := s.queue.nextNum + 2 }

/-- What an ask leaves at the master, at a node that is not it, and at a deputy origin (R82 to R85, R165). -/
theorem takeSlotAsk_leaves {w : NodeId} {tag : Byte} {num : MsgNo} {a : SlotAsk} {s : State} {res : List PairResult}
    {ch : List SlotChange} (hd : (res, ch) = decided s w a) :
    let t := takeSlotAsk w tag num a s
    let every (why : Reason) : List PairResult := List.replicate (askSize a) (.refused why)
    let sends (l : List PairResult) : Prop :=
      (s.queue.items.length < 16 →
        t = { s with queue := queued (.node w) (.slotAnswer tag l) none .loc s }) ∧
      (16 ≤ s.queue.items.length → SameBlocks s t ∧
        Raised [.loopChange (loopView s) (.queueFull (msgKind (.slotAnswer tag l)))] s t)
    let answers (l : List PairResult) : Prop := t = { s with
      slots := recorded w tag num l s.slots, queue := queued (.node w) (.slotAnswer tag l) none .loc s }
    (s.start.role ≠ .master → s.loop.role = .follower → t = s) ∧
    (s.start.role ≠ .master → s.loop.role = .origin → sends (every .notMaster)) ∧
    (s.start.role = .master →
      (∀ r, s.slots.answers.getD w.val none = some r → r.tag = tag → r.num = num → sends r.results) ∧
      (freshAsk w tag num s → s.queue.items.length = 15 → answers (every .state)) ∧
      (freshAsk w tag num s → 16 ≤ s.queue.items.length → t = s) ∧
      (freshAsk w tag num s → s.queue.items.length < 15 → 1 ≤ s.lock.level → answers (every .locked)) ∧
      (freshAsk w tag num s → s.queue.items.length < 15 → s.lock.level = 0 → ch = [] → answers res) ∧
      (freshAsk w tag num s → s.queue.items.length < 15 → s.lock.level = 0 → ch ≠ [] → t = { s with
        slots := issuedRec ch (recorded w tag num res s.slots)
        queue := decidedQueue w tag res ch s })) := by
  intro t every sends answers
  have notMaster (hm : s.start.role ≠ .master) : s.isMaster = false := by
    rw [← Bool.not_eq_true, isMaster_iff]; exact hm
  have sent (l : List PairResult) (e : t = pushAnswer w tag l s) : sends l := by
    have k := pushAnswer_sent w tag l s
    rw [← e] at k
    exact k
  have answered (l : List PairResult) (room : s.queue.items.length < 16)
      (e : t = recordAnswer w tag num l (pushAnswer w tag l s)) : answers l := by
    rw [pushAnswer_room _ _ _ room] at e
    exact e
  refine ⟨fun hm ho => ?_, fun hm ho => ?_, fun hm => ?_⟩
  · simp [t, takeSlotAsk, notMaster hm, State.isOrigin, ho]
  · exact sent _ (by simp [t, takeSlotAsk, notMaster hm, State.isOrigin, ho, every])
  · obtain ⟨repeated, fresh⟩ := takeSlotAsk_master (w := w) (tag := tag) (num := num) (a := a) hm
    refine ⟨fun r hr ht hn => sent _ (repeated r hr ht hn), fun hf hq => answered _ (by omega) ((fresh hf).1 hq),
      fun hf hq => (fresh hf).2.1 hq, fun hf hq hl => answered _ (by omega) ?_,
      fun hf hq hl hch => answered _ (by omega) ?_, fun hf hq hl hch => ?_⟩
    all_goals have e := (fresh hf).2.2 hq
    · rw [arbitrate_locked _ _ hl] at e
      exact e
    all_goals rw [arbitrate_open _ _ hl, ← hd] at e
    · rw [hch] at e
      exact e
    · rw [show t = _ from e, issueChanges_room hch (by omega), pushAnswer_room]
      · have two : s.queue.nextNum + 1 + 1 = s.queue.nextNum + 2 := by rw [BitVec.add_assoc]; rfl
        simp only [recordAnswer, queued, issuedRec, recorded, decidedQueue, List.append_assoc, List.cons_append,
          List.nil_append, two]
      · simp [queued]; omega

/-! ### SLOT_ANSWER and SNAP_REQ acted on -/

/-- A SLOT_ANSWER ends the operation of its tag that awaits it (R87, R184). -/
theorem takeSlotAnswer_leaves (tag : Byte) (res : List PairResult) (s : State) :
    let awaits (o : Operation) : Prop := s.start.role ≠ .master ∧ o.stage = .awaiting ∧
      (o.kind = .claimSlot ∨ o.kind = .releaseSlot)
    ((∀ o, findOp tag s = some o → ¬ awaits o) → takeSlotAnswer tag res s = s) ∧
    (∀ o, findOp tag s = some o → awaits o → takeSlotAnswer tag res s = endOp tag .ok (.pairs res) s) := by
  intro awaits
  refine ⟨fun h => ?_, fun o ho ⟨hm, hst, hk⟩ => ?_⟩
  · unfold takeSlotAnswer
    split
    · rfl
    · rename_i hm
      have hm : s.start.role ≠ .master := by simpa [isMaster_iff] using hm
      split
      · rfl
      · rename_i o ho
        have := h o ho
        split
        · exact absurd ⟨hm, ‹_›, .inl ‹_›⟩ this
        · exact absurd ⟨hm, ‹_›, .inr ‹_›⟩ this
        · rfl
  · unfold takeSlotAnswer
    rw [if_neg (by simpa [isMaster_iff] using hm), ho]
    rcases hk with hk | hk <;> simp only [hk, hst]

/-- The Slot Router with the serial a SNAP_REQ carried recorded (R92). -/
def askedRec (w : NodeId) (last : Option Serial) (s : State) (snap : SnapRec) : State :=
  { s with slots := { s.slots with requests := s.slots.requests.set w.val last }, snap := snap }

theorem takeSnapReq_leaves (w : NodeId) (last : Option Serial) (s : State) :
    (s.start.role ≠ .master → takeSnapReq w last s = s) ∧
    (s.start.role = .master →
      (s.snap.run ≠ none ∨ (s.queue.outstanding ≠ none ∧ s.snap.pendGain = false) →
        takeSnapReq w last s = askedRec w last s { s.snap with pendAllot := true }) ∧
      (s.snap.run = none → s.queue.outstanding = none →
        takeSnapReq w last s =
          askedRec w last s { s.snap with run := some ⟨.allot, 0, 0, 0, none, none⟩, pendAllot := false })) := by
  unfold takeSnapReq
  refine ⟨fun hm => if_neg (by simpa [isMaster_iff] using hm), fun hm => ?_⟩
  rw [if_pos ((isMaster_iff s).2 hm)]
  unfold needAllotSnap snapshotStart
  refine ⟨fun h => ?_, fun hr ho => by simp [hr, ho, outstanding, askedRec]⟩
  cases hr : s.snap.run with
  | some r => simp [askedRec]
  | none =>
    obtain ⟨ho, hg⟩ := h.resolve_left (by simp [hr])
    obtain ⟨f, hf⟩ := Option.ne_none_iff_exists'.1 ho
    simp [askedRec, outstanding, hf, hg]

/-- Settles O40, message by message. -/
theorem slotsDecided : Obligations.SlotsDecided := by
  refine ⟨slotsRequested_answered, ?ask, ?answer, ?request⟩
  case ask =>
    intro w h m tag n res ch s hc
    rcases hc with ⟨pairs, hb, rfl, hd⟩ | ⟨slots, hb, rfl, hd⟩
    · have e : actOn w h m s = takeSlotAsk w tag m.num (.claim pairs) s := by unfold actOn; rw [hb]
      rw [e]
      exact takeSlotAsk_leaves (a := .claim pairs) hd
    · have e : actOn w h m s = takeSlotAsk w tag m.num (.release slots false) s := by unfold actOn; rw [hb]
      rw [e]
      exact takeSlotAsk_leaves (a := .release slots false) hd
  case answer =>
    intro w h m tag res s hb
    have e : actOn w h m s = takeSlotAnswer tag res s := by unfold actOn; rw [hb]
    rw [e]
    obtain ⟨idle, ends⟩ := takeSlotAnswer_leaves tag res s
    refine ⟨idle, fun o ho ha => ?_⟩
    rw [ends o ho ha]
    obtain ⟨blocks, raised, _⟩ := endOp_raised (v := .ok) (r := .pairs res) ho
    exact ⟨raised, blocks⟩
  case request =>
    intro w h m last s hb
    have e : actOn w h m s = takeSnapReq w last s := by unfold actOn; rw [hb]
    rw [e]
    exact takeSnapReq_leaves w last s

end Sys2Proof.Machine
end

section
/-! PROOFS. Gain asked of another node (R112 to R116): the three requests, the three messages at the STAGE node, and
the answer. -/

namespace Sys2Proof.Machine

open Sys2Proof

/-! ### SET_GAIN for another node, CLAIM_GAIN, YIELD_GAIN -/

theorem nodeOf_eq_some (x : Nat) (n : NodeId) : nodeOf x = some n ↔ n.val = x := by
  unfold nodeOf
  split
  · rw [Option.some.injEq, Fin.ext_iff]
    exact eq_comm
  · have := n.isLt
    simp only [reduceCtorEq, false_iff]
    omega

theorem nodeOf_eq_none (x : Nat) : nodeOf x = none ↔ 8 ≤ x := by simp [nodeOf]

/-- What the three requests share: the node's number, the ranges, a refusal of their own, and what the request comes
down to (R112). -/
def judgeRemoteGain (tag : Byte) (k : OpKind) (x i : Nat) (fits forced shut : Bool) (msg : LoopMsg) (s : State) :
    Judged :=
  match nodeOf x with
  | none => refuse .range s
  | some n =>
    if !fits then refuse .range s
    else if forced then refuse .state s
    else remoteGain tag k n i shut msg s

theorem judgeSetGain_remote (tag : Byte) {x : Nat} (i : Nat) (f : GainFields) (force : Bool) {s : State}
    (hx : x ≠ s.start.id.val) : judgeSetGain tag (some x) i f force s =
      judgeRemoteGain tag .setGain x i (gainFits i f) force false
        (.gainSet tag i f.gain (f.pad.map flagNat) (f.phantom.map flagNat)) s := by
  unfold judgeSetGain judgeRemoteGain
  simp only
  cases hn : nodeOf x with
  | none => rfl
  | some n =>
    simp only
    rw [if_neg]
    · rfl
    · rintro rfl
      exact hx ((nodeOf_eq_some _ _).1 hn).symm

theorem judgeClaimGain_remote (tag : Byte) (x i : Nat) (force : Bool) (s : State) : judgeClaimGain tag x i force s =
    judgeRemoteGain tag .claimGain x i (decide (i < 64)) false
      (force && (s.lock.view.getD x none).any fun l => decide (2 ≤ l)) (.gainClaim tag i force) s := by
  unfold judgeClaimGain judgeRemoteGain
  cases hn : nodeOf x with
  | none => rfl
  | some n =>
    obtain rfl := (nodeOf_eq_some _ _).1 hn
    by_cases hi : i < 64
    · simp [hi, Nat.not_le.2 hi, viewLocked]
    · simp [hi, Nat.not_lt.1 hi]

theorem judgeYieldGain_remote (tag : Byte) (x i : Nat) (s : State) : judgeYieldGain tag x i s =
    judgeRemoteGain tag .yieldGain x i (decide (i < 64)) false false (.gainYield tag i) s := by
  unfold judgeYieldGain judgeRemoteGain
  cases hn : nodeOf x with
  | none => rfl
  | some n =>
    by_cases hi : i < 64
    · simp [hi, Nat.not_le.2 hi]
    · simp [hi, Nat.not_lt.1 hi]

theorem shownDesk_iff (s : State) (n : NodeId) :
    shownDesk s n = true ↔ ∃ e ∈ s.loop.copy.entries, e.id.val = n.val ∧ e.func = some .desk := by
  simp [shownDesk, List.any_eq_true, Fin.ext_iff]

/-- The conditions under which a gain request for another node is refused STATE (R112). -/
theorem remoteGain_stopped {tag : Byte} {k : OpKind} {n : NodeId} {i : Nat} {shut : Bool} {msg : LoopMsg} {s : State}
    (h : s.start.func = .stage ∨ n.val = s.start.id.val ∨
      (∃ e ∈ s.loop.copy.entries, e.id.val = n.val ∧ e.func = some .desk) ∨
      s.start.held = true ∨ s.loop.conflict ≠ none) : remoteGain tag k n i shut msg s = refuse .state s := by
  unfold remoteGain
  by_cases h1 : (s.isStage || decide (n = s.start.id) || shownDesk s n) = true
  · rw [if_pos h1]
  · rw [if_neg h1, if_pos]
    rw [heldOrConflict_iff]
    simp only [Bool.or_eq_true, decide_eq_true_eq, not_or, shownDesk_iff, isStage_iff, Fin.ext_iff] at h1
    obtain ⟨⟨notStage, notSelf⟩, notDesk⟩ := h1
    exact ((h.resolve_left notStage).resolve_left notSelf).resolve_left notDesk

/-- Elsewhere the lock view refuses it, or it is admitted as a long request (R112, R167, R183). -/
theorem remoteGain_passes {tag : Byte} {k : OpKind} {n : NodeId} {i : Nat} {shut : Bool} {msg : LoopMsg} {s : State}
    (h : ¬ (s.start.func = .stage ∨ n.val = s.start.id.val ∨
      (∃ e ∈ s.loop.copy.entries, e.id.val = n.val ∧ e.func = some .desk) ∨
      s.start.held = true ∨ s.loop.conflict ≠ none)) : remoteGain tag k n i shut msg s =
        if shut then refuse .locked s
        else admitLong (queuedOp tag k (some (n, i))) true (push (.node n) msg (some tag) .loc) s := by
  simp only [not_or] at h
  obtain ⟨notStage, notSelf, notDesk, running⟩ := h
  unfold remoteGain
  rw [if_neg, if_neg]
  · rw [heldOrConflict_iff, not_or]
    exact running
  · simp only [Bool.or_eq_true, decide_eq_true_eq, not_or, shownDesk_iff, isStage_iff, Fin.ext_iff]
    exact ⟨⟨notStage, notSelf⟩, notDesk⟩

/-- The outcome of a gain request for another node by its checks (R112, R167, R183). -/
theorem judgeRemoteGain_answered {tag : Byte} {k : OpKind} {x i : Nat} {fits forced shut : Bool} {msg : LoopMsg}
    {judge : State → Judged} {s : State} (h : Taken s) (hs : Settled s)
    (hj : judge (goodRequest s) = judgeRemoteGain tag k x i fits forced shut msg (goodRequest s)) :
    let desk : Prop := ∃ e ∈ s.loop.copy.entries, e.id.val = x ∧ e.func = some .desk
    let stopped : Prop := forced = true ∨ s.start.func = .stage ∨ x = s.start.id.val ∨ desk ∨
      s.start.held = true ∨ s.loop.conflict ≠ none
    (¬ (x < 8 ∧ fits = true) → ∃ t, done (takeRequest tag judge) s = .next t ∧
      Answered tag (.refused .range) [] s (goodRequest s) t) ∧
    (x < 8 ∧ fits = true → stopped → ∃ t, done (takeRequest tag judge) s = .next t ∧
      Answered tag (.refused .state) [] s (goodRequest s) t) ∧
    (x < 8 ∧ fits = true → ¬ stopped → shut = true → ∃ t, done (takeRequest tag judge) s = .next t ∧
      Answered tag (.refused .locked) [] s (goodRequest s) t) ∧
    (x < 8 ∧ fits = true → ¬ stopped → ¬ shut = true →
      (∀ r, admission tag true s = some r → ∃ t, done (takeRequest tag judge) s = .next t ∧
        Answered tag r [] s (goodRequest s) t) ∧
      (∀ n : NodeId, n.val = x → admission tag true s = none → ∃ t, done (takeRequest tag judge) s = .next t ∧
        Answered tag .started [] s { goodRequest s with
          queue := queued (.node n) msg (some tag) .loc s
          ctl := { (goodRequest s).ctl with
            ops := placeOp ⟨tag, k, .queued, none, none, some (n, i)⟩ s.ctl.ops } } t)) := by
  intro desk stopped
  unfold judgeRemoteGain at hj
  refine ⟨fun hf => request_idle h hs ?_, fun ⟨hx, hf⟩ hp => request_idle h hs ?_, fun ⟨hx, hf⟩ hp hl => ?_,
    fun ⟨hx, hf⟩ hp hl => ?_⟩
  · rw [hj]
    cases hn : nodeOf x with
    | none => rfl
    | some n =>
      have hx : x < 8 := (nodeOf_eq_some _ _).1 hn ▸ n.isLt
      simp only
      rw [if_pos (by simpa using fun k => hf ⟨hx, k⟩)]
      rfl
  all_goals
    have hn : nodeOf x = some ⟨x, hx⟩ := (nodeOf_eq_some _ _).2 rfl
    simp only [hn, hf, Bool.not_true, Bool.false_eq_true, if_false] at hj
  · rw [hj]
    split
    · rfl
    · rename_i hforced
      exact remoteGain_stopped (by simpa using hp.resolve_left hforced)
  all_goals
    rw [show stopped ↔ _ from Iff.rfl, not_or] at hp
    rw [if_neg hp.1, remoteGain_passes (by simpa only [parts_goodRequest] using hp.2)] at hj
  · refine request_idle h hs ?_
    rw [hj, if_pos hl]
    rfl
  · rw [if_neg hl] at hj
    refine ⟨(admitLong_answered h hs hj).1, ?_⟩
    rintro n rfl
    exact (admitLong_answered h hs hj).2

/-! ### GAIN_SET, GAIN_CLAIM and GAIN_YIELD acted on -/

/-- The Gain Controller with an answer recorded for its sender (R110). -/
def recordedGain (w : NodeId) (tag : Byte) (num : MsgNo) (v : Verdict) (r : GainRec) : GainRec :=
  { r with answers := r.answers.set w.val (some ⟨tag, num, v⟩) }

/-- A message is no repeat of the one that the sender's answer record answers (R114). -/
def freshGainAsk (w : NodeId) (tag : Byte) (num : MsgNo) (s : State) : Prop :=
  ∀ r, s.gain.answers.getD w.val none = some r → r.tag ≠ tag ∨ r.num ≠ num

theorem pushGainAnswer_room (w : NodeId) (tag : Byte) (v : Verdict) {s : State} (room : s.queue.items.length < 16) :
    pushGainAnswer w tag v s = { s with queue := queued (.node w) (.gainAnswer tag v) none .loc s } :=
  pushInternal_room _ _ room

/-- The state after an answer has been sent and recorded (R114). -/
def gainAnswered (w : NodeId) (tag : Byte) (num : MsgNo) (v : Verdict) (s : State) : State := { s with
  gain := recordedGain w tag num v s.gain, queue := queued (.node w) (.gainAnswer tag v) none .loc s }

theorem answerGain_room (w : NodeId) (tag : Byte) (num : MsgNo) (v : Verdict) {s : State}
    (room : s.queue.items.length < 16) : answerGain w tag num v s = gainAnswered w tag num v s := by
  unfold answerGain
  rw [pushGainAnswer_room _ _ _ room]
  rfl

/-- The state after a change has been decided, its GAIN_NOTE queued, and the answer sent behind it (R114, R115). -/
def gainGranted (w : NodeId) (tag : Byte) (num : MsgNo) (i : Nat) (new : GainSetting) (s : State) : State := { s with
  gain := { recordedGain w tag num .ok s.gain with table := s.gain.table.set i { gainAt s i with
    issued := (gainAt s i).issued + 1, inFlight := some ⟨new, (gainAt s i).issued + 1⟩ } }
  queue := { s.queue with
    items := s.queue.items ++
      [⟨s.queue.nextNum, .all, .gainNote i new ((gainAt s i).issued + 1), 0, none, none, s.loop.group, .desk w⟩,
        ⟨s.queue.nextNum + 1, .node w, .gainAnswer tag .ok, 0, none, none, s.loop.group, .loc⟩]
    nextNum := s.queue.nextNum + 2 } }

theorem decideGain_room (i : Nat) (g : GainSetting) (c : GainCause) {s : State} (room : s.queue.items.length < 16) :
    decideGain i g c s = push .all (.gainNote i g ((gainAt s i).issued + 1)) none c
      (setGainEntry i (decideEntry g (gainAt s i)) s) := by
  unfold decideGain pushGainNote
  exact if_pos (decide_eq_true (show queueLen (setGainEntry i (decideEntry g (gainAt s i)) s) < 16 from room))

theorem answerGain_decideGain (w : NodeId) (tag : Byte) (num : MsgNo) (i : Nat) (new : GainSetting) {s : State}
    (room : s.queue.items.length < 15) :
    answerGain w tag num .ok (decideGain i new (.desk w) s) = gainGranted w tag num i new s := by
  rw [decideGain_room _ _ _ (by omega), answerGain_room]
  · have two : s.queue.nextNum + 1 + 1 = s.queue.nextNum + 2 := by rw [BitVec.add_assoc]; rfl
    simp only [gainAnswered, gainGranted, queued, push, setGainEntry, recordedGain, decideEntry, List.append_assoc,
      List.cons_append, List.nil_append, two]
  · simp [push]; omega

/-- A message at a STAGE node is a repeat, meets a full or nearly full queue, or is decided (R114); a DESK node passes
it over (R19). -/
theorem takeGainAsk_cases (w : NodeId) (tag : Byte) (num : MsgNo) (i : Nat) (a : GainAsk) (s : State) :
    (s.start.func = .desk → takeGainAsk w tag num i a s = s) ∧
    (∀ r, s.start.func = .stage → s.gain.answers.getD w.val none = some r → r.tag = tag → r.num = num →
      s.queue.items.length < 16 → takeGainAsk w tag num i a s =
        { s with queue := queued (.node w) (.gainAnswer tag r.outcome) none .loc s }) ∧
    (s.start.func = .stage → freshGainAsk w tag num s → s.queue.items.length = 15 →
      takeGainAsk w tag num i a s = gainAnswered w tag num (.no .state) s) ∧
    (s.start.func = .stage → freshGainAsk w tag num s → 16 ≤ s.queue.items.length → takeGainAsk w tag num i a s = s) ∧
    (s.start.func = .stage → freshGainAsk w tag num s → s.queue.items.length < 15 →
      takeGainAsk w tag num i a s = decideAsk w tag num i a s) := by
  have atStage (hf : s.start.func = .stage) : s.isStage = true := (isStage_iff s).2 hf
  have fresh (hf : s.start.func = .stage) (hr : freshGainAsk w tag num s) : takeGainAsk w tag num i a s =
      if s.queue.items.length = 15 then answerGain w tag num (.no .state) s
      else if 16 ≤ s.queue.items.length then s else decideAsk w tag num i a s := by
    unfold takeGainAsk
    simp only [atStage hf, Bool.not_true, Bool.false_eq_true, if_false]
    cases hg : s.gain.answers.getD w.val none with
    | none => rfl
    | some r =>
      have notRepeat : (decide (r.tag = tag) && decide (r.num = num)) = false := by
        rcases hr r hg with k | k <;> simp [k]
      simp only [notRepeat, Bool.false_eq_true, if_false]
      rfl
  refine ⟨fun hf => ?_, fun r hf hg ht hn room => ?_, fun hf hr hq => ?_, fun hf hr hq => ?_, fun hf hr hq => ?_⟩
  · simp [takeGainAsk, State.isStage, hf]
  · unfold takeGainAsk
    simp only [atStage hf, hg, ht, hn, Bool.not_true, Bool.false_eq_true, if_false, decide_true, Bool.and_self, if_true]
    exact pushGainAnswer_room _ _ _ room
  all_goals rw [fresh hf hr]
  · rw [if_pos hq, answerGain_room _ _ _ _ (by omega)]
  · rw [if_neg (by omega), if_pos hq]
  · rw [if_neg (by omega), if_neg (by omega)]

/-- A message out of range is answered RANGE; else the table's outcome is answered, behind the note of a change
(R115). -/
theorem decideAsk_cases (w : NodeId) (tag : Byte) (num : MsgNo) (i : Nat) (a : GainAsk) {s : State}
    (room : s.queue.items.length < 15) :
    let d := decidedSetting (gainAt s i)
    (gainInRange i a = false → decideAsk w tag num i a s = gainAnswered w tag num (.no .range) s) ∧
    (gainInRange i a = true →
      (∀ v new, v ≠ .ok → judgeAsk s.lock.level w d a = (v, new) →
        decideAsk w tag num i a s = gainAnswered w tag num v s) ∧
      (∀ new, judgeAsk s.lock.level w d a = (.ok, new) →
        (new = d → decideAsk w tag num i a s = gainAnswered w tag num .ok s) ∧
        (new ≠ d → decideAsk w tag num i a s = gainGranted w tag num i new s))) := by
  intro d
  unfold decideAsk
  refine ⟨fun hr => ?_, fun hr => ⟨fun v new hv hj => ?_, fun new hj => ⟨fun hn => ?_, fun hn => ?_⟩⟩⟩
  · simp only [hr, Bool.not_false, if_true]
    exact answerGain_room _ _ _ _ (by omega)
  all_goals
    simp only [hr, Bool.not_true, Bool.false_eq_true, if_false]
    rw [hj]
  · simp only [hv, decide_false, Bool.false_and, Bool.false_eq_true, if_false]
    exact answerGain_room _ _ _ _ (by omega)
  · simp only [show (new != decidedSetting (gainAt s i)) = false by simpa using hn, Bool.and_false,
      Bool.false_eq_true, if_false]
    exact answerGain_room _ _ _ _ (by omega)
  · simp only [show (new != decidedSetting (gainAt s i)) = true by simpa using hn, decide_true, Bool.and_self, if_true]
    exact answerGain_decideGain _ _ _ _ _ room

/-- What a message that is decided leaves (R115), by its table. -/
def gainDecided (w : NodeId) (tag : Byte) (num : MsgNo) (i : Nat) (new : GainSetting) (s t : State) : Prop :=
  (new = decidedSetting (gainAt s i) → t = gainAnswered w tag num .ok s) ∧
  (new ≠ decidedSetting (gainAt s i) → t = gainGranted w tag num i new s)

theorem decideAsk_set (w : NodeId) (tag : Byte) (num : MsgNo) (i : Nat) (g p ph : Option Nat) {s : State}
    (room : s.queue.items.length < 15) :
    let t := decideAsk w tag num i (.set g p ph) s
    let d := decidedSetting (gainAt s i)
    let fits : Prop := i < 64 ∧ (g ≠ none ∨ p ≠ none ∨ ph ≠ none) ∧ (∀ x, g = some x → x ≤ 60) ∧
      (∀ x, p = some x → x ≤ 1) ∧ (∀ x, ph = some x → x ≤ 1)
    let new : GainSetting := { d with
      gain := g.getD d.gain, pad := (p.map (· == 1)).getD d.pad, phantom := (ph.map (· == 1)).getD d.phantom }
    let shut : Prop := 2 ≤ s.lock.level ∧ (new.pad ≠ d.pad ∨ new.phantom ≠ d.phantom)
    (¬ fits → t = gainAnswered w tag num (.no .range) s) ∧
    (fits → d.owner ≠ some w → t = gainAnswered w tag num (.no .notOwner) s) ∧
    (fits → d.owner = some w → shut → t = gainAnswered w tag num (.no .locked) s) ∧
    (fits → d.owner = some w → ¬ shut → gainDecided w tag num i new s t) := by
  intro t d fits new shut
  have range : gainInRange i (.set g p ph) = true ↔ fits := by
    simp [gainInRange, fits, Option.all_eq_true, Option.isSome_iff_ne_none, and_assoc, or_assoc]
  have lock : (decide (2 ≤ s.lock.level) && (new.pad != d.pad || new.phantom != d.phantom)) = true ↔ shut := by
    simp [shut]
  obtain ⟨outside, inside⟩ := decideAsk_cases w tag num i (.set g p ph) room
  have judged : judgeAsk s.lock.level w d (.set g p ph) =
      if d.owner ≠ some w then (.no .notOwner, d)
      else if decide (2 ≤ s.lock.level) && (new.pad != d.pad || new.phantom != d.phantom) then (.no .locked, d)
      else (.ok, new) := rfl
  refine ⟨fun hf => outside (Bool.eq_false_iff.2 (mt range.1 hf)), fun hf ho => ?_, fun hf ho hl => ?_,
    fun hf ho hl => ?_⟩
  · exact (inside (range.2 hf)).1 _ _ (by simp) (judged.trans (if_pos ho))
  · exact (inside (range.2 hf)).1 _ _ (by simp) (judged.trans ((if_neg (not_not.2 ho)).trans (if_pos (lock.2 hl))))
  · exact (inside (range.2 hf)).2 _ (judged.trans ((if_neg (not_not.2 ho)).trans (if_neg (mt lock.1 hl))))

theorem decideAsk_claim (w : NodeId) (tag : Byte) (num : MsgNo) (i : Nat) (f : Bool) {s : State}
    (room : s.queue.items.length < 15) :
    let t := decideAsk w tag num i (.claim f) s
    let d := decidedSetting (gainAt s i)
    let free : Prop := d.owner = none ∨ d.owner = some w
    (64 ≤ i → t = gainAnswered w tag num (.no .range) s) ∧
    (i < 64 → ¬ free → f = false → t = gainAnswered w tag num (.no .owned) s) ∧
    (i < 64 → ¬ free → f = true → 2 ≤ s.lock.level → t = gainAnswered w tag num (.no .locked) s) ∧
    (i < 64 → free ∨ (f = true ∧ s.lock.level < 2) → gainDecided w tag num i { d with owner := some w } s t) := by
  intro t d free
  obtain ⟨outside, inside⟩ := decideAsk_cases w tag num i (.claim f) room
  have range (hi : i < 64) : gainInRange i (.claim f) = true := by simp [gainInRange, hi]
  have judged : judgeAsk s.lock.level w d (.claim f) =
      if free then (.ok, { d with owner := some w }) else if !f then (.no .owned, d)
      else if 2 ≤ s.lock.level then (.no .locked, d) else (.ok, { d with owner := some w }) := by
    simp [judgeAsk, free]
  refine ⟨fun hi => outside (by simp [gainInRange, hi]), fun hi hn hf => ?_, fun hi hn hf hl => ?_, fun hi hc => ?_⟩
  · exact (inside (range hi)).1 _ d (by simp) (by rw [judged, if_neg hn]; simp [hf])
  · exact (inside (range hi)).1 _ d (by simp) (by rw [judged, if_neg hn]; simp [hf, hl])
  · refine (inside (range hi)).2 _ ?_
    rw [judged]
    rcases hc with hc | ⟨hf, hl⟩
    · rw [if_pos hc]
    · simp [hf, Nat.not_le.2 hl]

theorem decideAsk_yield (w : NodeId) (tag : Byte) (num : MsgNo) (i : Nat) {s : State}
    (room : s.queue.items.length < 15) :
    let t := decideAsk w tag num i .yld s
    let d := decidedSetting (gainAt s i)
    (64 ≤ i → t = gainAnswered w tag num (.no .range) s) ∧
    (i < 64 → d.owner ≠ some w → t = gainAnswered w tag num (.no .notOwner) s) ∧
    (i < 64 → d.owner = some w → gainDecided w tag num i { d with owner := none } s t) := by
  intro t d
  obtain ⟨outside, inside⟩ := decideAsk_cases w tag num i .yld room
  have range (hi : i < 64) : gainInRange i .yld = true := by simp [gainInRange, hi]
  refine ⟨fun hi => outside (by simp [gainInRange, hi]), fun hi ho => ?_, fun hi ho => ?_⟩
  · exact (inside (range hi)).1 _ d (by simp) (if_neg ho)
  · exact (inside (range hi)).2 _ (if_pos ho)

/-! ### GAIN_ANSWER acted on -/

/-- A GAIN_ANSWER ends the operation of its tag that awaits it (R116, R184). -/
theorem takeGainAnswer_leaves (tag : Byte) (v : Verdict) (s : State) :
    let awaits (o : Operation) : Prop := o.stage = .awaiting ∧
      (o.kind = .setGain ∨ o.kind = .claimGain ∨ o.kind = .yieldGain)
    ((∀ o, findOp tag s = some o → ¬ awaits o) → takeGainAnswer tag v s = s) ∧
    (∀ o, findOp tag s = some o → awaits o → takeGainAnswer tag v s = endOp tag v (bareResult o) s) := by
  intro awaits
  unfold takeGainAnswer
  refine ⟨fun h => ?_, fun o ho ⟨hst, hk⟩ => ?_⟩
  · split
    · rfl
    · rename_i o ho
      have := h o ho
      split
      · exact absurd ⟨‹_›, .inl ‹_›⟩ this
      · exact absurd ⟨‹_›, .inr (.inl ‹_›)⟩ this
      · exact absurd ⟨‹_›, .inr (.inr ‹_›)⟩ this
      · rfl
  · rw [ho]
    rcases hk with hk | hk | hk <;> simp only [hk, hst]

theorem actOn_gainAsk {w : NodeId} {h : Header} {m : Message} {tag : Byte} {i : Nat} {s : State} :
    (∀ g p ph, m.body = .gainSet tag i g p ph → actOn w h m s = takeGainAsk w tag m.num i (.set g p ph) s) ∧
    (∀ f, m.body = .gainClaim tag i f → actOn w h m s = takeGainAsk w tag m.num i (.claim f) s) ∧
    (m.body = .gainYield tag i → actOn w h m s = takeGainAsk w tag m.num i .yld s) ∧
    (∀ v, m.body = .gainAnswer tag v → actOn w h m s = takeGainAnswer tag v s) := by
  refine ⟨fun _ _ _ hb => ?_, fun _ hb => ?_, fun hb => ?_, fun _ hb => ?_⟩ <;> (unfold actOn; rw [hb])

/-- Settles O43: the requests by the judge they share, the messages by R114's cases and R115's table. -/
theorem gainAsked : Obligations.GainAsked := by
  refine ⟨?requests, ?messages⟩
  case requests =>
    intro tag x i f force c fits forced k msg s h hs hc
    rcases hc with ⟨rfl, rfl, hforced, hx, rfl, hfits⟩ | ⟨rfl, rfl, hforced, rfl, hfits⟩ |
      ⟨rfl, rfl, hforced, rfl, hfits⟩
    · have hj := judgeSetGain_remote tag i f force (s := goodRequest s) (by simpa using hx)
      have hf : fits ↔ x < 8 ∧ gainFits i f = true := by
        rw [hfits]
        simp [gainFits, Option.all_eq_true, Option.isSome_iff_ne_none, and_assoc, or_assoc]
      simp only [hf, hforced]
      obtain ⟨range, state, locked, passes⟩ := judgeRemoteGain_answered h hs hj
      exact ⟨range, state, fun _ _ hl => absurd hl.1 (by simp), fun hf hp _ => passes hf hp (by simp)⟩
    · have hj := judgeClaimGain_remote tag x i force (goodRequest s)
      have hf : fits ↔ x < 8 ∧ decide (i < 64) = true := by rw [hfits]; simp
      have hshut : (force && ((goodRequest s).lock.view.getD x none).any fun l => decide (2 ≤ l)) = true ↔
          force = true ∧ ∃ l, s.lock.view.getD x none = some l ∧ 2 ≤ l := by
        rw [(parts_goodRequest s).2.2.2.2.2.2.2.2.2.2.2, Bool.and_eq_true, Option.any_eq_true]
        simp
      have hfo : forced ↔ false = true := by simpa using hforced
      simp only [hf, hfo]
      obtain ⟨range, state, locked, passes⟩ := judgeRemoteGain_answered h hs hj
      exact ⟨range, state, fun hf hp hl => locked hf hp (hshut.2 hl.2), fun hf hp hl =>
        passes hf hp fun k => hl ⟨trivial, hshut.1 k⟩⟩
    · have hj := judgeYieldGain_remote tag x i (goodRequest s)
      have hf : fits ↔ x < 8 ∧ decide (i < 64) = true := by rw [hfits]; simp
      have hfo : forced ↔ false = true := by simpa using hforced
      simp only [hf, hfo]
      obtain ⟨range, state, locked, passes⟩ := judgeRemoteGain_answered h hs hj
      exact ⟨range, state, fun _ _ hl => absurd hl.1 (by simp), fun hf hp _ => passes hf hp (by simp)⟩
  case messages =>
    intro w h m tag i s
    obtain ⟨set, claim, yld, answer⟩ := actOn_gainAsk (w := w) (h := h) (m := m) (tag := tag) (i := i) (s := s)
    refine ⟨fun hb => ?_, fun g p ph hb hd => ?_, fun f hb hd => ?_, fun hb hd => ?_, fun v hb => ?_⟩
    · have shared (a : GainAsk) (e : actOn w h m s = takeGainAsk w tag m.num i a s) := by
        have k := takeGainAsk_cases w tag m.num i a s
        rw [← e] at k
        exact (⟨k.1, k.2.1, k.2.2.1, k.2.2.2.1⟩ : _ ∧ _ ∧ _ ∧ _)
      rcases hb with ⟨g, p, ph, hb⟩ | ⟨f, hb⟩ | hb
      · exact shared _ (set g p ph hb)
      · exact shared _ (claim f hb)
      · exact shared _ (yld hb)
    · rw [set g p ph hb, (takeGainAsk_cases w tag m.num i _ s).2.2.2.2 hd.1 hd.2.1 hd.2.2]
      exact decideAsk_set w tag m.num i g p ph hd.2.2
    · rw [claim f hb, (takeGainAsk_cases w tag m.num i _ s).2.2.2.2 hd.1 hd.2.1 hd.2.2]
      exact decideAsk_claim w tag m.num i f hd.2.2
    · rw [yld hb, (takeGainAsk_cases w tag m.num i _ s).2.2.2.2 hd.1 hd.2.1 hd.2.2]
      exact decideAsk_yield w tag m.num i hd.2.2
    · rw [answer v hb]
      obtain ⟨idle, ends⟩ := takeGainAnswer_leaves tag v s
      refine ⟨idle, fun o n j ho ha hg => ?_⟩
      rw [ends o ho ha, show bareResult o = .gain n j by simp [bareResult, hg]]
      obtain ⟨blocks, raised, _⟩ := endOp_raised (v := v) (r := .gain n j) ho
      exact ⟨raised, blocks⟩

end Sys2Proof.Machine
end

section
/-! PROOFS. LOOP_RESET and the emptied queue (R14, R73). -/

namespace Sys2Proof.Machine

open Sys2Proof

/-! ### Outcomes block by block -/

/-- The outcome of an event in its blocks: those of its effect, settled. -/
theorem done_blocks {f : State → State} {s : State} (h : s.inReset = false) :
    ∃ t, done f s = .next t ∧ SameBlocks (settle (f s)) t ∧ t.ctl.inbox = (f s).ctl.inbox ∧
      t.ctl.made = (f s).ctl.made ∧ t.pending = s.pending := by
  rw [done_eq, h]
  simp only [Bool.false_eq_true, if_false]
  unfold event
  obtain ⟨a, b, d, reported⟩ := reportOutputs_eq s.safety.outs (settle (f s))
  rw [reported]
  obtain ⟨c, e, picked, _⟩ := pickUart_eq { settle (f s) with
    ctl := { (settle (f s)).ctl with notices := a, lost := b, discarded := d } }
  rw [picked]
  refine ⟨_, rfl, ⟨rfl, rfl, rfl, rfl, rfl, rfl, rfl, rfl, rfl, rfl, rfl, rfl, rfl, rfl, rfl, rfl, rfl, rfl, rfl⟩,
    ?_, ?_, rfl⟩ <;> simp

/-- A reply moves no block. -/
theorem inboxReply_same (tag : Byte) (r : Reply) (old s : State) : SameBlocks s (inboxReply tag r old s) :=
  ⟨rfl, rfl, rfl, rfl, rfl, rfl, rfl, rfl, rfl, rfl, rfl, rfl, rfl, rfl, rfl, rfl, rfl, rfl, rfl⟩

/-- The outcome of a taken request in its blocks, whatever notices its effect raises. -/
theorem request_replied {tag : Byte} {judge : State → Judged} {s u : State} {r : Reply} (h : Taken s)
    (hj : judge (goodRequest s) = (some r, u)) :
    ∃ t, done (takeRequest tag judge) s = .next t ∧ Replied tag r s t ∧ SameBlocks (settle u) t ∧
      t.pending = s.pending := by
  have effect : takeRequest tag judge s = inboxReply tag r (goodRequest s) u := by
    rw [takeRequest_eq, if_neg (by rw [goodRequest_inbox]; have := h.room; omega), hj]
  have closed : settle (inboxReply tag r (goodRequest s) u) = inboxReply tag r (goodRequest s) (settle u) := by
    unfold inboxReply
    rw [settle_ctl, settle_inbox]
  obtain ⟨t, ht, blocks, inbox, made, pending⟩ := done_blocks (f := takeRequest tag judge) h.running
  rw [effect] at inbox made blocks
  rw [closed] at blocks
  refine ⟨t, ht, ⟨?_, ?_⟩, (inboxReply_same _ _ _ _).trans blocks, pending⟩
  · rw [inbox, ← goodRequest_inbox s, ← goodRequest_made s]; rfl
  · rw [made, ← goodRequest_made s]; rfl

/-! ### The operation table after an operation has ended (R183, R184) -/

theorem findOp_eq_none {tag : Byte} {s : State} :
    findOp tag s = none ↔ ∀ o, some o ∈ s.ctl.ops → o.tag ≠ tag := by
  unfold findOp
  rw [List.findSome?_eq_none_iff]
  constructor
  · intro h o ho ht
    simpa [ht] using h _ ho
  · rintro h (_ | o) ho
    · rfl
    · exact if_neg (h o ho)

theorem findOp_of_ops {s t : State} (h : t.ctl.ops = s.ctl.ops) (tag : Byte) : findOp tag t = findOp tag s := by
  unfold findOp
  rw [h]

/-- An operation that leaves the table: the others stay. -/
theorem ops_endOp (tag : Byte) (v : Verdict) (r : OpResult) (s : State) :
    ∀ o, some o ∈ (endOp tag v r s).ctl.ops ↔ some o ∈ s.ctl.ops ∧ o.tag ≠ tag := by
  intro o
  cases found : findOp tag s with
  | none =>
    unfold endOp
    rw [found]
    exact ⟨fun h => ⟨h, findOp_eq_none.1 found o h⟩, And.left⟩
  | some q =>
    rw [(endOp_raised found).1.ops]
    simp only [opEnded, List.mem_map]
    constructor
    · rintro ⟨_ | x, hx, e⟩
      · cases e
      · simp only [Option.filter_some] at e
        split at e
        · cases e
          exact ⟨hx, of_decide_eq_true ‹_›⟩
        · cases e
    · rintro ⟨ho, ht⟩
      exact ⟨some o, ho, by simp [ht]⟩

/-- The lost operation is the one that leaves the table. -/
theorem ops_loseOp (op : Option Byte) (s : State) :
    ∀ o, some o ∈ (loseOp op s).ctl.ops ↔ some o ∈ s.ctl.ops ∧ op ≠ some o.tag := by
  intro o
  unfold loseOp
  split
  next => simp
  next t =>
    split
    next found => exact ⟨fun h => ⟨h, fun e => findOp_eq_none.1 found o h (by cases e; rfl)⟩, And.left⟩
    next =>
      rw [ops_endOp]
      exact and_congr Iff.rfl (not_congr (by rw [Option.some_inj, eq_comm]))

/-! ### The Control Port beside its notices -/

/-- The Control Port stands as it did, its notices apart. -/
def Quiet (s t : State) : Prop :=
  ∃ l b d, t.ctl = { s.ctl with notices := l, lost := b, discarded := d }

theorem Quiet.refl (s : State) : Quiet s s := ⟨_, _, _, rfl⟩

theorem Quiet.of_ctl {s t : State} (h : t.ctl = s.ctl) : Quiet s t := ⟨_, _, _, h⟩

theorem Quiet.trans {s t u : State} (h : Quiet s t) (k : Quiet t u) : Quiet s u := by
  obtain ⟨_, _, _, h⟩ := h
  obtain ⟨l, b, d, k⟩ := k
  exact ⟨l, b, d, by rw [k, h]⟩

theorem Quiet.ops {s t : State} (h : Quiet s t) : t.ctl.ops = s.ctl.ops := by
  obtain ⟨_, _, _, h⟩ := h
  rw [h]

theorem Quiet.foldl {α : Type} {f : State → α → State} (h : ∀ s x, Quiet s (f s x)) (l : List α) (s : State) :
    Quiet s (l.foldl f s) := by
  induction l generalizing s with
  | nil => exact .refl s
  | cons x l ih => exact (h s x).trans (ih _)

theorem notify_quiet (n : Notice) (s : State) : Quiet s (notify n s) := by
  obtain ⟨l, b, d, h⟩ := notify_eq n s
  exact ⟨l, b, d, by rw [h]⟩

theorem noticeLimit_quiet (i : Nat) (old new : Tap) (s : State) : Quiet s (noticeLimit i old new s) := by
  unfold noticeLimit
  repeat' split
  · exact notify_quiet _ _
  all_goals exact .refl s

theorem updateTaps_quiet (f : Tap → Tap) (s : State) : Quiet s (updateTaps f s) :=
  Quiet.trans (.of_ctl rfl) (Quiet.foldl (fun _ _ => noticeLimit_quiet _ _ _ _) _
    { s with lanes := { s.lanes with taps := s.lanes.taps.map f } })

theorem setCache_quiet (n : Nat) (e : CacheEntry) (s : State) : Quiet s (setCache n e s) := by
  unfold setCache
  simp only
  split
  · exact .refl s
  · exact Quiet.trans (.of_ctl rfl) (updateTaps_quiet _ _)

theorem refreshInputCache_quiet (i : Nat) (s : State) : Quiet s (refreshInputCache i s) := by
  unfold refreshInputCache
  split
  · exact .foldl (fun _ _ => setCache_quiet _ _ _) _ _
  · exact .refl s

theorem needGainSnap_quiet (s : State) : Quiet s (needGainSnap s) := .of_ctl (by simp)

theorem loseGain_quiet (i : Nat) (n : GainSerial) (s : State) : Quiet s (loseGain i n s) := by
  unfold loseGain
  repeat' split
  · exact .refl s
  · exact .refl s
  · refine Quiet.trans (Quiet.trans ?_ (needGainSnap_quiet _)) (notify_quiet _ _)
    exact Quiet.trans (.of_ctl rfl) (refreshInputCache_quiet _ _)
  · exact .refl s

/-! ### The emptied queue (R14) -/

/-- Beside operations, changes and entries of lost messages a loss leaves the state. -/
@[simp] theorem parts_loseItem (s : State) (i : QItem) :
    (loseItem s i).start = s.start ∧ (loseItem s i).portA = s.portA ∧ (loseItem s i).portB = s.portB ∧
      (loseItem s i).loop = s.loop ∧ (loseItem s i).queue = s.queue ∧ (loseItem s i).slots.table = s.slots.table ∧
      (loseItem s i).talk = s.talk ∧ (loseItem s i).safety = s.safety ∧ (loseItem s i).lock = s.lock ∧
      (loseItem s i).supervision = s.supervision := by
  unfold loseItem
  simp only
  split
  · split
    · simp [allotLost]
    · simp
  · simp
  · simp

theorem ops_loseItem (s : State) (i : QItem) :
    ∀ o, some o ∈ (loseItem s i).ctl.ops ↔ some o ∈ s.ctl.ops ∧ i.op ≠ some o.tag := by
  intro o
  rw [← ops_loseOp i.op s o]
  unfold loseItem
  simp only
  split
  · split
    · rfl
    · rfl
  · rw [(loseGain_quiet _ _ _).ops]
  · rfl

/-- The emptied queue: what it leaves, and that the operations of its messages are gone. -/
theorem emptied_foldl (l : List QItem) (s : State) :
    let t := l.foldl loseItem s
    (t.start = s.start ∧ t.portA = s.portA ∧ t.portB = s.portB ∧ t.loop = s.loop ∧ t.queue = s.queue ∧
      t.slots.table = s.slots.table ∧ t.talk = s.talk ∧ t.safety = s.safety ∧ t.lock = s.lock ∧
      t.supervision = s.supervision) ∧
    ∀ o, some o ∈ t.ctl.ops ↔ some o ∈ s.ctl.ops ∧ ∀ i ∈ l, i.op ≠ some o.tag := by
  induction l generalizing s with
  | nil => simp
  | cons i l ih =>
    obtain ⟨parts, ops⟩ := ih (loseItem s i)
    refine ⟨by simpa using parts, fun o => ?_⟩
    rw [List.foldl_cons, ops, ops_loseItem, List.forall_mem_cons, and_assoc]

@[simp] theorem parts_emptyQueue (s : State) :
    (emptyQueue s).start = s.start ∧ (emptyQueue s).portA = s.portA ∧ (emptyQueue s).portB = s.portB ∧
      (emptyQueue s).loop = s.loop ∧ (emptyQueue s).queue = emptied s.queue ∧
      (emptyQueue s).slots.table = s.slots.table ∧ (emptyQueue s).talk = s.talk ∧
      (emptyQueue s).safety = s.safety ∧ (emptyQueue s).lock = s.lock ∧
      (emptyQueue s).supervision = s.supervision :=
  (emptied_foldl s.queue.items { s with queue := emptied s.queue }).1

theorem findOp_emptyQueue {s : State} {i : QItem} {x : Byte} (hi : i ∈ s.queue.items) (hx : i.op = some x) :
    findOp x (emptyQueue s) = none := by
  refine findOp_eq_none.2 fun o ho ht => ?_
  have kept := ((emptied_foldl s.queue.items { s with queue := emptied s.queue }).2 o).1 ho
  exact kept.2 i hi (by rw [hx, ht])

/-! ### LOOP_RESET (R73) -/

/-- Settling leaves the entries of the slots (R77, R92). -/
@[simp] theorem table_settle (s : State) : (settle s).slots.table = s.slots.table := by
  have currency (a : State) : (loseCurrency a).slots.table = a.slots.table := by
    unfold loseCurrency
    split <;> rfl
  have takeover (a : State) : (stopTakeover a).slots.table = a.slots.table := by
    unfold stopTakeover
    split <;> rfl
  have retry (a : State) : (retryCheck a).slots.table = a.slots.table := by
    unfold retryCheck
    repeat' split
    all_goals rfl
  unfold settle modeCheck
  rw [retry]
  show (stopTakeover _).slots.table = _
  rw [takeover]
  split
  · exact currency s
  · rfl

/-- The origin's loop has no takeover timer (R63). -/
theorem takeover_of_origin {s : State} (h : Settled s) (k : s.loop.role = .origin) : s.loop.takeover = none := by
  by_contra running
  have orphan := h.takeover (Option.isSome_iff_ne_none.2 running)
  unfold loopMode at orphan
  simp only [k] at orphan
  repeat' split at orphan
  all_goals simp_all

/-- Settles O36: the checks in order, and the emptied queue with the epoch prepared. -/
theorem loopResetPrepared : Obligations.LoopResetPrepared := by
  intro tag s h hs state
  refine ⟨fun hm => ?_, fun hm hl => ?_, fun hm hl hstate => ?_, fun hm hl hstate => ?_⟩
  · exact request_idle h hs (by simp [judgeLoopReset, refuse, isMaster_iff, hm])
  · exact request_idle h hs (by simp [judgeLoopReset, refuse, isMaster_iff, hm, locked_goodRequest, hl])
  · refine request_idle h hs ?_
    unfold judgeLoopReset
    rw [if_neg (by simp [isMaster_iff, hm]), locked_goodRequest, if_neg (by simp [hl]), if_pos]
    · rfl
    · rcases hstate with k | k | k
      · simp [State.isOrigin, k]
      · simp [loopMode_goodRequest, k]
      · simp [k]
  · obtain ⟨hr, hmode, hi⟩ : s.loop.role = .origin ∧ loopMode s ≠ .isolated ∧ s.loop.restart = .idle := by
      cases hr : s.loop.role <;> simp_all [state]
    have judged : judgeLoopReset (goodRequest s) = (some .ok, prepareRestart (goodRequest s)) := by
      unfold judgeLoopReset
      rw [if_neg (by simp [isMaster_iff, hm]), locked_goodRequest, if_neg (by simp [hl]), if_neg]
      · rfl
      · simp [loopMode_goodRequest, State.isOrigin, hr, hmode, hi]
    obtain ⟨t, ht, reply, same, pending⟩ := request_replied h judged
    have stopped : (prepareRestart (goodRequest s)).loop.takeover = none := by
      simpa [prepareRestart] using takeover_of_origin hs hr
    refine ⟨t, ht, reply, ?_, ?_, fun i hi x hx => ?_, ?_, ?_, ?_, ?_, ?_, ?_, ?_, pending⟩
    · simp [same.queue, prepareRestart, emptied]
    · rw [same.loop, loop_settle _ stopped]
      simp [prepareRestart]
    · rw [findOp_of_ops (s := emptyQueue (goodRequest s)) (by rw [same.ops, settle_inbox]; rfl)]
      exact findOp_emptyQueue (by simpa using hi) hx
    · simp [same.start, prepareRestart]
    · simp [same.portA, prepareRestart]
    · simp [same.portB, prepareRestart]
    · simp [same.talk, prepareRestart]
    · simp [same.lock, prepareRestart]
    · simp [same.slots, prepareRestart]
    · simp [same.supervision, prepareRestart]

end Sys2Proof.Machine
end

section
/-! PROOFS. SET_RATE to the other rate at a HELD node (R1, R99, R150, R155). -/

namespace Sys2Proof.Machine

open Sys2Proof

/-! ### A HELD node -/

theorem loopMode_held {s : State} (h : s.start.held = true) : loopMode s = .held := if_pos h

/-- A HELD node takes no sample of a slot, so the validity of a source depends on its kind alone (R102). -/
theorem sourceValid_held {s t : State} (hs : loopMode s = .held) (ht : loopMode t = .held) (src : TapSource) :
    sourceValid t src = sourceValid s src := by
  unfold sourceValid
  rw [hs, ht]

theorem sourceValid_slot_held {s : State} (h : loopMode s = .held) (n : Nat) : sourceValid s (.slot n) = false := by
  unfold sourceValid
  rw [h]

theorem heard_held {s : State} (h : loopMode s = .held) (b : Bus) : heard s b = false := by
  unfold heard
  rw [h]
  rfl

/-! ### Output records on their way to UNUSED -/

/-- An output that is safe or on its way keeps its fallback input and mark when its causes change. -/
theorem toUnused_onCauses {r : OutRec} (h : causesEmpty r.causes = false) (c : OutCtx) (set : CauseSet) :
    toUnused (onCauses c set r) = toUnused { r with causes := set } := by
  unfold onCauses
  simp only [h, Bool.false_and, Bool.false_eq_true, if_false, Bool.not_false, Bool.true_and]
  split
  · split
    · unfold beginResume enterFadeIn
      repeat' split
      all_goals rfl
    all_goals rfl
  · rfl

theorem toUnused_rescale (n : Nat) (c : OutCtx) (r : OutRec) : toUnused (rescale n c r) = toUnused r := by
  unfold rescale becomeSafe beginResume enterFadeIn
  simp only
  repeat' split
  all_goals rfl

/-! ### The tap list -/

/-- What SET_RATE makes of a tap: its track gain unknown, and its source lost with a slot beyond the new talk
slots. -/
def ratedTap (r : Rate) (x : Tap) : Tap := rateTap r { x with unknown := x.unknown || x.tracking }

/-- A tap whose cache entry is cleared. -/
theorem tap_marked (x : Tap) :
    (if x.tracking then { x with unknown := true } else x) = { x with unknown := x.unknown || x.tracking } := by
  obtain ⟨_, tracking, _, _, unknown⟩ := x
  cases tracking <;> cases unknown <;> rfl

/-- The tap's slot is beyond the carried slots of the rate. -/
def tapBeyond (r : Rate) (x : Tap) : Prop := ∃ n, x.source = .slot n ∧ slotCount r - 4 ≤ n

theorem rateLosesTap_iff (r : Rate) (x : Tap) : rateLosesTap r x = true ↔ tapBeyond r x := by
  unfold rateLosesTap tapBeyond
  cases x.source <;> simp [firstTalk]

theorem not_tapBeyond_iff (r : Rate) (x : Tap) : ¬ tapBeyond r x ↔ ∀ n, x.source = .slot n → n < slotCount r - 4 := by
  simp only [tapBeyond, not_exists, not_and, not_le]

theorem ratedTap_lost {r : Rate} {x : Tap} (h : tapBeyond r x) : ratedTap r x = { x with
    source := .unused, tracking := false, unknown := false, limit := false, held := 0 } :=
  if_pos ((rateLosesTap_iff r { x with unknown := x.unknown || x.tracking }).2 h)

theorem ratedTap_kept {r : Rate} {x : Tap} (h : ¬ tapBeyond r x) :
    ratedTap r x = { x with unknown := x.unknown || x.tracking } :=
  if_neg (mt (rateLosesTap_iff r { x with unknown := x.unknown || x.tracking }).1 h)

/-- The state whose sources SET_RATE judges anew. -/
def rated (r : Rate) (s : State) : State :=
  { s with
    start := { s.start with rate := r }
    portA := { s.portA with routed := none }
    portB := { s.portB with routed := none }
    slots := { s.slots with
      table := freshTable r
      inFlight := List.replicate (slotCount r) none
      unsettled := List.replicate (slotCount r) false }
    lanes := { s.lanes with
      taps := s.lanes.taps.map (ratedTap r)
      cache := List.replicate (slotCount r) none } }

theorem loopMode_rated (r : Rate) (s : State) : loopMode (rated r s) = loopMode s :=
  loopMode_congr rfl rfl rfl rfl rfl rfl rfl rfl rfl

/-- What SET_RATE makes of an output whose source has been judged. -/
def ratedOut (r : Rate) (s : State) (i : Nat) (t : Tap) (o : OutRec) : OutRec :=
  let o1 := rescale (fadeLen s.start.rate t) (outCtx (rated r s) t) o
  if rateLosesTap r (tapAt s i) then toUnused o1 else o1

/-- The state SET_RATE gives. -/
def rateSet (r : Rate) (s : State) : State := mapOuts (ratedOut r s) (rejudge (rated r s))

theorem changeRate_eq {r : Rate} {s : State} (h : r ≠ s.start.rate) :
    changeRate r s = rateSet r s := by
  unfold changeRate
  rw [if_neg h]
  simp only [clearCache, tap_marked, List.map_map]
  rfl

/-- The tap of an output after the sources are judged. -/
theorem tapAt_rejudge_rated (r : Rate) (s : State) (i : Nat) : tapAt (rejudge (rated r s)) i =
    { ratedTap r (tapAt s i) with valid := sourceValid (rated r s) (ratedTap r (tapAt s i)).source } := by
  show (((s.lanes.taps.map (ratedTap r)).map _).getD i (id Tap.power)) = _
  have power : id Tap.power = (fun t : Tap => { t with valid := sourceValid (rated r s) t.source })
      (ratedTap r Tap.power) := rfl
  rw [power, List.getD_map, List.getD_map]
  rfl

theorem tap_valid {s : State} (h : Settled s) (i : Nat) : (tapAt s i).valid = sourceValid s (tapAt s i).source := by
  unfold tapAt
  rw [List.getD_eq_getElem?_getD]
  cases hi : s.lanes.taps[i]? with
  | none => rfl
  | some x => exact h.taps x (List.mem_of_getElem? hi)

/-! ### The outputs -/

/-- The output record SET_RATE leaves. -/
theorem outs_changeRate (r : Rate) (s : State) (i : Nat) :
    (rateSet r s).safety.outs[i]? = s.safety.outs[i]?.map fun o =>
      let t := tapAt (rejudge (rated r s)) i
      ratedOut r s i t (onCauses (outCtx (rated r s) t) (derivedCauses (rated r s) t o.causes) o) := by
  unfold rateSet
  rw [getElem?_outs_mapOuts]
  unfold rejudge syncCauses
  rw [getElem?_outs_mapOuts, Option.map_map]
  rfl

/-- A tap that loses its slot takes its output to UNUSED (R155). -/
theorem ratedOut_lost {r : Rate} {s : State} {i : Nat} {o : OutRec} (h : Settled s) (hm : loopMode s = .held)
    (ho : s.safety.outs[i]? = some o) (hx : tapBeyond r (tapAt s i)) :
    (rateSet r s).safety.outs[i]? = some { o with
      state := .unused, pos := 0, fallback := 0, hold := none, stage := .none
      causes := { o.causes with sourceLost := false } } := by
  obtain ⟨orphan, lost⟩ := h.causes i o ho
  have invalid : (tapAt s i).valid = false := by
    obtain ⟨n, hn, _⟩ := hx
    rw [tap_valid h, hn, sourceValid_slot_held hm]
  have caused : causesEmpty o.causes = false := by
    obtain ⟨n, hn, _⟩ := hx
    rw [invalid, hn] at lost
    simp [causesEmpty, lost]
  rw [outs_changeRate, ho]
  simp only [Option.map_some, ratedOut]
  rw [if_pos ((rateLosesTap_iff r _).2 hx), toUnused_rescale, toUnused_onCauses caused]
  simp only [toUnused, derivedCauses]
  rw [loopMode_rated, ← orphan]

/-- The rescaled positions (R150). -/
def rescaled (old new : Nat) (o : OutRec) : OutRec :=
  { o with
    pos := match o.state with
      | .fadingOut | .fadingIn => o.pos * new / old
      | .live => new
      | .safe | .unused => 0
    fallback := o.fallback * new / old }

/-- Any other tap's output keeps its state (R150). -/
theorem ratedOut_kept {r : Rate} {s : State} {i : Nat} {o : OutRec} (h : Settled s) (hm : loopMode s = .held)
    (ho : s.safety.outs[i]? = some o) (hx : ¬ tapBeyond r (tapAt s i)) :
    (rateSet r s).safety.outs[i]? = some
      (rescale (fadeLen s.start.rate (tapAt s i)) (outCtx (rated r s) (tapAt s i)) o) := by
  obtain ⟨orphan, lost⟩ := h.causes i o ho
  have still : derivedCauses (rated r s) (tapAt (rejudge (rated r s)) i) o.causes = o.causes := by
    rw [tapAt_rejudge_rated, ratedTap_kept hx]
    unfold derivedCauses
    simp only
    rw [sourceValid_held hm ((loopMode_rated r s).trans hm), ← tap_valid h, ← lost, loopMode_rated, ← orphan]
  rw [outs_changeRate, ho]
  simp only [Option.map_some]
  rw [still, onCauses_self]
  unfold ratedOut
  simp only
  rw [if_neg (mt (rateLosesTap_iff r _).1 hx), tapAt_rejudge_rated, ratedTap_kept hx]
  rfl

@[simp] theorem causes_rescale (n : Nat) (c : OutCtx) (r : OutRec) : (rescale n c r).causes = r.causes := by
  unfold rescale
  repeat' split
  all_goals simp

theorem rescale_same {n : Nat} {c : OutCtx} (h : n = c.len) (o : OutRec) : rescale n c o = o := if_pos h

theorem rescale_rescaled {n : Nat} {c : OutCtx} (h : n ≠ c.len) (hn : n ≠ 0) (hc : c.len ≠ 0) (o : OutRec) :
    rescale n c o = rescaled n c.len o := by
  unfold rescale
  rw [if_neg h, if_neg hc, if_neg hn]
  rfl

/-! ### The request's own effects -/

theorem goodRequest_ended (s : State) : (goodRequest s).ctl.ended = s.ctl.ended := by
  obtain ⟨_, _, _, h⟩ := goodRequest_ctl s
  rw [h]

theorem goodRequest_overflow (s : State) : (goodRequest s).ctl.overflow = s.ctl.overflow := by
  obtain ⟨_, _, _, h⟩ := goodRequest_ctl s
  rw [h]

/-- Of the Output Safety Unit a request moves the output records only (R168). -/
theorem goodRequest_safety (s : State) :
    (goodRequest s).safety = { s.safety with outs := (goodRequest s).safety.outs } ∧
      (goodRequest s).safety.outs.length = s.safety.outs.length := by
  unfold goodRequest
  simp only
  split
  · unfold onSilenceClear
    rw [length_outs_mapOuts]
    simp [mapOuts]
  · exact ⟨rfl, rfl⟩

/-! ### The outcome -/

/-- Beside taps, cache, talk samples and outputs SET_RATE moves the rate, the slots and the routed frames. -/
theorem parts_rateSet (r : Rate) (s : State) :
    (rateSet r s).start = { s.start with rate := r } ∧ (rateSet r s).portA = { s.portA with routed := none } ∧
      (rateSet r s).portB = { s.portB with routed := none } ∧ (rateSet r s).loop = s.loop ∧
      (rateSet r s).queue = s.queue ∧ (rateSet r s).snap = s.snap ∧ (rateSet r s).switches = s.switches ∧
      (rateSet r s).gain = s.gain ∧ (rateSet r s).talk = s.talk ∧ (rateSet r s).lock = s.lock ∧
      (rateSet r s).supervision = s.supervision ∧ (rateSet r s).ctl = s.ctl ∧
      (rateSet r s).slots = { s.slots with
        table := freshTable r
        inFlight := List.replicate (slotCount r) none
        unsettled := List.replicate (slotCount r) false } ∧
      (rateSet r s).safety = { s.safety with outs := (rateSet r s).safety.outs } ∧
      (rateSet r s).safety.outs.length = s.safety.outs.length := by
  refine ⟨rfl, rfl, rfl, rfl, rfl, rfl, rfl, rfl, rfl, rfl, rfl, rfl, rfl, rfl, ?_⟩
  simp [rateSet, rejudge, syncCauses, rated]

/-- At a HELD node no talk sample is heard, before and after. -/
theorem lanes_rateSet {r : Rate} {s : State} (h : Settled s) (hm : loopMode s = .held) :
    (rateSet r s).lanes = { s.lanes with
      taps := (rateSet r s).lanes.taps, cache := List.replicate (slotCount r) none } := by
  have silent : (rateSet r s).lanes.heldTalk = s.lanes.heldTalk := by
    rw [h.talk]
    refine List.map_congr_left fun b _ => ?_
    rw [heard_held ((loopMode_rated r s).trans hm), heard_held hm]
    rfl
  calc (rateSet r s).lanes = { s.lanes with
        taps := (rateSet r s).lanes.taps, cache := List.replicate (slotCount r) none
        heldTalk := (rateSet r s).lanes.heldTalk } := rfl
    _ = _ := by rw [silent]

/-- A tap after SET_RATE. -/
theorem taps_rateSet {r : Rate} {s : State} {i : Nat} {x : Tap} (hx : s.lanes.taps[i]? = some x) :
    (rateSet r s).lanes.taps[i]? =
      some { ratedTap r x with valid := sourceValid (rateSet r s) (ratedTap r x).source } := by
  show ((s.lanes.taps.map (ratedTap r)).map _)[i]? = _
  rw [List.getElem?_map, List.getElem?_map, hx]
  rfl

theorem rateSet_settled {r : Rate} {s : State} (h : Settled s) (hm : loopMode s = .held) :
    Settled (rateSet r s) := by
  have mode : loopMode (rateSet r s) = .held := (loopMode_rated r s).trans hm
  refine ⟨rejudge_taps _, rejudge_talk _, fun i q hq => ?_, h.retry, fun k => ?_, fun _ => ?_⟩
  · rw [mode, show tapAt (rateSet r s) i = tapAt (rejudge (rated r s)) i from rfl,
      tapAt_rejudge_rated]
    obtain ⟨o, ho⟩ : ∃ o, s.safety.outs[i]? = some o := by
      rw [outs_changeRate] at hq
      obtain ⟨o, ho, _⟩ := Option.map_eq_some_iff.1 hq
      exact ⟨o, ho⟩
    obtain ⟨orphan, lost⟩ := h.causes i o ho
    rw [hm] at orphan
    by_cases hx : tapBeyond r (tapAt s i)
    · rw [ratedOut_lost h hm ho hx] at hq
      cases hq
      rw [ratedTap_lost hx]
      exact ⟨orphan, rfl⟩
    · rw [ratedOut_kept h hm ho hx] at hq
      cases hq
      rw [ratedTap_kept hx, causes_rescale]
      refine ⟨orphan, ?_⟩
      simp only
      rw [sourceValid_held hm ((loopMode_rated r s).trans hm), ← tap_valid h]
      exact lost
  · rw [show (rateSet r s).loop = s.loop from rfl] at k
    rw [h.takeover k] at hm
    cases hm
  · refine h.copy ?_
    unfold modeLosesCopy
    rw [hm]

theorem fadeLen_eq (r : Rate) (x : Tap) : fadeLen r x = x.fade * (if r = .k48 then 48 else 96) := by
  cases r <;> rfl

theorem fadeLen_ne_zero (r : Rate) {x : Tap} (h : x.fade ≠ 0) : fadeLen r x ≠ 0 := by
  rw [fadeLen_eq]
  split <;> omega

theorem lengths_differ {r q : Rate} {x : Tap} (h : r ≠ q) (hx : x.fade ≠ 0) : fadeLen q x ≠ fadeLen r x := by
  rw [fadeLen_eq, fadeLen_eq]
  cases r <;> cases q <;> simp_all

/-- Settles O15: the state judged anew and rescaled, tap by tap and output by output. -/
theorem rateChanged : Obligations.RateChanged := by
  intro tag r s h hs hheld hl hr
  have hg := goodRequest_settled hs
  have hm : loopMode (goodRequest s) = .held := by rw [loopMode_goodRequest, loopMode_held hheld]
  have taps (i : Nat) : tapAt (goodRequest s) i = tapAt s i := by simp [tapAt]
  have judged : judgeSetRate r (goodRequest s) = (some .ok, rateSet r (goodRequest s)) := by
    rw [← changeRate_eq (by simpa using hr)]
    simp [judgeSetRate, heldOnly, hheld, locked_goodRequest, hl, ok]
  obtain ⟨start, portA, portB, loop, queue, snap, switches, gain, talk, lock, supervision, ctl, slots, safety, length⟩ :=
    parts_rateSet r (goodRequest s)
  obtain ⟨t, ht, reply, notices, same, _, pending⟩ :=
    request_changed h judged (rateSet_settled hg hm) ctl (by simp [start])
  obtain ⟨requestSafety, requestLength⟩ := goodRequest_safety s
  have mode : loopMode t = .held := loopMode_held (by simp [same.start, start, hheld])
  refine ⟨t, ht, reply, ?start, ?table, ?slots, ?cache, ?lanes, fun i x hx => ⟨fun lost => ?_, fun kept => ?_⟩,
    fun i o ho => ⟨fun lost => ?_, fun kept hf => ?_, fun kept hf => ?_⟩, ?safety, ?length, ?notices, ?portA, ?portB,
    ?loop, ?queue, ?snap, ?switches, ?gain, ?talk, ?lock, ?supervision, ?ops, ?ended, ?overflow, pending⟩
  case start => simp [same.start, start]
  case table => rw [same.slots, slots]; rfl
  case slots => simp [same.slots, slots]
  case cache => rw [same.lanes]; rfl
  case lanes =>
    rw [same.lanes, lanes_rateSet hg hm]
    simp
  case safety => rw [same.safety, safety, requestSafety]
  case length => rw [same.safety, length, requestLength]
  case notices => rw [same.safety]; exact notices
  case portA => simp [same.portA, portA]
  case portB => simp [same.portB, portB]
  case loop => simp [same.loop, loop]
  case queue => simp [same.queue, queue]
  case snap => simp [same.snap, snap]
  case switches => simp [same.switches, switches]
  case gain => simp [same.gain, gain]
  case talk => simp [same.talk, talk]
  case lock => simp [same.lock, lock]
  case supervision => rw [same.supervision, supervision]
  case ops => rw [same.ops, ctl, goodRequest_ops]
  case ended => rw [same.ended, ctl, goodRequest_ended]
  case overflow => rw [same.overflow, ctl, goodRequest_overflow]
  · rw [same.lanes, taps_rateSet (by simpa using hx), ratedTap_lost lost]
    rfl
  · have judgedAlike := sourceValid_held mode ((loopMode_rated r (goodRequest s)).trans hm) x.source
    rw [same.lanes, taps_rateSet (by simpa using hx), ratedTap_kept ((not_tapBeyond_iff _ _).2 kept), ← judgedAlike]
    rfl
  · rw [same.safety, ratedOut_lost hg hm ho (by rw [taps]; exact lost)]
  · rw [same.safety, ratedOut_kept hg hm ho (by rw [taps]; exact (not_tapBeyond_iff _ _).2 kept), taps,
      rescale_same (by simp [fadeLen, outCtx, hf])]
  · have rate : (goodRequest s).start.rate = s.start.rate := by simp
    rw [same.safety, ratedOut_kept hg hm ho (by rw [taps]; exact (not_tapBeyond_iff _ _).2 kept), taps, rate,
      rescale_rescaled (lengths_differ hr hf) (fadeLen_ne_zero _ hf) (fadeLen_ne_zero r hf)]
    rw [← fadeLen_eq, ← fadeLen_eq]
    rfl

end Sys2Proof.Machine
end

section
/-! PROOFS. READ_TABLE (R187): the run of entries a reply holds, and the entries of each table. -/

namespace Sys2Proof.Machine

open Sys2Proof

/-! ### The run of entries (R187) -/

/-- The bytes of a list of entries. -/
def entriesLength (l : List (Nat × TableEntry)) : Nat := (l.map fun e => (tableEntryBytes e.2).length).sum

/-- The run that fits takes the entries in order, and stops at the count or at the first that has no room. -/
theorem takeFit_spec (k room : Nat) (l : List (Nat × TableEntry)) :
    ∃ rest, l = takeFit k room l ++ rest ∧ (takeFit k room l).length ≤ k ∧
      entriesLength (takeFit k room l) ≤ room ∧
      ∀ e m, rest = e :: m → (takeFit k room l).length = k ∨
        room < entriesLength (takeFit k room l) + (tableEntryBytes e.2).length := by
  induction k generalizing room l with
  | zero => exact ⟨l, rfl, le_rfl, Nat.zero_le _, fun _ _ _ => .inl rfl⟩
  | succ k ih =>
    cases l with
    | nil => exact ⟨[], rfl, Nat.zero_le _, Nat.zero_le _, fun _ _ h => by cases h⟩
    | cons e l =>
      by_cases fits : (tableEntryBytes e.2).length ≤ room
      · obtain ⟨rest, split, count, bytes, stops⟩ := ih (room - (tableEntryBytes e.2).length) l
        have run : takeFit (k + 1) room (e :: l) = e :: takeFit k (room - (tableEntryBytes e.2).length) l :=
          if_pos fits
        rw [run]
        refine ⟨rest, by rw [List.cons_append, ← split], ?_, ?_, fun x m h => ?_⟩
        · rw [List.length_cons]; omega
        · simp only [entriesLength, List.map_cons, List.sum_cons] at bytes ⊢
          omega
        · have := stops x m h
          simp only [entriesLength, List.map_cons, List.sum_cons, List.length_cons] at this ⊢
          omega
      · have run : takeFit (k + 1) room (e :: l) = [] := if_neg fits
        rw [run]
        refine ⟨e :: l, rfl, Nat.zero_le _, Nat.zero_le _, fun x m h => .inr ?_⟩
        cases h
        simp only [entriesLength, List.map_nil, List.sum_nil]
        omega

/-- A list whose entries have room is taken whole. -/
theorem takeFit_whole {k room : Nat} {l : List (Nat × TableEntry)} (hk : l.length ≤ k) (hr : entriesLength l ≤ room) :
    takeFit k room l = l := by
  obtain ⟨rest, split, count, bytes, stops⟩ := takeFit_spec k room l
  cases rest with
  | nil => rw [← List.append_nil (takeFit k room l), ← split]
  | cons e m =>
    exfalso
    have size := congrArg List.length split
    have sum := congrArg entriesLength split
    rw [List.length_append, List.length_cons] at size
    simp only [entriesLength, List.map_append, List.sum_append, List.map_cons, List.sum_cons] at sum
    rcases stops e m rfl with h | h
    · omega
    · simp only [entriesLength] at h hr
      omega

theorem length_listBytes {α : Type} (f : α → List Byte) (l : List α) :
    (listBytes f l).length = 1 + (l.map fun x => (f x).length).sum := by
  simp [listBytes, n1, bytesOf, List.length_flatMap, Nat.add_comm]

/-- The bytes of a table's reply. -/
theorem length_tableData (run : List (Nat × TableEntry)) (next : Option Nat) :
    (dataBytes (.table (run.map (·.2)) next)).length =
      1 + entriesLength run + if next = none then 1 else 2 := by
  show (listBytes tableEntryBytes (run.map (·.2)) ++ namedBytes n1 next).length = _
  rw [List.length_append, length_listBytes, List.map_map]
  cases next <;> rfl

/-- What READ_TABLE returns of the entries from the cursor on. -/
theorem tableRun_spec (l : List (Nat × TableEntry)) :
    ∃ run rest next, tableRun l = (run.map (·.2), next) ∧ l = run ++ rest ∧ run.length ≤ 16 ∧
      (dataBytes (.table (run.map (·.2)) next)).length ≤ 250 ∧ (next = none ↔ rest = []) ∧
      (∀ e x, run.getLast? = some e → next = some x → x = e.1 + 1) ∧
      (∀ e m, rest = e :: m → run.length = 16 ∨
        250 < (dataBytes (.table ((run ++ [e]).map (·.2)) (if m = [] then none else some (e.1 + 1)))).length) ∧
      ((∀ e ∈ l, (tableEntryBytes e.2).length ≤ 247) → rest ≠ [] → run ≠ []) := by
  by_cases whole : (takeFit 16 248 l).length = l.length
  · obtain ⟨rest, split, count, bytes, -⟩ := takeFit_spec 16 248 l
    have all : takeFit 16 248 l = l := List.IsPrefix.eq_of_length ⟨rest, split.symm⟩ whole
    refine ⟨l, [], none, ?_, (List.append_nil l).symm, all ▸ count, ?_, by simp, by simp, by simp, by simp⟩
    · unfold tableRun
      simp only
      rw [if_pos whole, all, List.drop_length]
      rfl
    · rw [length_tableData, if_pos rfl]
      rw [all] at bytes
      omega
  · obtain ⟨rest, split, count, bytes, stops⟩ := takeFit_spec 16 247 l
    generalize hrun : takeFit 16 247 l = run at split count bytes stops
    have more : rest ≠ [] := by
      rintro rfl
      rw [List.append_nil] at split
      subst split
      exact whole (by rw [takeFit_whole count (by omega)])
    have left : l.drop run.length = rest := by rw [split, List.drop_left]
    refine ⟨run, rest, rest.head?.map fun _ => (run.getLast?.map (·.1 + 1)).getD 0, ?_, split, count, ?_, ?_, ?_, ?_,
      ?_⟩
    · unfold tableRun
      simp only
      rw [if_neg whole, hrun, left]
    · rw [length_tableData]
      split <;> omega
    · simp
    · intro e x he hx
      rw [he] at hx
      obtain ⟨_, _, rfl⟩ := Option.map_eq_some_iff.1 hx
      rfl
    · intro e m he
      subst he
      rw [length_tableData]
      by_cases count16 : run.length = 16
      · exact .inl count16
      have full := (stops e m rfl).resolve_left count16
      refine .inr ?_
      have sum : entriesLength (run ++ [e]) = entriesLength run + (tableEntryBytes e.2).length := by
        simp [entriesLength]
      cases m with
      | cons _ _ => simp only [reduceCtorEq, if_false]; omega
      | nil =>
        by_contra fits
        simp only [if_true] at fits
        have count : l.length ≤ 16 := by rw [split, List.length_append, List.length_singleton]; omega
        have bytes : entriesLength l ≤ 248 := by rw [split]; omega
        exact whole (by rw [takeFit_whole count bytes])
    · intro short _ empty
      subst empty
      obtain ⟨e, m, rfl⟩ := List.exists_cons_of_ne_nil more
      have fits := short e (by rw [split]; exact List.mem_cons_self)
      rcases stops e m rfl with h | h
      · cases h
      · simp only [entriesLength, List.map_nil, List.sum_nil] at h
        omega

/-! ### The length of an entry (11.7) -/

@[simp] theorem length_bytesOf (k n : Nat) : (bytesOf k n).length = k := by
  induction k with
  | zero => rfl
  | succ k ih => simp [bytesOf, ih]

@[simp] theorem length_n1 (n : Nat) : (n1 n).length = 1 := length_bytesOf 1 n
@[simp] theorem length_n2 (n : Nat) : (n2 n).length = 2 := length_bytesOf 2 n
@[simp] theorem length_n4 (n : Nat) : (n4 n).length = 4 := length_bytesOf 4 n
@[simp] theorem length_i1 (x : Int) : (i1 x).length = 1 := rfl
@[simp] theorem length_flagByte (b : Bool) : (flagByte b).length = 1 := rfl
@[simp] theorem length_setByte (l : List Bool) : (setByte l).length = 1 := length_n1 _

theorem length_optBytes_le {α : Type} {f : α → List Byte} {n : Nat} (h : ∀ x, (f x).length ≤ n) (o : Option α) :
    (optBytes f o).length ≤ n + 1 := by
  cases o with
  | none => exact Nat.le_add_left 1 n
  | some x => exact Nat.succ_le_succ (h x)

theorem length_namedBytes_le {α : Type} {f : α → List Byte} {n : Nat} (h : ∀ x, (f x).length ≤ n) (o : Option α) :
    (namedBytes f o).length ≤ n + 1 := by
  cases o with
  | none => exact Nat.le_add_left 1 n
  | some x => exact Nat.succ_le_succ (h x)

theorem length_listBytes_le {α : Type} {f : α → List Byte} {n k : Nat} (h : ∀ x, (f x).length ≤ n) {l : List α}
    (hk : l.length ≤ k) : (listBytes f l).length ≤ 1 + k * n := by
  rw [length_listBytes]
  have sum : (l.map fun x => (f x).length).sum ≤ (l.map fun x => (f x).length).length * n :=
    List.sum_le_card_nsmul _ _ fun y hy => by
      obtain ⟨x, _, rfl⟩ := List.mem_map.1 hy
      exact h x
  rw [List.length_map] at sum
  have := Nat.mul_le_mul_right n hk
  omega

theorem length_settingBytes_le (g : GainSetting) : (settingBytes g).length ≤ 5 := by
  have owner := length_optBytes_le (f := nodeByte) (n := 1) (fun _ => le_rfl) g.owner
  simp only [settingBytes, List.length_append, length_n1, length_flagByte]
  omega

theorem length_timeBytes_le (t : Timer) : (timeBytes t).length ≤ 3 := length_optBytes_le (n := 2) (fun _ => le_rfl) t
theorem length_timeOrNone_le (t : Timer) : (timeOrNone t).length ≤ 3 := length_namedBytes_le (n := 2) (fun _ => le_rfl) t
theorem length_latencyBytes_le (x : Latency) : (latencyBytes x).length ≤ 2 := by
  cases x <;> simp [latencyBytes]

theorem length_allot_le (n : Nat) (e : SlotEntry) (m : Option (Option (SlotChange × Serial) × Bool)) :
    (tableEntryBytes (.allot n e m)).length ≤ 247 := by
  have writer := length_optBytes_le (f := nodeByte) (n := 1) (fun _ => le_rfl) e.writer
  have input := length_optBytes_le (f := n1) (n := 1) (fun _ => le_rfl) e.input
  have serial := length_optBytes_le (f := fun x : Serial => n2 x.toNat) (n := 2) (fun _ => le_rfl) e.serial
  have flight (f : SlotChange × Serial) : (flightBytes f).length ≤ 7 := by
    have node := length_namedBytes_le (f := fun w : NodeId × Nat => nodeByte w.1) (n := 1) (fun _ => le_rfl) f.1.writer
    have slot := length_namedBytes_le (f := fun w : NodeId × Nat => n1 w.2) (n := 1) (fun _ => le_rfl) f.1.writer
    simp only [flightBytes, changeBytes, List.length_append, length_n1, length_n2]
    omega
  cases m with
  | none =>
    simp only [tableEntryBytes, entryBytes, List.length_append, length_n1, List.length_nil]
    omega
  | some m =>
    have inFlight := length_optBytes_le flight m.1
    simp only [tableEntryBytes, entryBytes, List.length_append, length_n1, length_flagByte]
    omega

theorem length_tap_le (n : Nat) (x : Tap) (p : Latency) {l : List (Bus × Latency)} (hl : l.length ≤ 4) (on : BusSet)
    (o : OutRec) (c : ReportedCause) (len : Nat) : (tableEntryBytes (.tap n x p l on o c len)).length ≤ 247 := by
  have source : (tapSourceBytes x.source).length ≤ 2 := by cases x.source <;> simp [tapSourceBytes]
  have safe : (safeModeBytes x.safe).length ≤ 2 := by cases x.safe <;> simp [safeModeBytes]
  have program := length_latencyBytes_le p
  have talk := length_listBytes_le (f := fun y : Bus × Latency => n1 (busCode y.1) ++ latencyBytes y.2) (n := 3)
    (fun y => by
      have := length_latencyBytes_le y.2
      simp only [List.length_append, length_n1]
      omega) hl
  have hold := length_timeOrNone_le o.hold
  simp only [tableEntryBytes, tapBytes, outBytes, busSetByte, causeSetByte, List.length_append, length_n1, length_n2,
    length_i1, length_flagByte, length_setByte] at talk ⊢
  omega

theorem length_gain_le (i : Nat) (e : GainEntry) : (tableEntryBytes (.gain i e)).length ≤ 247 := by
  have applied := length_settingBytes_le e.applied
  have flight := length_optBytes_le (f := fun f : GainFlight => settingBytes f.setting ++ n1 f.serial.toNat) (n := 6)
    (fun f => by
      have := length_settingBytes_le f.setting
      simp only [List.length_append, length_n1]
      omega) e.inFlight
  have mute := length_timeOrNone_le e.mute
  simp only [tableEntryBytes, List.length_append, length_n1]
  omega

theorem length_cache_le (n : Nat) (e : CacheEntry) : (tableEntryBytes (.cache n e)).length ≤ 247 := by
  have entry := length_namedBytes_le
    (f := fun x : GainSetting × GainSerial => settingBytes x.1 ++ n1 x.2.toNat) (n := 6)
    (fun x => by
      have := length_settingBytes_le x.1
      simp only [List.length_append, length_n1]
      omega) e
  simp only [tableEntryBytes, List.length_append, length_n1]
  omega

theorem length_key_le (i : Nat) (k : KeyRec) : (tableEntryBytes (.key i k)).length ≤ 247 := by
  have press := length_optBytes_le (f := fun x : PressTimer => n4 (x.since / Config.ticksPerMs)) (n := 4)
    (fun _ => le_rfl) k.press
  have answer := length_timeBytes_le k.answer
  have settle := length_optBytes_le (f := fun x => n1 (msLeft x)) (n := 1) (fun _ => le_rfl) k.settle
  simp only [tableEntryBytes, keyRecBytes, settleBytes, List.length_append, length_n1, length_n2, length_flagByte]
  split
  · simp only [List.length_append, length_flagByte]
    omega
  · simp only [List.length_nil]
    omega

theorem length_talk_le (b : Bus) (v : BusView) {r : Option BusRec} (h : ∀ x, r = some x → x.stack.length ≤ 8) :
    (tableEntryBytes (.talk b v r)).length ≤ 247 := by
  have serial := length_optBytes_le (f := fun x : Serial => n2 x.toNat) (n := 2) (fun _ => le_rfl) v.serial
  have talker := length_namedBytes_le
    (f := fun x : NodeId × Option KeyName => nodeByte x.1 ++ namedBytes (fun k => n1 (keyCode k)) x.2) (n := 3)
    (fun x => by
      have := length_namedBytes_le (f := fun k => n1 (keyCode k)) (n := 1) (fun _ => le_rfl) x.2
      simp only [nodeByte, List.length_append, length_n1]
      omega) v.talker
  cases r with
  | none =>
    simp only [tableEntryBytes, List.length_append, length_n1, List.length_nil]
    omega
  | some r =>
    have decided := length_optBytes_le (f := claimBytes) (n := 3) (fun _ => le_rfl) r.decided
    have stack := length_listBytes_le (f := claimBytes) (n := 3) (fun _ => le_rfl) (h r rfl)
    have inForce := length_optBytes_le (f := talkerBytes) (n := 2) (fun _ => le_rfl) r.inForce
    simp only [tableEntryBytes, busRecBytes, List.length_append, length_n1, length_n2, length_flagByte]
    omega

theorem length_map_le (e : MapEntry) : (tableEntryBytes (.map e)).length ≤ 247 := by
  have func := length_namedBytes_le (f := fun f => n1 (funcCode f)) (n := 1) (fun _ => le_rfl) e.func
  have role := length_namedBytes_le (f := fun r => n1 (roleCode r)) (n := 1) (fun _ => le_rfl) e.role
  have pos := length_optBytes_le (f := n1) (n := 1) (fun _ => le_rfl) e.pos
  have dir := length_optBytes_le (f := fun d => n1 (dirCode d)) (n := 1) (fun _ => le_rfl) e.dir
  simp only [tableEntryBytes, mapEntryBytes, nodeByte, List.length_append, length_n1]
  omega

theorem length_link_le (i : Nat) (e : LinkEntry) : (tableEntryBytes (.link i e)).length ≤ 247 := by
  have state := length_optBytes_le (f := fun s => n1 (linkStateCode s)) (n := 1) (fun _ => le_rfl) e.state
  have partner := length_optBytes_le (f := nodeByte) (n := 1) (fun _ => le_rfl) e.partner
  have group := length_optBytes_le (f := groupBytes) (n := 4) (fun _ => le_rfl) e.group
  have heal := length_timeBytes_le e.heal
  simp only [tableEntryBytes, List.length_append, length_n1, length_flagByte]
  omega

theorem length_operation_le (i : Nat) (o : Operation) : (tableEntryBytes (.operation i o)).length ≤ 247 := by
  have answer := length_timeBytes_le o.answer
  simp only [tableEntryBytes, List.length_append, length_n1, List.length_singleton]
  omega

theorem length_ended_le (i : Nat) (o : EndedOp) (h : ∀ l, o.result = .pairs l → l.length ≤ 4) :
    (tableEntryBytes (.ended i o)).length ≤ 247 := by
  have result : (resultBytes o.result).length ≤ 11 := by
    cases hr : o.result with
    | none => exact Nat.zero_le _
    | pairs l =>
      have := length_listBytes_le (f := pairResultBytes) (n := 2) (fun x => by cases x <;> simp [pairResultBytes]) (h l hr)
      exact this.trans (by decide)
    | gain n i => simp [resultBytes, nodeByte]
    | drill p w r =>
      have wrap := length_optBytes_le (f := fun x : FrameNo => n4 x.toNat) (n := 4) (fun _ => le_rfl) w
      have back := length_optBytes_le (f := fun x : FrameNo => n4 x.toNat) (n := 4) (fun _ => le_rfl) r
      simp only [resultBytes, framesOpt, List.length_append, length_n1]
      omega
    | go e => simp [resultBytes]
  simp only [tableEntryBytes, endedBytes, List.length_append, length_n1, List.length_singleton]
  omega

/-! ### The entries of each table -/

theorem mem_allotEntries (s : State) (i : Nat) (e : TableEntry) : (i, e) ∈ tableEntries s .allot ↔
    i < slotCount s.start.rate ∧ e = .allot i (entryAt s i) (if s.start.role = .master then
      some (s.slots.inFlight.getD i none, s.slots.unsettled.getD i false) else none) := by
  simp only [tableEntries, List.mem_map, List.mem_range, Prod.mk.injEq]
  constructor
  · rintro ⟨n, hn, rfl, rfl⟩
    exact ⟨hn, by simp [State.isMaster]⟩
  · rintro ⟨hn, rfl⟩
    exact ⟨i, hn, rfl, by simp [State.isMaster]⟩

theorem contains_heardOf (s : State) (x : Tap) (b : Bus) :
    (heardOf s x).contains b = (busHas x.listen b && heard s b) := by
  rw [Bool.eq_iff_iff, List.contains_iff_mem]
  unfold heardOf
  rw [List.mem_filter]
  exact and_iff_right (by cases b <;> decide)

theorem mem_tapEntries (s : State) (i : Nat) (e : TableEntry) : (i, e) ∈ tableEntries s .taps ↔
    i < 64 ∧ ∃ on, (∀ b, busHas on b = (busHas (tapAt s i).listen b && heard s b)) ∧
      e = .tap i (tapAt s i) (programLatency s (tapAt s i)) (talkLatencies s (tapAt s i)) on (outAt s i)
        (reportedCause (outAt s i).causes) ((tapAt s i).fade * if s.start.rate = .k48 then 48 else 96) := by
  simp only [tableEntries, List.mem_map, List.mem_range, Prod.mk.injEq]
  have set (n : Nat) (b : Bus) := contains_heardOf s (tapAt s n) b
  constructor
  · rintro ⟨n, hn, rfl, rfl⟩
    refine ⟨hn, _, fun b => ?_, by rw [← fadeLen_eq]; rfl⟩
    rw [← set]
    cases b <;> rfl
  · rintro ⟨hn, on, ho, rfl⟩
    refine ⟨i, hn, rfl, ?_⟩
    have on_eq : on = ⟨busHas on .tb1, busHas on .tb2, busHas on .tb3, busHas on .tb4⟩ := rfl
    rw [on_eq, ho, ho, ho, ho, ← set, ← set, ← set, ← set, ← fadeLen_eq]
    rfl

theorem mem_zipIdx_map {α : Type} {l : List α} {f : α → Nat → TableEntry} {i : Nat} {e : TableEntry} :
    (i, e) ∈ l.zipIdx.map (fun x => (x.2, f x.1 x.2)) ↔ ∃ x, l[i]? = some x ∧ e = f x i := by
  simp only [List.mem_map, Prod.exists, Prod.mk.injEq, List.mem_zipIdx_iff_getElem?]
  constructor
  · rintro ⟨x, n, hx, rfl, rfl⟩
    exact ⟨x, hx, rfl⟩
  · rintro ⟨x, hx, rfl⟩
    exact ⟨x, i, hx, rfl, rfl⟩

theorem mem_gainEntries (s : State) (i : Nat) (e : TableEntry) :
    (i, e) ∈ tableEntries s .gain ↔ ∃ g, s.gain.table[i]? = some g ∧ e = .gain i g :=
  mem_zipIdx_map (f := fun g i => .gain i g)

theorem mem_keyEntries (s : State) (i : Nat) (e : TableEntry) :
    (i, e) ∈ tableEntries s .keys ↔ ∃ k, s.talk.keys[i]? = some k ∧ e = .key i k :=
  mem_zipIdx_map (f := fun k i => .key i k)

theorem mem_cacheEntries (s : State) (i : Nat) (e : TableEntry) : (i, e) ∈ tableEntries s .gainCache ↔
    i < slotCount s.start.rate ∧ e = .cache i (cacheAt s i) := by
  simp only [tableEntries, List.mem_map, List.mem_range, Prod.mk.injEq]
  constructor
  · rintro ⟨n, hn, rfl, rfl⟩
    exact ⟨hn, rfl⟩
  · rintro ⟨hn, rfl⟩
    exact ⟨i, hn, rfl, rfl⟩

theorem mem_talkEntries (s : State) (i : Nat) (e : TableEntry) : (i, e) ∈ tableEntries s .talk ↔
    ∃ b, i = busIndex b + 1 ∧ e = .talk b (viewAt s b) (if s.loop.role = .origin then some (busAt s b) else none) := by
  have all (b : Bus) : b ∈ allBuses := by cases b <;> decide
  simp only [tableEntries, List.mem_map, Prod.mk.injEq]
  constructor
  · rintro ⟨b, -, rfl, rfl⟩
    exact ⟨b, rfl, by simp [State.isOrigin]⟩
  · rintro ⟨b, rfl, rfl⟩
    exact ⟨b, all b, rfl, by simp [State.isOrigin]⟩

theorem mem_mapEntries (s : State) (i : Nat) (e : TableEntry) : (i, e) ∈ tableEntries s .map ↔
    ∃ n : NodeId, ∃ m, i = n.val ∧ s.loop.copy.entries.find? (fun x => decide (x.id = n)) = some m ∧ e = .map m := by
  have all (n : NodeId) : n ∈ allNodes := by revert n; decide
  simp only [tableEntries, List.mem_filterMap, Option.map_eq_some_iff, Prod.mk.injEq]
  constructor
  · rintro ⟨n, -, m, hm, rfl, rfl⟩
    exact ⟨n, m, rfl, hm, rfl⟩
  · rintro ⟨n, m, rfl, hm, rfl⟩
    exact ⟨n, all n, m, hm, rfl, rfl⟩

theorem mem_zipIdx_filterMap {α : Type} {l : List (Option α)} {f : α → Nat → TableEntry} {i : Nat} {e : TableEntry} :
    (i, e) ∈ l.zipIdx.filterMap (fun x => x.1.map fun o => (x.2, f o x.2)) ↔
      ∃ x, l[i]? = some (some x) ∧ e = f x i := by
  simp only [List.mem_filterMap, Prod.exists, Option.map_eq_some_iff, Prod.mk.injEq, List.mem_zipIdx_iff_getElem?]
  constructor
  · rintro ⟨_, n, hx, x, rfl, rfl, rfl⟩
    exact ⟨x, hx, rfl⟩
  · rintro ⟨x, hx, rfl⟩
    exact ⟨some x, i, hx, x, rfl, rfl, rfl⟩

theorem mem_linkEntries (s : State) (i : Nat) (e : TableEntry) :
    (i, e) ∈ tableEntries s .links ↔ ∃ x, s.loop.links[i]? = some (some x) ∧ e = .link i x :=
  mem_zipIdx_filterMap (f := fun x i => .link i x)

theorem mem_operationEntries (s : State) (i : Nat) (e : TableEntry) : (i, e) ∈ tableEntries s .operations ↔
    (∃ o, s.ctl.ops[i]? = some (some o) ∧ e = .operation i o) ∨
      ∃ k o, s.ctl.ended[k]? = some o ∧ i = k + 8 ∧ e = .ended i o := by
  have running := mem_zipIdx_filterMap (l := s.ctl.ops) (f := fun o i => .operation i o) (i := i) (e := e)
  have ended : (i, e) ∈ (s.ctl.ended.zipIdx.map fun x => (x.2 + 8, TableEntry.ended (x.2 + 8) x.1)) ↔
      ∃ k o, s.ctl.ended[k]? = some o ∧ i = k + 8 ∧ e = .ended i o := by
    simp only [List.mem_map, Prod.exists, Prod.mk.injEq, List.mem_zipIdx_iff_getElem?]
    constructor
    · rintro ⟨o, k, ho, rfl, rfl⟩
      exact ⟨k, o, ho, rfl, rfl⟩
    · rintro ⟨k, o, ho, rfl, rfl⟩
      exact ⟨o, k, ho, rfl, rfl⟩
  rw [← running, ← ended, ← List.mem_append]
  rfl

/-! ### The order of the entries -/

/-- The numbers of a numbered list ascend. -/
theorem zipIdx_ascends {α : Type} (l : List α) : l.zipIdx.Pairwise fun x y => x.2 < y.2 := by
  rw [← List.pairwise_map (f := Prod.snd) (R := (· < ·)), List.zipIdx_map_snd]
  exact List.pairwise_lt_range'

theorem range_ascends (n : Nat) (f : Nat → TableEntry) :
    ((List.range n).map fun i => (i, f i)).Pairwise fun x y => x.1 < y.1 :=
  List.pairwise_map.2 List.pairwise_lt_range

theorem numbered_ascends {α : Type} (k : Nat) (l : List α) (f : α × Nat → TableEntry) :
    (l.zipIdx.map fun x => (x.2 + k, f x)).Pairwise fun x y => x.1 < y.1 :=
  List.pairwise_map.2 ((zipIdx_ascends l).imp fun h => Nat.add_lt_add_right h k)

theorem present_ascends {α : Type} (l : List (Option α)) (f : α → Nat → TableEntry) :
    (l.zipIdx.filterMap fun x => x.1.map fun o => (x.2, f o x.2)).Pairwise fun x y => x.1 < y.1 :=
  (zipIdx_ascends l).filterMap _ fun x y h a ha b hb => by
    obtain ⟨_, _, rfl⟩ := Option.map_eq_some_iff.1 ha
    obtain ⟨_, _, rfl⟩ := Option.map_eq_some_iff.1 hb
    exact h

theorem nodeEntries_ascend {α : Type} (f : NodeId → Option α) (g : α → TableEntry) :
    (allNodes.filterMap fun n => (f n).map fun x => (n.val, g x)).Pairwise fun x y => x.1 < y.1 := by
  have nodes : allNodes.Pairwise fun m n => m.val < n.val := by decide
  refine nodes.filterMap _ fun m n hmn a ha b hb => ?_
  obtain ⟨_, _, rfl⟩ := Option.map_eq_some_iff.1 ha
  obtain ⟨_, _, rfl⟩ := Option.map_eq_some_iff.1 hb
  exact hmn

/-- The entries of a table ascend by index (R187). -/
theorem tableEntries_ascend {s : State} (tb : TableName) (h : s.ctl.ops.length = 8) :
    (tableEntries s tb).Pairwise fun x y => x.1 < y.1 := by
  cases tb with
  | allot => exact range_ascends _ _
  | taps => exact range_ascends _ _
  | gainCache => exact range_ascends _ _
  | gain => exact numbered_ascends 0 _ _
  | keys => exact numbered_ascends 0 _ _
  | talk => simp [tableEntries, allBuses, busIndex]
  | links => exact present_ascends _ (fun e i => .link i e)
  | map => exact nodeEntries_ascend (fun n => s.loop.copy.entries.find? fun e => decide (e.id = n)) _
  | operations =>
    refine List.pairwise_append.2 ⟨present_ascends _ (fun o i => .operation i o), numbered_ascends 8 _ _, ?_⟩
    rintro ⟨i, e⟩ hi ⟨j, f⟩ hj
    obtain ⟨o, ho, -⟩ := (mem_zipIdx_filterMap (f := fun o i => .operation i o)).1 hi
    obtain ⟨⟨x, k⟩, -, hx⟩ := List.mem_map.1 hj
    cases hx
    have : i < s.ctl.ops.length := (List.getElem?_eq_some_iff.1 ho).1
    show i < k + 8
    omega

/-- With the lists that R137 and R80 bound, every entry has room in a reply. -/
theorem tableEntries_short {s : State} (tb : TableName) (hb : ∀ b, (busAt s b).stack.length ≤ 8)
    (ho : ∀ o ∈ s.ctl.ended, ∀ x, o.result = .pairs x → x.length ≤ 4) :
    ∀ e ∈ tableEntries s tb, (tableEntryBytes e.2).length ≤ 247 := by
  rintro ⟨i, e⟩ he
  cases tb with
  | allot => rw [((mem_allotEntries s i e).1 he).2]; exact length_allot_le _ _ _
  | taps =>
    obtain ⟨-, on, -, rfl⟩ := (mem_tapEntries s i e).1 he
    have few : (talkLatencies s (tapAt s i)).length ≤ 4 := by
      unfold talkLatencies heardOf
      rw [List.length_map]
      exact List.length_filter_le _ _
    exact length_tap_le _ _ _ few _ _ _ _
  | gain => obtain ⟨g, -, rfl⟩ := (mem_gainEntries s i e).1 he; exact length_gain_le _ _
  | gainCache => rw [((mem_cacheEntries s i e).1 he).2]; exact length_cache_le _ _
  | keys => obtain ⟨k, -, rfl⟩ := (mem_keyEntries s i e).1 he; exact length_key_le _ _
  | talk =>
    obtain ⟨b, -, rfl⟩ := (mem_talkEntries s i e).1 he
    refine length_talk_le _ _ fun x hx => ?_
    split at hx
    · cases hx; exact hb b
    · cases hx
  | map => obtain ⟨n, m, -, -, rfl⟩ := (mem_mapEntries s i e).1 he; exact length_map_le _
  | links => obtain ⟨x, -, rfl⟩ := (mem_linkEntries s i e).1 he; exact length_link_le _ _
  | operations =>
    rcases (mem_operationEntries s i e).1 he with ⟨o, -, rfl⟩ | ⟨k, o, hk, -, rfl⟩
    · exact length_operation_le _ _
    · exact length_ended_le _ _ (ho o (List.mem_of_getElem? hk))

/-! ### Latencies (R10, R108) -/

/-- The program latency of a tap, by its source. -/
theorem programLatency_cases (s : State) (x : Tap) :
    (x.source = .unused ∨ x.source = .talkOnly → programLatency s x = .absent) ∧
    (∀ i, x.source = .loc i → programLatency s x = .frames 0) ∧
    (∀ n, x.source = .slot n → x.valid = false → programLatency s x = .absent) ∧
    (∀ n, x.source = .slot n → x.valid = true → loopMode s = .isolated → programLatency s x = .frames 0) ∧
    (∀ n, x.source = .slot n → x.valid = true → loopMode s ≠ .isolated →
      (entryAt s n).writer = some s.start.id → programLatency s x = .frames 1) ∧
    (∀ n w, x.source = .slot n → x.valid = true → loopMode s ≠ .isolated →
      (entryAt s n).writer = some w → w ≠ s.start.id → programLatency s x = positionLatency s w) := by
  unfold programLatency
  refine ⟨fun h => ?_, fun i h => ?_, fun n h hv => ?_, fun n h hv hm => ?_, fun n h hv hm hw => ?_,
    fun n w h hv hm hw hn => ?_⟩
  · rcases h with h | h <;> rw [h]
  · rw [h]
  · rw [h]; simp [hv]
  · rw [h]; simp [hv, hm]
  · rw [h]; simp [hv, hm, hw]
  · rw [h]; simp [hv, hm, hw, hn]

theorem positionLatency_known {s : State} {w : NodeId} {p q : Nat} (hp : copyPos s w = some p)
    (hq : copyPos s s.start.id = some q) : positionLatency s w = .frames (if p < q then 0 else 1) := by
  unfold positionLatency
  rw [hp, hq]
  simp only
  split <;> rfl

theorem positionLatency_unknown {s : State} {w : NodeId} (h : copyPos s w = none ∨ copyPos s s.start.id = none) :
    positionLatency s w = .unknown := by
  unfold positionLatency
  rcases h with h | h
  · rw [h]
  · rw [h]
    cases copyPos s w <;> rfl

theorem mem_talkLatencies (s : State) (x : Tap) (b : Bus) :
    (∃ y, (b, y) ∈ talkLatencies s x) ↔ busHas x.listen b = true ∧ heard s b = true := by
  rw [← Bool.and_eq_true, ← contains_heardOf, List.contains_iff_mem]
  unfold talkLatencies
  simp

theorem talkLatency_position {s : State} {x : Tap} {b : Bus} {y : Latency} {w : NodeId}
    (h : (b, y) ∈ talkLatencies s x) (hw : (entryAt s (talkSlot s.start.rate b)).writer = some w) :
    y = positionLatency s w := by
  obtain ⟨c, -, hc⟩ := List.mem_map.1 h
  cases hc
  rw [hw]

/-! ### The request -/

theorem holdsTable_iff (s : State) (tb : TableName) : holdsTable s tb = false ↔
    (tb = .gain ∧ s.start.func = .desk) ∨ (tb = .links ∧ s.start.role ≠ .master) := by
  cases tb <;> cases hf : s.start.func <;> simp [holdsTable, State.isStage, State.isMaster, hf]

theorem readTable_answered (tag : Byte) (tb : TableName) (cursor : Nat) (s : State) (h : Taken s) (hs : Settled s) :
    (topIndex s.start.rate tb < cursor → ∃ t, exec (.readTable tag tb cursor) s = .next t ∧
      Answered tag (.refused .range) [] s (goodRequest s) t) ∧
    (cursor ≤ topIndex s.start.rate tb → holdsTable s tb = false → ∃ t, exec (.readTable tag tb cursor) s = .next t ∧
      Answered tag (.refused .state) [] s (goodRequest s) t) ∧
    (cursor ≤ topIndex s.start.rate tb → holdsTable s tb = true →
      ∃ t, exec (.readTable tag tb cursor) s = .next t ∧
        Answered tag (.data (.table
          (tableRun ((tableEntries (goodRequest s) tb).filter fun e => decide (cursor ≤ e.1))).1
          (tableRun ((tableEntries (goodRequest s) tb).filter fun e => decide (cursor ≤ e.1))).2))
          [] s (goodRequest s) t) := by
  have holds : holdsTable (goodRequest s) tb = holdsTable s tb := by
    cases tb <;> simp [holdsTable, State.isStage, State.isMaster]
  refine ⟨fun hc => ?_, fun hc hh => ?_, fun hc hh => ?_⟩
  · exact request_idle h hs (by simp [judgeReadTable, refuse, hc])
  · exact request_idle h hs (by simp [judgeReadTable, refuse, Nat.not_lt.2 hc, holds, hh])
  · exact request_idle h hs (by simp [judgeReadTable, data, Nat.not_lt.2 hc, holds, hh])

/-- Settles O10: the checks and the run of a read, the entries of each table, and the latencies of a tap. -/
theorem readTableAnswered : Obligations.ReadTableAnswered := by
  refine ⟨fun tag tb cursor s h hs => ?_, fun r => ⟨rfl, rfl, rfl, rfl, rfl, rfl, rfl, rfl, rfl⟩, fun s => ?_,
    fun s x => ?_⟩
  · obtain ⟨range, state, read⟩ := readTable_answered tag tb cursor s h hs
    rw [← holdsTable_iff]
    refine ⟨range, state, fun hc hh => ?_⟩
    obtain ⟨t, ht, answered⟩ := read hc (by simpa using hh)
    obtain ⟨run, rest, next, hrun, split, count, bytes, last, index, stops, reads⟩ :=
      tableRun_spec ((tableEntries (goodRequest s) tb).filter fun e => decide (cursor ≤ e.1))
    rw [hrun] at answered
    refine ⟨t, run, rest, next, ht, answered, split, count, bytes, last, index, stops, fun hb ho => reads ?_⟩
    intro e he
    refine tableEntries_short tb (s := goodRequest s) (by simpa [busAt] using hb) ?_ e (List.mem_of_mem_filter he)
    rw [goodRequest_ended]
    exact ho
  · exact ⟨fun tb => tableEntries_ascend tb, mem_allotEntries s, mem_tapEntries s, mem_gainEntries s,
      mem_cacheEntries s, mem_keyEntries s, mem_talkEntries s, mem_mapEntries s, mem_linkEntries s,
      mem_operationEntries s⟩
  · obtain ⟨absent, loc, invalid, isolated, own, other⟩ := programLatency_cases s x
    refine ⟨absent, loc, invalid, isolated, own, fun n w p q hx hv hm hw hn hp hq => ?_,
      fun n w hx hv hm hw hn hu => ?_, mem_talkLatencies s x, fun b y w p q hy hw hp hq => ?_⟩
    · rw [other n w hx hv hm hw hn, positionLatency_known hp hq]
    · rw [other n w hx hv hm hw hn, positionLatency_unknown hu]
    · rw [talkLatency_position hy hw, positionLatency_known hp hq]

end Sys2Proof.Machine
end

section
/-! PROOFS. The gain cache under changes of the slots and of the preamps (R79, R91, R121 to R123). -/

namespace Sys2Proof.Machine

open Sys2Proof

/-! ### States that differ in the cache -/

/-- The two states differ in the taps, the cache entries and the notices only. -/
def Cached (s t : State) : Prop :=
  ∃ taps cache l b d, cache.length = s.lanes.cache.length ∧
    t = { s with
      lanes := { s.lanes with taps := taps, cache := cache }
      ctl := { s.ctl with notices := l, lost := b, discarded := d } }

theorem Cached.refl (s : State) : Cached s s := ⟨_, _, _, _, _, rfl, rfl⟩

theorem Cached.trans {s t u : State} (h : Cached s t) (k : Cached t u) : Cached s u := by
  obtain ⟨_, c, _, _, _, hc, rfl⟩ := h
  obtain ⟨_, _, _, _, _, hd, rfl⟩ := k
  exact ⟨_, _, _, _, _, hd.trans hc, rfl⟩

theorem Cached.foldl {α : Type} {f : State → α → State} (h : ∀ s x, Cached s (f s x)) (l : List α) (s : State) :
    Cached s (l.foldl f s) := by
  induction l generalizing s with
  | nil => exact .refl s
  | cons x l ih => exact (h s x).trans (ih _)

theorem Cached.length {s t : State} (h : Cached s t) : t.lanes.cache.length = s.lanes.cache.length := by
  obtain ⟨_, _, _, _, _, hc, rfl⟩ := h
  exact hc

theorem Cached.blocks {s t : State} (h : Cached s t) : t.start = s.start ∧ t.loop = s.loop ∧ t.queue = s.queue ∧
    t.snap = s.snap ∧ t.switches = s.switches ∧ t.slots = s.slots ∧ t.gain = s.gain ∧ t.talk = s.talk := by
  obtain ⟨_, _, _, _, _, _, rfl⟩ := h
  exact ⟨rfl, rfl, rfl, rfl, rfl, rfl, rfl, rfl⟩

theorem notify_cached (n : Notice) (s : State) : Cached s (notify n s) := by
  obtain ⟨l, b, d, h⟩ := notify_eq n s
  exact ⟨_, _, l, b, d, rfl, h⟩

theorem noticeLimit_cached (i : Nat) (old new : Tap) (s : State) : Cached s (noticeLimit i old new s) := by
  unfold noticeLimit
  repeat' split
  · exact notify_cached _ _
  all_goals exact .refl s

theorem updateTaps_cached (f : Tap → Tap) (s : State) : Cached s (updateTaps f s) :=
  Cached.trans ⟨_, _, _, _, _, rfl, rfl⟩ (Cached.foldl (fun _ _ => noticeLimit_cached _ _ _ _) _
    { s with lanes := { s.lanes with taps := s.lanes.taps.map f } })

theorem setCache_cached (n : Nat) (e : CacheEntry) (s : State) : Cached s (setCache n e s) := by
  unfold setCache
  simp only
  split
  · exact .refl s
  · exact Cached.trans ⟨_, _, _, _, _, List.length_set, rfl⟩ (updateTaps_cached _ _)

theorem cacheUpdate_cached (w : NodeId) (i : Nat) (g : GainSetting) (n : GainSerial) (s : State) :
    Cached s (cacheUpdate w i g n s) := .foldl (fun _ _ => setCache_cached _ _ _) _ _

theorem refreshOwnCache_cached (s : State) : Cached s (refreshOwnCache s) := by
  unfold refreshOwnCache
  split
  · refine .foldl (fun a x => ?_) _ _
    dsimp only
    split
    · exact setCache_cached _ _ _
    · exact .refl a
  · exact .refl s

theorem refreshInputCache_cached (i : Nat) (s : State) : Cached s (refreshInputCache i s) := by
  unfold refreshInputCache
  split
  · exact .foldl (fun _ _ => setCache_cached _ _ _) _ _
  · exact .refl s

/-! ### One entry -/

theorem cache_updateTaps (f : Tap → Tap) (s : State) : (updateTaps f s).lanes.cache = s.lanes.cache :=
  List.foldlRecOn (motive := fun (a : State) => a.lanes.cache = s.lanes.cache) _ _ rfl fun a h x _ => by
    simp only [parts_noticeLimit]; exact h

/-- The entry set is the one that changes. -/
theorem cacheAt_setCache (n : Nat) (e : CacheEntry) (s : State) (i : Nat) :
    cacheAt (setCache n e s) i = if i = n ∧ n < s.lanes.cache.length then e else cacheAt s i := by
  unfold setCache
  simp only
  by_cases same : cacheAt s n = e
  · rw [if_pos same]
    split
    next k => rw [k.1, same]
    next => rfl
  · rw [if_neg same]
    unfold cacheAt
    rw [cache_updateTaps]
    simp only [List.getD_eq_getElem?_getD, List.getElem?_set]
    by_cases hi : i = n
    · subst hi
      by_cases hl : i < s.lanes.cache.length
      · simp [hl]
      · simp [hl]
    · simp [hi, Ne.symm hi]

theorem cacheAt_setCache_same {n : Nat} {e : CacheEntry} {s : State} (h : n < s.lanes.cache.length) :
    cacheAt (setCache n e s) n = e := by
  rw [cacheAt_setCache, if_pos ⟨rfl, h⟩]

theorem cacheAt_setCache_other {n i : Nat} {e : CacheEntry} {s : State} (h : i ≠ n) :
    cacheAt (setCache n e s) i = cacheAt s i := by
  rw [cacheAt_setCache, if_neg fun k => h k.1]

/-! ### One entry under a run of changes -/

/-- A run none of whose changes touches the entry. -/
theorem cacheAt_foldl_still {α : Type} {f : State → α → State} {l : List α} {s : State} {i : Nat}
    (hf : ∀ a x, Cached a (f a x)) (h : ∀ x ∈ l, ∀ a, Cached s a → cacheAt (f a x) i = cacheAt a i) :
    cacheAt (l.foldl f s) i = cacheAt s i := by
  suffices ∀ a, Cached s a → cacheAt (l.foldl f a) i = cacheAt a i from this s (.refl s)
  induction l with
  | nil => exact fun _ _ => rfl
  | cons x l ih =>
    intro a ha
    rw [List.foldl_cons, ih (fun y hy => h y (List.mem_cons_of_mem _ hy)) _ (ha.trans (hf a x)),
      h x List.mem_cons_self a ha]

/-- A run in which one change alone may touch the entry. -/
theorem cacheAt_foldl_one {α : Type} {f : State → α → State} {l : List α} {s : State} {i : Nat} {x : α}
    (hf : ∀ a x, Cached a (f a x)) (hl : l.Nodup) (hx : x ∈ l)
    (h : ∀ y ∈ l, y ≠ x → ∀ a, Cached s a → cacheAt (f a y) i = cacheAt a i) :
    ∃ a, Cached s a ∧ cacheAt a i = cacheAt s i ∧ cacheAt (l.foldl f s) i = cacheAt (f a x) i := by
  obtain ⟨before, after, rfl⟩ := List.append_of_mem hx
  obtain ⟨-, tail, apart⟩ := List.nodup_append.1 hl
  refine ⟨before.foldl f s, .foldl hf _ _, cacheAt_foldl_still hf fun y hy a ha => ?_, ?_⟩
  · exact h y (List.mem_append_left _ hy) (apart y hy x List.mem_cons_self) a ha
  · rw [List.foldl_append, List.foldl_cons]
    refine cacheAt_foldl_still hf fun y hy a ha => ?_
    have other : y ≠ x := fun e => (List.nodup_cons.1 tail).1 (e ▸ hy)
    exact h y (List.mem_append_right _ (List.mem_cons_of_mem _ hy)) other a
      (((Cached.foldl hf _ _).trans (hf _ x)).trans ha)

/-! ### The slots of a writer -/

theorem mem_slotsOf {s : State} {w : NodeId} {n k : Nat} : (n, k) ∈ slotsOf s w ↔
    ∃ e, s.slots.table[n]? = some e ∧ e.state = .assigned ∧ e.writer = some w ∧ e.input = some k := by
  unfold slotsOf
  simp only [List.mem_filterMap, Prod.exists, List.mem_zipIdx_iff_getElem?]
  constructor
  · rintro ⟨e, i, he, hk⟩
    split at hk
    next assigned =>
      obtain ⟨_, hi, ⟨⟩⟩ := Option.map_eq_some_iff.1 hk
      rw [Bool.and_eq_true, decide_eq_true_eq, decide_eq_true_eq] at assigned
      exact ⟨e, he, assigned.1, assigned.2, hi⟩
    next => cases hk
  · rintro ⟨e, he, ha, hw, hi⟩
    exact ⟨e, n, he, by simp [ha, hw, hi]⟩

theorem nodup_slotsOf (s : State) (w : NodeId) : (slotsOf s w).Nodup := by
  have ascends : (slotsOf s w).Pairwise fun x y => x.1 < y.1 :=
    (zipIdx_ascends s.slots.table).filterMap _ fun x y hxy a ha b hb => by
      have key {x : SlotEntry × Nat} {a : Nat × Nat}
          (h : (if (decide (x.1.state = .assigned) && decide (x.1.writer = some w)) = true then
            x.1.input.map fun inp => (x.2, inp) else none) = some a) : a.1 = x.2 := by
        split at h
        · obtain ⟨_, _, rfl⟩ := Option.map_eq_some_iff.1 h
          rfl
        · cases h
      rw [key ha, key hb]
      exact hxy
  exact ascends.imp fun h e => by rw [e] at h; exact lt_irrefl _ h

/-! ### The rules of the cache -/

/-- Slots told of a change become unknown (R79, R91). -/
theorem cacheAt_told {told : List Nat} {s : State} {i : Nat} :
    cacheAt (told.foldl (fun a n => setCache n none a) s) i =
      if i ∈ told ∧ i < s.lanes.cache.length then none else cacheAt s i := by
  induction told generalizing s with
  | nil => simp
  | cons n told ih =>
    rw [List.foldl_cons, ih, (setCache_cached n none s).length, cacheAt_setCache]
    simp only [List.mem_cons]
    by_cases hi : i = n
    · subst hi
      by_cases hl : i < s.lanes.cache.length <;> simp [hl]
    · simp [hi]

/-- The step of a STAGE node's own entries. -/
def ownStep (a : State) (x : Nat × Nat) : State :=
  match a.gain.table[x.2]? with
  | some e => setCache x.1 (some (e.applied, e.serial)) a
  | none => a

theorem refreshOwnCache_eq (s : State) : refreshOwnCache s =
    if s.isStage && copyCurrent s then (slotsOf s s.start.id).foldl ownStep s else s := rfl

theorem ownStep_cached (a : State) (x : Nat × Nat) : Cached a (ownStep a x) := by
  unfold ownStep
  split
  · exact setCache_cached _ _ _
  · exact .refl a

theorem cacheAt_ownStep_other {a : State} {x : Nat × Nat} {i : Nat} (h : i ≠ x.1) :
    cacheAt (ownStep a x) i = cacheAt a i := by
  unfold ownStep
  split
  · exact cacheAt_setCache_other h
  · rfl

/-- A STAGE node with a current table takes the entry of a slot of its own from its gain table (R121). -/
theorem cacheAt_refreshOwnCache_mine {s : State} {i k : Nat} {e : GainEntry} (hf : s.start.func = .stage)
    (hc : copyCurrent s = true) (hs : (i, k) ∈ slotsOf s s.start.id) (he : s.gain.table[k]? = some e)
    (hl : i < s.lanes.cache.length) : cacheAt (refreshOwnCache s) i = some (e.applied, e.serial) := by
  rw [refreshOwnCache_eq, if_pos (by simp [State.isStage, hf, hc])]
  have others : ∀ y ∈ slotsOf s s.start.id, y ≠ (i, k) → ∀ a, Cached s a →
      cacheAt (ownStep a y) i = cacheAt a i := by
    rintro ⟨n, m⟩ hn hne a -
    refine cacheAt_ownStep_other ?_
    rintro rfl
    obtain ⟨x, hx, -, -, hk⟩ := mem_slotsOf.1 hs
    obtain ⟨y, hy, -, -, hm⟩ := mem_slotsOf.1 hn
    rw [hx] at hy
    cases hy
    rw [hk] at hm
    cases hm
    exact hne rfl
  obtain ⟨a, ha, -, result⟩ := cacheAt_foldl_one ownStep_cached (nodup_slotsOf s s.start.id) hs others
  obtain ⟨-, -, -, -, -, -, gain, -⟩ := ha.blocks
  rw [result]
  unfold ownStep
  simp only [gain, he]
  exact cacheAt_setCache_same (by rw [ha.length]; exact hl)

/-- Other entries stand (R121). -/
theorem cacheAt_refreshOwnCache_other {s : State} {i : Nat}
    (h : s.start.func = .stage → ∀ k, (i, k) ∉ slotsOf s s.start.id) :
    cacheAt (refreshOwnCache s) i = cacheAt s i := by
  rw [refreshOwnCache_eq]
  split
  next stage =>
    rw [Bool.and_eq_true] at stage
    refine cacheAt_foldl_still ownStep_cached ?_
    rintro ⟨n, m⟩ hn a -
    exact cacheAt_ownStep_other fun e => h ((isStage_iff s).1 stage.1) m (e ▸ hn)
  next => rfl

theorem cacheTakes_iff (e : CacheEntry) (n : GainSerial) :
    cacheTakes e n = true ↔ ∀ g r, e = some (g, r) → newer8 n r = true := by
  rcases e with _ | ⟨g, r⟩
  · simp [cacheTakes]
  · simp [cacheTakes]

theorem mem_cacheTargets {s : State} {w : NodeId} {k : Nat} {n : GainSerial} {m : Nat} :
    m ∈ cacheTargets s w k n ↔
      copyCurrent s = true ∧ (m, k) ∈ slotsOf s w ∧ cacheTakes (cacheAt s m) n = true := by
  unfold cacheTargets
  split
  next current =>
    simp [current]
  next current =>
    simp [current]

/-- An update sets the entries of its targets (R122, R123). -/
theorem cacheAt_cacheUpdate (w : NodeId) (k : Nat) (g : GainSetting) (n : GainSerial) (s : State) (m : Nat) :
    cacheAt (cacheUpdate w k g n s) m =
      if m ∈ cacheTargets s w k n ∧ m < s.lanes.cache.length then some (g, n) else cacheAt s m := by
  unfold cacheUpdate
  generalize cacheTargets s w k n = l
  induction l generalizing s with
  | nil => simp
  | cons x l ih =>
    rw [List.foldl_cons, ih, (setCache_cached x _ s).length, cacheAt_setCache]
    simp only [List.mem_cons]
    by_cases hi : m = x
    · subst hi
      by_cases hl : m < s.lanes.cache.length <;> simp [hl]
    · simp [hi]

theorem cacheUpdate_none {w : NodeId} {k : Nat} {n : GainSerial} {s : State} (h : cacheTargets s w k n = [])
    (g : GainSetting) : cacheUpdate w k g n s = s := by
  unfold cacheUpdate
  rw [h]
  rfl

end Sys2Proof.Machine
end

section
/-! PROOFS. Pending entries applied: an ALLOT, an allotment snapshot, a GAIN_NOTE of another node (R79, R86, R91,
R122). -/

namespace Sys2Proof.Machine

open Sys2Proof

/-! ### An ALLOT (R79, R86, R121) -/

theorem mem_differing {old new : List SlotEntry} {i : Nat} : i ∈ differing old new ↔
    ∃ a b, old[i]? = some a ∧ new[i]? = some b ∧ (a.writer ≠ b.writer ∨ a.input ≠ b.input) := by
  unfold differing
  simp only [List.mem_map, List.mem_filter, Prod.exists, List.mem_zipIdx_iff_getElem?, List.getElem?_zip_eq_some]
  constructor
  · rintro ⟨a, b, n, ⟨⟨ha, hb⟩, hd⟩, rfl⟩
    exact ⟨a, b, ha, hb, by simpa [writerDiffers] using hd⟩
  · rintro ⟨a, b, ha, hb, hd⟩
    exact ⟨a, b, i, ⟨⟨ha, hb⟩, by simpa [writerDiffers] using hd⟩, rfl⟩

/-- The slot is one of a STAGE node's own (R121). -/
def isMine (s : State) (b : SlotEntry) : Prop :=
  s.start.func = .stage ∧ b.state = .assigned ∧ b.writer = some s.start.id

theorem replaceTable_cached (table : List SlotEntry) (told : List Nat) (s : State) :
    Cached { s with slots := { s.slots with table := table } } (replaceTable table told s) :=
  (Cached.foldl (fun _ _ => setCache_cached _ _ _) _ _).trans (refreshOwnCache_cached _)

/-- The cache after a new table of the slots: told slots unknown, own slots from the gain table. -/
theorem cacheAt_replaceTable {table : List SlotEntry} {told : List Nat} {s : State} {i : Nat} {b : SlotEntry}
    (hc : copyCurrent s = true) (hb : table[i]? = some b) (hl : i < s.lanes.cache.length) :
    (¬ isMine s b → i ∈ told → cacheAt (replaceTable table told s) i = none) ∧
    (¬ isMine s b → i ∉ told → cacheAt (replaceTable table told s) i = cacheAt s i) ∧
    (∀ k e, isMine s b → b.input = some k → s.gain.table[k]? = some e →
      cacheAt (replaceTable table told s) i = some (e.applied, e.serial)) := by
  have toldCached : Cached { s with slots := { s.slots with table := table } }
      (told.foldl (fun a n => setCache n none a) { s with slots := { s.slots with table := table } }) :=
    .foldl (fun _ _ => setCache_cached _ _ _) _ _
  obtain ⟨start, -, -, -, -, slots, gain, -⟩ := toldCached.blocks
  have length := toldCached.length
  have entry := cacheAt_told (told := told) (s := { s with slots := { s.slots with table := table } }) (i := i)
  have other (h : ¬ isMine s b) : cacheAt (replaceTable table told s) i =
      cacheAt (told.foldl (fun a n => setCache n none a) { s with slots := { s.slots with table := table } }) i := by
    refine cacheAt_refreshOwnCache_other fun func k own => h ?_
    obtain ⟨e, he, ha, hw, -⟩ := mem_slotsOf.1 own
    rw [slots] at he
    rw [start] at hw func
    cases hb.symm.trans he
    exact ⟨func, ha, hw⟩
  refine ⟨fun h hi => ?_, fun h hi => ?_, fun k e h hk he => ?_⟩
  · rw [other h, entry, if_pos ⟨hi, hl⟩]
  · rw [other h, entry, if_neg fun x => hi x.1]
    rfl
  · obtain ⟨func, assigned, writer⟩ := h
    refine cacheAt_refreshOwnCache_mine (by rw [start]; exact func) ?_ (mem_slotsOf.2 ⟨b, ?_, assigned, ?_, hk⟩) ?_ ?_
    · unfold copyCurrent State.isMaster at hc ⊢
      rw [start, slots]
      exact hc
    · rw [slots]; exact hb
    · rw [start]; exact writer
    · rw [gain]; exact he
    · rw [length]; exact hl

/-- The table an ALLOT makes (R79). -/
def allotted (serial : Serial) (ch : List SlotChange) (table : List SlotEntry) : List SlotEntry :=
  ch.foldl (fun l c => l.set c.slot (changedEntry serial c)) table

/-- What the changes of an ALLOT leave, and their table. -/
theorem makeChanges_leaves (serial : Serial) (ch : List SlotChange) (s : State) :
    (makeChanges serial ch s).slots = { s.slots with table := allotted serial ch s.slots.table } ∧
      (makeChanges serial ch s).start = s.start ∧ (makeChanges serial ch s).gain = s.gain ∧
      (makeChanges serial ch s).loop = s.loop ∧ (makeChanges serial ch s).queue = s.queue ∧
      (makeChanges serial ch s).switches = s.switches := by
  obtain ⟨start, loop, queue, -, switches, slots, gain, -⟩ :=
    (replaceTable_cached (allotted serial ch s.slots.table)
      (differing s.slots.table (allotted serial ch s.slots.table)) s).blocks
  unfold makeChanges
  simp only
  split
  · simp only [parts_rejudge, parts_needGainSnap]
    exact ⟨slots, start, gain, loop, queue, switches⟩
  · simp only [parts_rejudge]
    exact ⟨slots, start, gain, loop, queue, switches⟩

theorem cacheAt_rejudge (s : State) (i : Nat) : cacheAt (rejudge s) i = cacheAt s i := rfl

theorem cacheAt_needGainSnap (s : State) (i : Nat) : cacheAt (needGainSnap s) i = cacheAt s i := by
  simp [cacheAt]

theorem cacheAt_makeChanges (serial : Serial) (ch : List SlotChange) (s : State) (i : Nat) :
    cacheAt (makeChanges serial ch s) i = cacheAt (replaceTable (allotted serial ch s.slots.table)
      (differing s.slots.table (allotted serial ch s.slots.table)) s) i := by
  unfold makeChanges
  simp only
  rw [cacheAt_rejudge]
  split
  · rw [cacheAt_needGainSnap]
    rfl
  · rfl

/-- The cache after an ALLOT at a node with a current table. -/
theorem cacheAt_allotted {serial : Serial} {ch : List SlotChange} {s : State} (hc : copyCurrent s = true)
    {i : Nat} {a b : SlotEntry} (ha : s.slots.table[i]? = some a)
    (hb : (allotted serial ch s.slots.table)[i]? = some b) (hl : i < s.lanes.cache.length) :
    (¬ isMine s b → a.writer ≠ b.writer ∨ a.input ≠ b.input → cacheAt (makeChanges serial ch s) i = none) ∧
    (¬ isMine s b → a.writer = b.writer → a.input = b.input →
      cacheAt (makeChanges serial ch s) i = cacheAt s i) ∧
    (∀ k e, isMine s b → b.input = some k → s.gain.table[k]? = some e →
      cacheAt (makeChanges serial ch s) i = some (e.applied, e.serial)) := by
  obtain ⟨unknown, still, mine⟩ := cacheAt_replaceTable (told := differing s.slots.table
    (allotted serial ch s.slots.table)) hc hb hl
  rw [cacheAt_makeChanges]
  refine ⟨fun h hd => unknown h (mem_differing.2 ⟨a, b, ha, hb, hd⟩), fun h hw hi => still h fun hd => ?_, mine⟩
  obtain ⟨x, y, hx, hy, hd⟩ := mem_differing.1 hd
  cases ha.symm.trans hx
  cases hb.symm.trans hy
  exact hd.elim (absurd hw) (absurd hi)

/-- A value set at several places of a list. -/
theorem getElem?_foldl_set {α : Type} (l : List α) (ns : List Nat) (v : α) (i : Nat) :
    (ns.foldl (fun l n => l.set n v) l)[i]? = if i ∈ ns then l[i]?.map fun _ => v else l[i]? := by
  induction ns generalizing l with
  | nil => simp
  | cons n ns ih =>
    rw [List.foldl_cons, ih, List.getElem?_set]
    simp only [List.mem_cons]
    by_cases hi : i = n
    · subst hi
      by_cases hl : i < l.length
      · simp [hl]
      · simp [hl]
    · simp [hi, Ne.symm hi]

theorem length_foldl_set {α : Type} (l : List α) (ns : List Nat) (v : α) :
    (ns.foldl (fun l n => l.set n v) l).length = l.length := by
  induction ns generalizing l with
  | nil => rfl
  | cons n ns ih => rw [List.foldl_cons, ih, List.length_set]

theorem mem_freedSlots {ch : List SlotChange} {i : Nat} :
    i ∈ freedSlots ch ↔ ∃ c ∈ ch, c.slot = i ∧ c.writer = none := by
  unfold freedSlots
  rw [List.mem_filterMap]
  constructor
  · rintro ⟨c, hc, hi⟩
    split at hi
    next free => cases hi; exact ⟨c, hc, rfl, Option.isNone_iff_eq_none.1 free⟩
    next => cases hi
  · rintro ⟨c, hc, rfl, hw⟩
    exact ⟨c, hc, by simp [hw]⟩

/-- The unsettled marks an ALLOT of the master leaves (R86). -/
def marksAfter (ch : List SlotChange) (confirmed : Bool) (marks : List Bool) : List Bool :=
  (freedSlots ch).foldl (fun l n => l.set n !confirmed) ((ch.map (·.slot)).foldl (fun l n => l.set n false) marks)

theorem marksAfter_spec (ch : List SlotChange) (confirmed : Bool) {marks : List Bool} {i : Nat} {old : Bool}
    (h : marks[i]? = some old) :
    ((∃ c ∈ ch, c.slot = i ∧ c.writer = none) → (marksAfter ch confirmed marks)[i]? = some (!confirmed)) ∧
    ((∃ c ∈ ch, c.slot = i) → (∀ c ∈ ch, c.slot = i → c.writer ≠ none) →
      (marksAfter ch confirmed marks)[i]? = some false) ∧
    ((∀ c ∈ ch, c.slot ≠ i) → (marksAfter ch confirmed marks)[i]? = some old) := by
  have named : i ∈ ch.map (·.slot) ↔ ∃ c ∈ ch, c.slot = i := List.mem_map
  unfold marksAfter
  rw [getElem?_foldl_set, getElem?_foldl_set, h]
  refine ⟨fun freed => ?_, fun some_ held => ?_, fun other => ?_⟩
  · rw [if_pos (mem_freedSlots.2 freed)]
    split <;> rfl
  · rw [if_neg, if_pos (named.2 some_)]
    · rfl
    · rintro freed
      obtain ⟨c, hc, hi, hw⟩ := mem_freedSlots.1 freed
      exact held c hc hi hw
  · rw [if_neg, if_neg]
    · rintro k
      obtain ⟨c, hc, hi⟩ := named.1 k
      exact other c hc hi
    · rintro freed
      obtain ⟨c, hc, hi, -⟩ := mem_freedSlots.1 freed
      exact other c hc hi

/-- An ALLOT at the master (R86). -/
theorem applyAllot_master {s : State} (h : s.start.role = .master) (serial : Serial) (ch : List SlotChange)
    (confirmed : Bool) : applyAllot serial ch confirmed s =
      { makeChanges serial ch s with slots := { s.slots with
        table := allotted serial ch s.slots.table
        applied := serial
        unsettled := marksAfter ch confirmed s.slots.unsettled
        inFlight := ch.foldl (fun l c => l.set c.slot none) s.slots.inFlight } } := by
  obtain ⟨slots, -⟩ := makeChanges_leaves serial ch s
  unfold applyAllot markUnsettled
  rw [if_pos ((isMaster_iff s).2 h)]
  simp only [slots]
  rfl

/-- An ALLOT at another node whose copy it continues (R79). -/
theorem applyAllot_next {s : State} (h : s.start.role ≠ .master) (hc : s.slots.current = true) {serial : Serial}
    (hn : ∀ r, s.slots.lastApplied = some r → serial = r + 1) (ch : List SlotChange) (confirmed : Bool) :
    applyAllot serial ch confirmed s = { makeChanges serial ch s with slots := { s.slots with
      table := allotted serial ch s.slots.table, lastApplied := some serial } } := by
  obtain ⟨slots, -⟩ := makeChanges_leaves serial ch s
  unfold applyAllot
  rw [if_neg (mt (isMaster_iff s).1 h)]
  simp only
  rw [if_pos]
  · rw [slots]
  · rw [Bool.and_eq_true]
    refine ⟨hc, ?_⟩
    split
    · rfl
    next r hr => rw [hn r hr, beq_self_eq_true]

/-- An ALLOT at a node whose copy it does not continue (R79). -/
theorem applyAllot_passed {s : State} (h : s.start.role ≠ .master) {serial : Serial}
    (hn : ¬ (s.slots.current = true ∧ ∀ r, s.slots.lastApplied = some r → serial = r + 1)) (ch : List SlotChange)
    (confirmed : Bool) : applyAllot serial ch confirmed s = s := by
  unfold applyAllot
  rw [if_neg (mt (isMaster_iff s).1 h)]
  simp only
  rw [if_neg]
  rw [Bool.and_eq_true]
  rintro ⟨hc, sequence⟩
  refine hn ⟨hc, fun r hr => ?_⟩
  rw [hr] at sequence
  exact eq_of_beq sequence

/-- What the application of an ALLOT leaves beside the slots and the cache. -/
theorem allot_applied {x : PendingSwitch} {serial : Serial} {ch : List SlotChange} {s : State}
    (h : x.item = .msg (.allot serial ch)) : applySwitch x s =
      if s.isMaster && x.sender ≠ s.start.id then s else applyAllot serial ch x.confirmed s := by
  unfold applySwitch
  rw [h]

/-- An ALLOT applied: at the master that sent it, and at a node whose copy it continues. -/
theorem allotApplied (x : PendingSwitch) (serial : Serial) (ch : List SlotChange) (s : State)
    (h : x.item = .msg (.allot serial ch)) :
    let own : Prop := s.start.role = .master ∧ x.sender = s.start.id
    let next : Prop := s.start.role ≠ .master ∧ s.slots.current = true ∧
      ∀ r, s.slots.lastApplied = some r → serial = r + 1
    (own → applySwitch x s = { makeChanges serial ch s with slots := { s.slots with
        table := allotted serial ch s.slots.table
        applied := serial
        unsettled := marksAfter ch x.confirmed s.slots.unsettled
        inFlight := ch.foldl (fun l c => l.set c.slot none) s.slots.inFlight } }) ∧
    (next → applySwitch x s = { makeChanges serial ch s with slots := { s.slots with
        table := allotted serial ch s.slots.table, lastApplied := some serial } }) ∧
    (¬ own → ¬ next → applySwitch x s = s) := by
  intro own next
  rw [allot_applied h]
  refine ⟨fun ho => ?_, fun hn => ?_, fun ho hn => ?_⟩
  · obtain ⟨master, sender⟩ := ho
    rw [if_neg (by simp [sender]), applyAllot_master master]
  · obtain ⟨member, current, sequence⟩ := hn
    rw [if_neg (by simp [State.isMaster, member]), applyAllot_next member current sequence]
  · split
    · rfl
    next passed =>
      have member : s.start.role ≠ .master := fun master =>
        passed (by simpa [State.isMaster, master] using fun e => ho ⟨master, e⟩)
      exact applyAllot_passed member (fun k => hn ⟨member, k⟩) ch x.confirmed

/-! ### An allotment snapshot (R86, R91) -/

theorem snapshot_applied {x : PendingSwitch} {n : Serial} {s : State} (h : x.item = .snapshot n) :
    applySwitch x s = applySnapshot x.frame s := by
  unfold applySwitch
  rw [h]

theorem applySnapshot_master {s : State} {f : FrameNo} (h : s.start.role = .master)
    (hr : reached s.loop.count f = true) :
    (applySnapshot f s).slots = { s.slots with unsettled := s.slots.unsettled.map fun _ => false } := by
  unfold applySnapshot
  rw [if_pos ((isMaster_iff s).2 h), if_pos hr]
  simp

theorem collectionFull_iff (c : Collection) : collectionFull c = true ↔ ∀ y ∈ c.pieces, y ≠ none := by
  unfold collectionFull
  simp only [List.all_eq_true, Option.isSome_iff_ne_none]

/-- A node whose copy is current waits for no retry. -/
theorem slots_retryCheck_current {s : State} (h : s.slots.current = true) :
    (retryCheck s).slots = { s.slots with retry := none } := by
  unfold retryCheck
  rw [if_neg (by simp [retryCond, h])]

theorem slots_snapViews (old new : List SlotEntry) (s : State) : (snapViews old new s).slots = s.slots := rfl

theorem applySnapshot_whole {s : State} {f : FrameNo} {c : Collection} (h : s.start.role ≠ .master)
    (hr : reached s.loop.count f = true) (hc : s.slots.collection = some c)
    (hw : (∀ y ∈ c.pieces, y ≠ none) ∧ writesCells (loopMode s) = true) :
    (applySnapshot f s).slots = { s.slots with
      table := (c.pieces.filterMap id).flatten
      current := true, lastApplied := some c.serial, collection := none, retry := none } := by
  unfold applySnapshot
  rw [if_neg (mt (isMaster_iff s).1 h), hc]
  simp only
  rw [if_pos (by rw [hr, (collectionFull_iff c).2 hw.1, hw.2]; rfl)]
  simp only [parts_goDone, parts_rejudge]
  have slots (told : List Nat) (u : State) := (replaceTable_cached (c.pieces.filterMap id).flatten told u).blocks.2.2.2.2.2.1
  rw [slots_retryCheck_current]
  · simp only [parts_needGainSnap, slots_snapViews, slots]
  · simp only [parts_needGainSnap, slots_snapViews, slots]

theorem applySnapshot_short {s : State} {f : FrameNo} {c : Collection} (h : s.start.role ≠ .master)
    (hc : s.slots.collection = some c)
    (hw : ¬ ((∀ y ∈ c.pieces, y ≠ none) ∧ writesCells (loopMode s) = true)) :
    applySnapshot f s = if s.slots.current then { s with slots := { s.slots with collection := none } }
      else retryRestart (pushSnapReq { s with slots := { s.slots with collection := none } }) := by
  unfold applySnapshot
  rw [if_neg (mt (isMaster_iff s).1 h), hc]
  simp only
  rw [if_neg]
  intro k
  rw [Bool.and_eq_true, Bool.and_eq_true, collectionFull_iff] at k
  exact hw ⟨k.1.2, k.2⟩

/-- A SNAP_REQ pushed moves the queue and the notices only. -/
theorem slots_pushSnapReq (s : State) : (pushSnapReq s).slots = s.slots := by
  unfold pushSnapReq pushInternal
  repeat' split
  all_goals simp

/-- The SNAP_REQ of a node that waits for a snapshot (R92). -/
theorem queue_pushSnapReq {s : State} (h : s.start.role ≠ .master) :
    ((∀ i ∈ s.queue.items, i.sends = 0 → ∀ k, i.body ≠ .snapReq k) → s.queue.items.length < 16 →
      (pushSnapReq s).queue = queued .origin (.snapReq s.slots.lastApplied) none .loc s) ∧
    ((∃ i ∈ s.queue.items, i.sends = 0 ∧ ∃ k, i.body = .snapReq k) → (pushSnapReq s).queue = s.queue) := by
  have member : s.isMaster = false := by simpa [State.isMaster] using h
  obtain ⟨waits, free⟩ := pushSnapReq_eq member
  refine ⟨fun none_ room => ?_, fun some_ => by rw [waits some_]⟩
  rw [free (fun ⟨i, hi, hz, k, hk⟩ => none_ i hi hz k hk), pushInternal_room _ _ room]

theorem slots_retryRestart (s : State) : (retryRestart s).slots =
    { s.slots with retry := s.slots.retry.map fun _ => 1000 * 96 } := rfl

/-- An allotment snapshot applied. -/
theorem snapshotApplied (x : PendingSwitch) (n : Serial) (s : State) (hx : x.item = .snapshot n)
    (hr : reached s.loop.count x.frame = true) :
     let t := applySwitch x s
     (s.start.role = .master →
       t.slots = { s.slots with unsettled := s.slots.unsettled.map fun _ => false }) ∧
     (∀ c, s.start.role ≠ .master → s.slots.collection = some c →
       let whole : Prop := (∀ y ∈ c.pieces, y ≠ none) ∧ writesCells (loopMode s) = true
       (whole → t.slots = { s.slots with
         table := (c.pieces.filterMap id).flatten
         current := true, lastApplied := some c.serial, collection := none, retry := none }) ∧
       (¬ whole → s.slots.current = true → t = { s with slots := { s.slots with collection := none } }) ∧
       (¬ whole → s.slots.current = false →
         t.slots = { s.slots with collection := none, retry := s.slots.retry.map fun _ => 1000 * 96 } ∧
         ((∀ i ∈ s.queue.items, i.sends = 0 → ∀ k, i.body ≠ .snapReq k) → s.queue.items.length < 16 →
           t.queue = queued .origin (.snapReq s.slots.lastApplied) none .loc s) ∧
         ((∃ i ∈ s.queue.items, i.sends = 0 ∧ ∃ k, i.body = .snapReq k) → t.queue = s.queue))) := by
  intro t
  have applied : t = applySnapshot x.frame s := snapshot_applied hx
  rw [applied]
  refine ⟨fun h => applySnapshot_master h hr, fun c h hc => ⟨applySnapshot_whole h hr hc, fun hw hcur => ?_,
    fun hw hcur => ?_⟩⟩
  · rw [applySnapshot_short h hc hw, if_pos hcur]
  · have bare := queue_pushSnapReq (s := { s with slots := { s.slots with collection := none } }) h
    rw [applySnapshot_short h hc hw, if_neg (by simp [hcur])]
    refine ⟨?_, bare.1, bare.2⟩
    rw [slots_retryRestart, slots_pushSnapReq]

/-! ### A GAIN_NOTE of another node (R122) -/

/-- The note changes the cache only. -/
theorem applyNote_cached {w : NodeId} {s : State} (h : w ≠ s.start.id) (i : Nat) (g : GainSetting)
    (n : GainSerial) (c : GainCause) : Cached s (applyNote w i g n c s) ∧
      (cacheTargets s w i n = [] → applyNote w i g n c s = s) ∧
      ∀ m, cacheAt (applyNote w i g n c s) m = cacheAt (cacheUpdate w i g n s) m := by
  unfold applyNote
  rw [if_neg h]
  simp only
  split
  next empty =>
    refine ⟨.refl s, fun _ => rfl, fun m => ?_⟩
    rw [cacheUpdate_none (List.isEmpty_iff.1 empty)]
  next some_ =>
    refine ⟨(cacheUpdate_cached _ _ _ _ _).trans (notify_cached _ _), fun empty => ?_, fun m => ?_⟩
    · exact absurd (List.isEmpty_iff.2 empty) some_
    · unfold cacheAt
      rw [show (notify (.gainCacheChange w i g n (cacheTargets s w i n)) (cacheUpdate w i g n s)).lanes =
        (cacheUpdate w i g n s).lanes from by simp]

theorem copyCurrent_iff (s : State) :
    copyCurrent s = true ↔ s.start.role = .master ∨ s.slots.current = true := by
  unfold copyCurrent
  rw [Bool.or_eq_true, isMaster_iff]

theorem cacheTargets_stale {s : State} (h : ¬ (s.start.role = .master ∨ s.slots.current = true)) (w : NodeId) (i : Nat)
    (n : GainSerial) : cacheTargets s w i n = [] := if_neg (mt (copyCurrent_iff s).1 h)

/-- A GAIN_NOTE of another node applied. -/
theorem noteApplied (x : PendingSwitch) (i : Nat) (g : GainSetting) (serial : GainSerial) (s : State)
    (hx : x.item = .msg (.gainNote i g serial)) (hw : x.sender ≠ s.start.id) :
     let t := applySwitch x s
     let reads : Prop := s.start.role = .master ∨ s.slots.current = true
     t.gain = s.gain ∧ t.slots = s.slots ∧ t.loop = s.loop ∧ t.queue = s.queue ∧ t.snap = s.snap ∧
     (¬ reads → t = s) ∧
     ∀ (n : Nat) (e : SlotEntry), s.slots.table[n]? = some e → n < s.lanes.cache.length →
       let hit : Prop := reads ∧ e.state = .assigned ∧ e.writer = some x.sender ∧ e.input = some i ∧
         ∀ h r, cacheAt s n = some (h, r) → newer8 serial r = true
       (hit → cacheAt t n = some (g, serial)) ∧ (¬ hit → cacheAt t n = cacheAt s n) := by
  intro t reads
  have applied : t = applyNote x.sender i g serial x.cause s := by
    show applySwitch x s = _
    unfold applySwitch
    rw [hx]
  obtain ⟨cached, idle, entries⟩ := applyNote_cached hw i g serial x.cause
  obtain ⟨-, loop, queue, snap, -, slots, gain, -⟩ := cached.blocks
  rw [applied]
  refine ⟨gain, slots, loop, queue, snap, fun hr => idle (cacheTargets_stale hr _ _ _), fun n e he hl => ?_⟩
  have target : n ∈ cacheTargets s x.sender i serial ↔ reads ∧ e.state = .assigned ∧ e.writer = some x.sender ∧
      e.input = some i ∧ ∀ h r, cacheAt s n = some (h, r) → newer8 serial r = true := by
    rw [mem_cacheTargets, copyCurrent_iff, mem_slotsOf, cacheTakes_iff, he]
    simp [reads, and_assoc]
  rw [entries, cacheAt_cacheUpdate]
  exact ⟨fun hit => if_pos ⟨target.2 hit, hl⟩, fun miss => if_neg fun k => miss (target.1 k.1)⟩

end Sys2Proof.Machine
end

section
/-! PROOFS. Switch-bearing messages received: how an entry comes into the list (R18, R78, R90, R123). -/

namespace Sys2Proof.Machine

open Sys2Proof

/-! ### The entry made -/

/-- The entry a received message makes. -/
def receivedEntry (n : NodeId) (item : SwitchItem) (f : FrameNo) (s : State) : PendingSwitch :=
  ⟨n, item, f, s.loop.epoch, none, false, .loc⟩

/-- Where the message is of the node's own epoch, the sender's held entry is applied and the new one joins the list. -/
theorem enterReceived_eq (n : NodeId) (h : Header) (item : SwitchItem) (f : FrameNo) (s : State) :
    enterReceived n h item f s = if h.origin.epoch = s.loop.epoch then
      { applyPending n s with switches := (applyPending n s).switches ++ [receivedEntry n item f s] } else s := rfl

theorem applyPending_idle {n : NodeId} {s : State} (h : pendingOf s n = none) : applyPending n s = s := by
  unfold applyPending
  rw [h]

theorem applyPending_some {n : NodeId} {s : State} {p : PendingSwitch} (h : pendingOf s n = some p) :
    applyPending n s = applySwitch p { s with switches := s.switches.filter fun y => decide (y.sender ≠ n) } := by
  unfold applyPending
  rw [h]
  rfl

/-! ### An ALLOT received (R78) -/

theorem referenceSerial_none {s : State} {n : NodeId} (h : pendingOf s n = none) :
    referenceSerial s n = s.slots.lastApplied := by
  unfold referenceSerial
  rw [h]

theorem allotGap_iff (s : State) (n : NodeId) (serial : Serial) : allotGap s n serial = true ↔
    s.slots.current = true ∧ ∃ r, referenceSerial s n = some r ∧ newer16 serial r = true ∧ serial ≠ r + 1 := by
  unfold allotGap
  cases referenceSerial s n <;> simp

theorem takeAllot_master {s : State} (h : s.start.role = .master) (n : NodeId) (hd : Header) (m : Message)
    (serial : Serial) : takeAllot n hd m serial s = s := by
  unfold takeAllot
  rw [if_pos ((isMaster_iff s).2 h)]

theorem takeAllot_eq {s : State} (h : s.start.role ≠ .master) (n : NodeId) (hd : Header) (m : Message)
    (serial : Serial) : takeAllot n hd m serial s = enterReceived n hd (.msg m.body) (switchOf m s)
      (if allotGap s n serial then retryCheck (rejudge (pushSnapReq (loseCurrency s))) else s) := by
  unfold takeAllot
  rw [if_neg (mt (isMaster_iff s).1 h)]

theorem loseCurrency_of_current {s : State} (h : s.start.role ≠ .master) (hc : s.slots.current = true) :
    loseCurrency s = clearCache { s with slots := { s.slots with current := false } } := by
  unfold loseCurrency
  rw [if_neg]
  simp [State.isMaster, h, hc]

theorem lanes_pushSnapReq (s : State) : (pushSnapReq s).lanes = s.lanes ∧ (pushSnapReq s).switches = s.switches ∧
    (pushSnapReq s).loop = s.loop := by
  unfold pushSnapReq pushInternal
  repeat' split
  all_goals simp

/-- A copy that misses an ALLOT: it stops being current, its cache is unknown, a SNAP_REQ is due (R77, R78). -/
theorem missed_leaves {s : State} (h : s.start.role ≠ .master) (hc : s.slots.current = true) :
    let u := retryCheck (rejudge (pushSnapReq (loseCurrency s)))
    u.slots.current = false ∧ u.slots.table = s.slots.table ∧ u.switches = s.switches ∧ u.loop = s.loop ∧
      u.lanes.cache = s.lanes.cache.map (fun _ => none) ∧ u.queue = (pushSnapReq (loseCurrency s)).queue := by
  have lost := loseCurrency_of_current h hc
  obtain ⟨lanes, switches, loop⟩ := lanes_pushSnapReq (loseCurrency s)
  have slots := slots_pushSnapReq (loseCurrency s)
  have retry (a : State) : (retryCheck a).slots.current = a.slots.current ∧
      (retryCheck a).slots.table = a.slots.table := by
    unfold retryCheck
    repeat' split
    all_goals exact ⟨rfl, rfl⟩
  have cache : (rejudge (pushSnapReq (loseCurrency s))).lanes.cache = (pushSnapReq (loseCurrency s)).lanes.cache := rfl
  have cleared : (loseCurrency s).slots = { s.slots with current := false } := by rw [lost]; rfl
  refine ⟨?_, ?_, ?_, ?_, ?_, ?_⟩
  · rw [(retry _).1]; simp [slots, cleared]
  · rw [(retry _).2]; simp [slots, cleared]
  · simp [switches]
  · simp [loop]
  · have kept (a : State) : (retryCheck a).lanes = a.lanes := by simp
    rw [kept, cache, lanes, lost]
    rfl
  · simp

/-- How an ALLOT is received. -/
theorem allotReceived (n : NodeId) (h : Header) (m : Message) (s : State) (serial : Serial) (ch : List SlotChange)
    (hm : m.body = .allot serial ch) :
    (s.start.role = .master → actOn n h m s = s) ∧
    (s.start.role ≠ .master → allotGap s n serial = false →
      actOn n h m s = enterReceived n h (.msg m.body) (switchOf m s) s) ∧
    (s.start.role ≠ .master → allotGap s n serial = true → pendingOf s n = none →
      (actOn n h m s).slots.current = false ∧
      (actOn n h m s).lanes.cache = s.lanes.cache.map (fun _ => none) ∧
      (actOn n h m s).slots.table = s.slots.table ∧
      ((∀ i ∈ s.queue.items, i.sends = 0 → ∀ k, i.body ≠ .snapReq k) → s.queue.items.length < 16 →
        (actOn n h m s).queue = queued .origin (.snapReq s.slots.lastApplied) none .loc s) ∧
      (actOn n h m s).switches = if h.origin.epoch = s.loop.epoch then
        s.switches ++ [receivedEntry n (.msg m.body) (switchOf m s) s] else s.switches) := by
  have act : actOn n h m s = takeAllot n h m serial s := by
    unfold actOn
    rw [hm]
  rw [act]
  refine ⟨fun hr => takeAllot_master hr _ _ _ _, fun hr gap => ?_, fun hr gap held => ?_⟩
  · rw [takeAllot_eq hr, gap]; rfl
  · have current : s.slots.current = true := ((allotGap_iff s n serial).1 gap).1
    obtain ⟨cur, table, switches, loop, cache, queue⟩ := missed_leaves hr current
    have asked := (queue_pushSnapReq (s := loseCurrency s) (by simpa using hr)).1
    have lost := loseCurrency_of_current hr current
    rw [takeAllot_eq hr, if_pos gap]
    generalize retryCheck (rejudge (pushSnapReq (loseCurrency s))) = u at *
    have none_ : applyPending n u = u := applyPending_idle (by unfold pendingOf at held ⊢; rw [switches]; exact held)
    rw [enterReceived_eq, none_, loop]
    have result (hq : ∀ i ∈ s.queue.items, i.sends = 0 → ∀ k, i.body ≠ .snapReq k) (room : s.queue.items.length < 16) :
        u.queue = queued .origin (.snapReq s.slots.lastApplied) none .loc s := by
      rw [queue, asked (by simpa using hq) (by simpa using room), lost]
      rfl
    split
    · refine ⟨cur, cache, table, result, ?_⟩
      simp [receivedEntry, switches, loop]
    · exact ⟨cur, cache, table, result, switches⟩

/-! ### SNAP pieces (R90) -/

theorem takeSnap_passed {s : State} {hd : Header} (h : s.start.role = .master ∨ hd.origin.epoch ≠ s.loop.epoch)
    (n : NodeId) (m : Message) (serial : Serial) (k : Nat) (es : List SlotEntry) :
    takeSnap n hd m serial k es s = s := by
  unfold takeSnap
  rw [if_pos]
  rcases h with h | h
  · simp [(isMaster_iff s).2 h]
  · simp [h]

theorem sameCollection_iff (s : State) (serial : Serial) (f : FrameNo) : sameCollection s serial f = true ↔
    ∃ c, s.slots.collection = some c ∧ c.serial = serial ∧ c.frame = f := by
  unfold sameCollection
  cases s.slots.collection <;> simp

theorem takeSnap_stored {s : State} {hd : Header} (h : s.start.role ≠ .master) (he : hd.origin.epoch = s.loop.epoch)
    {m : Message} {serial : Serial} {c : Collection} (hc : s.slots.collection = some c) (hs : c.serial = serial)
    (hf : c.frame = switchOf m s) (n : NodeId) (k : Nat) (es : List SlotEntry) :
    takeSnap n hd m serial k es s =
      { s with slots := { s.slots with collection := some { c with pieces := c.pieces.set k (some es) } } } := by
  unfold takeSnap
  rw [if_neg (by simp [State.isMaster, h, he]), if_pos ((sameCollection_iff s serial _).2 ⟨c, hc, hs, hf⟩)]
  unfold storePiece
  rw [hc]
  rfl

/-- A collection begun with one piece. -/
def begun (serial : Serial) (f : FrameNo) (k : Nat) (es : List SlotEntry) (s : State) : Option Collection :=
  some ⟨serial, f, (List.replicate (slotCount s.start.rate / 4) none).set k (some es)⟩

theorem begun_congr {s t : State} (h : s.start = t.start) (serial : Serial) (f : FrameNo) (k : Nat)
    (es : List SlotEntry) : begun serial f k es s = begun serial f k es t := by
  unfold begun
  rw [h]

theorem beginCollection_eq (serial : Serial) (f : FrameNo) (k : Nat) (es : List SlotEntry) (s : State) :
    beginCollection serial f k es s =
      { s with slots := { s.slots with collection := begun serial f k es s } } := rfl

theorem takeSnap_fresh {s : State} {hd : Header} (h : s.start.role ≠ .master) (he : hd.origin.epoch = s.loop.epoch)
    {m : Message} {serial : Serial} (hc : ∀ c, s.slots.collection = some c → c.serial ≠ serial ∨ c.frame ≠ switchOf m s)
    (n : NodeId) (k : Nat) (es : List SlotEntry) : takeSnap n hd m serial k es s =
      beginCollection serial (switchOf m s) k es
        (enterReceived n hd (.snapshot serial) (switchOf m s) (supersede n s)) := by
  unfold takeSnap
  rw [if_neg (by simp [State.isMaster, h, he]), if_neg]
  rw [sameCollection_iff]
  rintro ⟨c, hsome, hs, hf⟩
  exact (hc c hsome).elim (absurd hs) (absurd hf)

theorem supersede_none {n : NodeId} {s : State} (h : pendingOf s n = none) : supersede n s = s := by
  unfold supersede
  rw [h]

theorem supersede_waiting {n : NodeId} {s : State} {p : PendingSwitch} {j : Serial} (h : pendingOf s n = some p)
    (hp : p.item = .snapshot j) (hr : reached s.loop.count p.frame = false) : supersede n s =
      { s with
        switches := s.switches.filter fun y => decide (y.sender ≠ n)
        slots := { s.slots with collection := none } } := by
  unfold supersede
  rw [h]
  simp only [hp, hr]
  rfl

theorem supersede_kept {n : NodeId} {s : State} {p : PendingSwitch} (h : pendingOf s n = some p)
    (hp : (∃ b, p.item = .msg b) ∨ reached s.loop.count p.frame = true) : supersede n s = s := by
  unfold supersede
  rw [h]
  simp only
  rcases hp with ⟨b, hb⟩ | hr
  · rw [hb]
  · split
    · rw [if_pos hr]
    · rfl

theorem pendingOf_filter (n : NodeId) (s u : State) (h : u.switches = s.switches.filter fun y => decide (y.sender ≠ n)) :
    pendingOf u n = none := by
  unfold pendingOf
  rw [h, List.find?_eq_none]
  intro y hy
  simpa using (List.mem_filter.1 hy).2

/-! ### A GAIN_SNAP piece (R123) -/

/-- The step of one entry of a piece. -/
def pieceStep (n : NodeId) (k : Nat) (a : State) (x : (GainSetting × GainSerial) × Nat) : State :=
  cacheUpdate n (4 * k + x.2) x.1.1 x.1.2 a

theorem takeGainSnap_eq (n : NodeId) (k : Nat) (es : List (GainSetting × GainSerial)) (s : State) :
    takeGainSnap n k es s = es.zipIdx.foldl (pieceStep n k) s := rfl

theorem pieceStep_cached (n : NodeId) (k : Nat) (a : State) (x : (GainSetting × GainSerial) × Nat) :
    Cached a (pieceStep n k a x) := cacheUpdate_cached _ _ _ _ _

/-- An entry of the piece touches the slots of its own input. -/
theorem cacheAt_pieceStep_other {n : NodeId} {k : Nat} {a s : State} {x : (GainSetting × GainSerial) × Nat} {i : Nat}
    (ha : Cached s a) (h : (i, 4 * k + x.2) ∉ slotsOf s n) : cacheAt (pieceStep n k a x) i = cacheAt a i := by
  unfold pieceStep
  obtain ⟨-, -, -, -, -, slots, -⟩ := ha.blocks
  rw [cacheAt_cacheUpdate, if_neg]
  rintro ⟨target, -⟩
  obtain ⟨-, own, -⟩ := mem_cacheTargets.1 target
  unfold slotsOf at own h
  rw [slots] at own
  exact h own

theorem nodup_zipIdx {α : Type} (l : List α) : l.zipIdx.Nodup :=
  (zipIdx_ascends l).imp fun h e => by rw [e] at h; exact lt_irrefl _ h

/-- A GAIN_SNAP piece acted on. -/
theorem gainSnapReceived (n : NodeId) (h : Header) (m : Message) (s : State) (k : Nat)
    (es : List (GainSetting × GainSerial)) (hm : m.body = .gainSnap k es) :
      let t := actOn n h m s
      let reads : Prop := s.start.role = .master ∨ s.slots.current = true
      (¬ reads → t = s) ∧ t.gain = s.gain ∧ t.slots = s.slots ∧ t.switches = s.switches ∧
       ∀ (i : Nat) (e : SlotEntry), s.slots.table[i]? = some e → i < s.lanes.cache.length →
         (∀ (j : Nat) (g : GainSetting) (q : GainSerial), reads → e.state = .assigned → e.writer = some n →
           e.input = some (4 * k + j) → es[j]? = some (g, q) →
           ((∀ g' r, cacheAt s i = some (g', r) → newer8 q r = true) → cacheAt t i = some (g, q)) ∧
           (∀ g' r, cacheAt s i = some (g', r) → newer8 q r = false → cacheAt t i = cacheAt s i)) ∧
         (e.state ≠ .assigned ∨ e.writer ≠ some n ∨ (∀ j, j < es.length → e.input ≠ some (4 * k + j)) →
           cacheAt t i = cacheAt s i) := by
  intro t reads
  have act : t = es.zipIdx.foldl (pieceStep n k) s := by
    show actOn n h m s = _
    unfold actOn
    rw [hm]
    rfl
  have cached : Cached s (es.zipIdx.foldl (pieceStep n k) s) := .foldl (pieceStep_cached n k) _ _
  obtain ⟨-, -, -, -, switches, slots, gain, -⟩ := cached.blocks
  rw [act]
  refine ⟨fun hr => foldl_still _ _ fun x => cacheUpdate_none (cacheTargets_stale hr _ _ _) _, gain, slots, switches,
    fun i e he hl => ⟨fun j g q hr ha hw hi hj => ?_, fun other => ?_⟩⟩
  · have own : (i, 4 * k + j) ∈ slotsOf s n := mem_slotsOf.2 ⟨e, he, ha, hw, hi⟩
    have entry : ((g, q), j) ∈ es.zipIdx := List.mem_zipIdx_iff_getElem?.2 hj
    have others : ∀ y ∈ es.zipIdx, y ≠ ((g, q), j) → ∀ a, Cached s a →
        cacheAt (pieceStep n k a y) i = cacheAt a i := by
      rintro ⟨x, c⟩ hx hne a ha
      refine cacheAt_pieceStep_other ha fun k' => hne ?_
      obtain ⟨e', he', -, -, hi'⟩ := mem_slotsOf.1 k'
      cases he.symm.trans he'
      have same : c = j := by
        have := Option.some.inj (hi'.symm.trans hi)
        omega
      subst same
      have value : es[c]? = some x := List.mem_zipIdx_iff_getElem?.1 hx
      rw [hj] at value
      cases value
      rfl
    obtain ⟨a, ha', before, result⟩ := cacheAt_foldl_one (pieceStep_cached n k) (nodup_zipIdx es) entry others
    obtain ⟨start, -, -, -, -, slots', -⟩ := ha'.blocks
    have target : i ∈ cacheTargets a n (4 * k + j) q ↔ ∀ g' r, cacheAt s i = some (g', r) → newer8 q r = true := by
      rw [mem_cacheTargets, copyCurrent_iff, start, slots', before, cacheTakes_iff]
      have own' : (i, 4 * k + j) ∈ slotsOf a n := by unfold slotsOf; rw [slots']; exact own
      exact ⟨fun x => x.2.2, fun x => ⟨hr, own', x⟩⟩
    rw [result]
    unfold pieceStep
    rw [cacheAt_cacheUpdate]
    refine ⟨fun newer => if_pos ⟨target.2 newer, by rw [ha'.length]; exact hl⟩, fun g' r hc old => ?_⟩
    rw [if_neg, before]
    rintro ⟨k', -⟩
    rw [target.1 k' g' r hc] at old
    cases old
  · refine cacheAt_foldl_still (pieceStep_cached n k) fun x hx a ha => cacheAt_pieceStep_other ha fun own => ?_
    obtain ⟨e', he', assigned, writer, input⟩ := mem_slotsOf.1 own
    cases he.symm.trans he'
    rcases other with o | o | o
    · exact o assigned
    · exact o writer
    · exact o x.2 (List.getElem?_eq_some_iff.1 (List.mem_zipIdx_iff_getElem?.1 hx)).1 input

/-! ### Every kind -/

/-- A message that is entered as it stands. -/
theorem actOn_entered {m : Message} (h : (∃ i g k, m.body = .gainNote i g k) ∨ (∃ l, m.body = .wrapPlan l) ∨
    (∃ l, m.body = .unwrapPlan l)) (n : NodeId) (hd : Header) (s : State) :
    actOn n hd m s = enterReceived n hd (.msg m.body) (switchOf m s) s := by
  unfold actOn
  rcases h with ⟨_, _, _, h⟩ | ⟨_, h⟩ | ⟨_, h⟩ <;> rw [h]

/-- The reference serial of an ALLOT in terms of the held entry's item. -/
theorem referenceSerial_eq (s : State) (n : NodeId) : referenceSerial s n =
    match (pendingOf s n).map PendingSwitch.item with
    | some (.msg (.allot k _)) => some k
    | _ => s.slots.lastApplied := by
  unfold referenceSerial
  rcases pendingOf s n with _ | ⟨sender, item, f, e, o, c, g⟩
  · rfl
  · rcases item with b | j
    · cases b <;> rfl
    · rfl

/-- How an entry comes into the list. -/
theorem switchReceived (n : NodeId) (h : Header) (m : Message) (s : State) :
     let t := actOn n h m s
     let frame := m.switch.getD s.loop.count
     let held := pendingOf s n
     let freed : State := match held with
       | none => s
       | some p => applySwitch p { s with switches := s.switches.filter fun y => decide (y.sender ≠ n) }
     let made (item : SwitchItem) : PendingSwitch := ⟨n, item, frame, s.loop.epoch, none, false, .loc⟩
     let gap (r serial : Serial) : Prop := newer16 serial r = true ∧ serial ≠ r + 1
     (∀ serial ch, m.body = .allot serial ch →
       let ref : Option Serial := match held.map PendingSwitch.item with
         | some (.msg (.allot k _)) => some k
         | _ => s.slots.lastApplied
       let missed : Prop := s.slots.current = true ∧ ∃ r, ref = some r ∧ gap r serial
       (s.start.role = .master → t = s) ∧
       (s.start.role ≠ .master → ¬ missed →
         t = if h.origin.epoch = s.loop.epoch then { freed with switches := freed.switches ++ [made (.msg m.body)] }
           else s) ∧
       (s.start.role ≠ .master → missed → held = none → t.slots.current = false ∧
         t.lanes.cache = s.lanes.cache.map (fun _ => none) ∧ t.slots.table = s.slots.table ∧
         ((∀ i ∈ s.queue.items, i.sends = 0 → ∀ k, i.body ≠ .snapReq k) → s.queue.items.length < 16 →
           t.queue = queued .origin (.snapReq s.slots.lastApplied) none .loc s) ∧
         t.switches = if h.origin.epoch = s.loop.epoch then s.switches ++ [made (.msg m.body)]
           else s.switches)) ∧
     ((∃ i g k, m.body = .gainNote i g k) ∨ (∃ l, m.body = .wrapPlan l) ∨ (∃ l, m.body = .unwrapPlan l) →
       t = if h.origin.epoch = s.loop.epoch then { freed with switches := freed.switches ++ [made (.msg m.body)] }
         else s) ∧
     (∀ serial k es, m.body = .snap serial k es →
       let fresh : Option Collection := some ⟨serial, frame,
         (List.replicate (slotCount s.start.rate / 4) none).set k (some es)⟩
       (s.start.role = .master ∨ h.origin.epoch ≠ s.loop.epoch → t = s) ∧
       (s.start.role ≠ .master → h.origin.epoch = s.loop.epoch →
         (∀ c, s.slots.collection = some c → c.serial = serial → c.frame = frame →
           t = { s with slots := { s.slots with collection := some { c with pieces := c.pieces.set k (some es) } } }) ∧
         ((∀ c, s.slots.collection = some c → c.serial ≠ serial ∨ c.frame ≠ frame) → held = none →
           t = { s with
             slots := { s.slots with collection := fresh }
             switches := s.switches ++ [made (.snapshot serial)] }) ∧
         (∀ p j, (∀ c, s.slots.collection = some c → c.serial ≠ serial ∨ c.frame ≠ frame) → held = some p →
           p.item = .snapshot j → reached s.loop.count p.frame = false →
           t = { s with
             slots := { s.slots with collection := fresh }
             switches := s.switches.filter (fun y => decide (y.sender ≠ n)) ++ [made (.snapshot serial)] }) ∧
         (∀ p, (∀ c, s.slots.collection = some c → c.serial ≠ serial ∨ c.frame ≠ frame) → held = some p →
           (∃ b, p.item = .msg b) ∨ reached s.loop.count p.frame = true →
           t = { freed with
             slots := { freed.slots with collection := fresh }
             switches := freed.switches ++ [made (.snapshot serial)] }))) ∧
     (∀ k es, m.body = .gainSnap k es →
       let reads : Prop := s.start.role = .master ∨ s.slots.current = true
       (¬ reads → t = s) ∧ t.gain = s.gain ∧ t.slots = s.slots ∧ t.switches = s.switches ∧
       ∀ (i : Nat) (e : SlotEntry), s.slots.table[i]? = some e → i < s.lanes.cache.length →
         (∀ (j : Nat) (g : GainSetting) (q : GainSerial), reads → e.state = .assigned → e.writer = some n →
           e.input = some (4 * k + j) → es[j]? = some (g, q) →
           ((∀ g' r, cacheAt s i = some (g', r) → newer8 q r = true) → cacheAt t i = some (g, q)) ∧
           (∀ g' r, cacheAt s i = some (g', r) → newer8 q r = false → cacheAt t i = cacheAt s i)) ∧
         (e.state ≠ .assigned ∨ e.writer ≠ some n ∨ (∀ j, j < es.length → e.input ≠ some (4 * k + j)) →
           cacheAt t i = cacheAt s i)) := by
  intro t frame held freed made gap
  have freed_eq : applyPending n s = freed := by
    show _ = (match pendingOf s n with
      | none => s
      | some p => applySwitch p { s with switches := s.switches.filter fun y => decide (y.sender ≠ n) })
    unfold applyPending dropPending
    rcases pendingOf s n <;> rfl
  refine ⟨fun serial ch hm => ?_, fun hm => ?_, fun serial k es hm => ?_, fun k es hm => gainSnapReceived n h m s k es hm⟩
  · intro ref missed
    obtain ⟨master, next, late⟩ := allotReceived n h m s serial ch hm
    have gap_iff : allotGap s n serial = true ↔ missed := by
      have reads := allotGap_iff s n serial
      rw [referenceSerial_eq] at reads
      exact reads
    refine ⟨master, fun hr hg => ?_, fun hr hg held => late hr (gap_iff.2 hg) held⟩
    show actOn n h m s = _
    rw [next hr (Bool.eq_false_iff.2 (mt gap_iff.1 hg)), enterReceived_eq, freed_eq]
    rfl
  · show actOn n h m s = _
    rw [actOn_entered hm, enterReceived_eq, freed_eq]
    rfl
  · intro fresh
    have act : actOn n h m s = takeSnap n h m serial k es s := by
      unfold actOn
      rw [hm]
    refine ⟨fun hr => act.trans (takeSnap_passed hr _ _ _ _ _), fun hr he => ⟨fun c hc hs hf =>
      act.trans (takeSnap_stored hr he hc hs hf _ _ _), fun hc hh => ?_, fun p j hc hh hp hreach => ?_,
      fun p hc hh hp => ?_⟩⟩
    · show actOn n h m s = _
      rw [act, takeSnap_fresh hr he hc, supersede_none hh, enterReceived_eq, if_pos he, applyPending_idle hh]
      rfl
    · show actOn n h m s = _
      rw [act, takeSnap_fresh hr he hc, supersede_waiting hh hp hreach, enterReceived_eq, if_pos he,
        applyPending_idle (pendingOf_filter n s _ rfl)]
      rfl
    · show actOn n h m s = _
      rw [act, takeSnap_fresh hr he hc, supersede_kept hh hp, enterReceived_eq, if_pos he, beginCollection_eq]
      have start : (applyPending n s).start = s.start := by
        rw [applyPending_some hh]
        exact (applySwitch_steady _ _).start
      rw [begun_congr (t := s) (by exact start), freed_eq]
      rfl

end Sys2Proof.Machine
end

section
/-! PROOFS. SWITCH_APPLY: the due entry of a sender (R18, R57, R71, R117), with the laws of the loop mode after a
change of the loop record. -/

namespace Sys2Proof.Machine

open Sys2Proof

/-! ### The loop mode after a change (R45) -/

theorem usable_of_port {s t : State} {p : PortId} (h : portUsable (t.port p) = portUsable (s.port p)) :
    t.usable p = s.usable p := h

theorem usable_of_ports {s t : State} (ha : t.portA = s.portA) (hb : t.portB = s.portB) (p : PortId) :
    t.usable p = s.usable p := by
  cases p
  · exact congrArg portUsable ha
  · exact congrArg portUsable hb

theorem eq_portOther {p q : PortId} (h : q ≠ p) : q = portOther p := by
  revert h
  cases p <;> cases q <;> simp [portOther]

theorem usable_drillWrap (m : LoopMode) (s : State) (p q : PortId) : (drillWrap m s p).usable q = s.usable q := by
  unfold drillWrap
  simp only
  repeat' split
  · rfl
  · by_cases h : q = p
    · subst h
      rw [usable_setPort]
      rfl
    · have other := eq_portOther h
      subst other
      rw [usable_setPort_other]
  · rfl

theorem usable_afterLoop (c : LoopCause) (old s : State) (p : PortId) : (afterLoop c old s).usable p = s.usable p := by
  have first : (dropPlans (loopMode old) (takeoverCheck (loopMode old) s)).usable p = s.usable p := by
    unfold State.usable
    rw [port_dropPlans, port_takeoverCheck]
  have drilled := (usable_drillWrap (loopMode old) _ .b p).trans
    ((usable_drillWrap (loopMode old) (dropPlans (loopMode old) (takeoverCheck (loopMode old) s)) .a p).trans first)
  unfold afterLoop
  simp only
  generalize drillWrap (loopMode old) (drillWrap (loopMode old) (dropPlans (loopMode old)
    (takeoverCheck (loopMode old) s)) .a) .b = d at drilled
  have currency : (if modeLosesCopy d then loseCurrency d else d).usable p = d.usable p := by
    split
    · exact usable_of_ports (by simp) (by simp) p
    · rfl
  generalize (if modeLosesCopy d then loseCurrency d else d) = u at currency
  have closed : (retryCheck (rejudge u)).usable p = u.usable p := usable_of_ports (by simp) (by simp) p
  rw [currency, drilled] at closed
  split
  · exact (usable_of_ports (by simp) (by simp) p).trans closed
  · exact closed

theorem wrapAt_of_loop {s t : State} (h : ∃ x, t.loop = { s.loop with takeover := x }) (p : PortId) :
    t.wrapAt p = s.wrapAt p := by
  obtain ⟨x, h⟩ := h
  cases p <;> simp [State.wrapAt, h]

/-- The mode does not depend on the takeover timer (R45). -/
theorem loopMode_of_loop {s t : State} (h : ∃ x, t.loop = { s.loop with takeover := x }) (hs : t.start = s.start)
    (hu : ∀ p, t.usable p = s.usable p) : loopMode t = loopMode s := by
  obtain ⟨x, h⟩ := h
  exact loopMode_congr (by rw [hs]) (by rw [h]) (by rw [h]) (by rw [h]) (by rw [h]) (by rw [h]) (by rw [h])
    (hu .a) (hu .b)

theorem loopMode_afterLoop (c : LoopCause) (old s : State) : loopMode (afterLoop c old s) = loopMode s :=
  loopMode_of_loop (loop_afterLoop c old s) (by simp) (usable_afterLoop c old s)

/-- Settling moves of the loop record the takeover timer only (R63). -/
theorem loop_settle_takeover (s : State) : ∃ x, (settle s).loop = { s.loop with takeover := x } := by
  have stop (a : State) : ∃ x, (stopTakeover a).loop = { a.loop with takeover := x } := by
    unfold stopTakeover
    split
    · exact ⟨a.loop.takeover, rfl⟩
    · exact ⟨_, rfl⟩
  unfold settle modeCheck
  simp only [parts_retryCheck, parts_rejudge]
  obtain ⟨x, h⟩ := stop (if modeLosesCopy s then loseCurrency s else s)
  refine ⟨x, h.trans ?_⟩
  split <;> simp

theorem loopMode_settle (s : State) : loopMode (settle s) = loopMode s :=
  loopMode_of_loop (loop_settle_takeover s) (by simp) (usable_of_ports (by simp) (by simp))

/-- A state whose timers and copy fit its mode settles in its taps and outputs only. -/
theorem settle_keeps {s : State} (hr : s.slots.retry.isSome = retryCond s)
    (ht : s.loop.takeover.isSome = true → loopMode s = .orphan)
    (hc : modeLosesCopy s = true → s.isMaster = true ∨ s.slots.current = false) :
    (settle s).loop = s.loop ∧ (settle s).slots = s.slots := by
  have currency : (if modeLosesCopy s then loseCurrency s else s) = s := by
    split
    · exact loseCurrency_self (hc ‹_›)
    · rfl
  have mode : modeCheck s = s := by
    unfold modeCheck
    rw [currency, stopTakeover_self ht]
  unfold settle
  rw [mode, retryCheck_self (s := rejudge s) hr]
  exact ⟨rfl, rfl⟩

/-- What mode CLOSED says of the loop record (R45). -/
theorem closed_parts {s : State} (h : loopMode s = .closed) : s.start.held = false ∧ s.loop.conflict = none ∧
    (s.loop.role = .follower → s.loop.group ≠ none ∧ s.loop.following = true) := by
  unfold loopMode at h
  split_ifs at h
  simp_all

/-- A wrap at a usable port of a CLOSED node sets its mode (R45, R57). -/
theorem loopMode_setWrap {s : State} {q : PortId} (h : loopMode s = .closed) (hu : s.usable q = true) {w : Wrap}
    (hw : w ≠ .none) : loopMode (s.setWrap q w) = wrapMode q := by
  obtain ⟨held, conflict, follower⟩ := closed_parts h
  have other := loopMode_closed_wraps (beq_iff_eq.2 h) (portOther q)
  unfold loopMode
  simp only [usable_setWrap]
  cases q <;> cases hr : s.loop.role <;>
    simp_all [State.setWrap, State.isOrigin, State.wrapAt, portOther, wrapMode, Option.isNone_iff_eq_none]

/-! ### What SWITCH_APPLY takes -/

theorem pendingOf_mem {s : State} {n : NodeId} {x : PendingSwitch} (h : pendingOf s n = some x) :
    x ∈ s.switches ∧ x.sender = n := by
  unfold pendingOf at h
  exact ⟨List.mem_of_find?_eq_some h, by simpa using List.find?_some h⟩

theorem applyReached_idle {s : State} {n : NodeId}
    (h : (∀ x ∈ s.switches, x.sender = n → reached s.loop.count x.frame = false) ∨ s.loop.visited = true) :
    applyReached n s = s := by
  unfold applyReached
  split
  · rfl
  next x hx =>
    obtain ⟨mem, sender⟩ := pendingOf_mem hx
    rw [if_neg]
    rcases h with h | h
    · simp [h x mem sender]
    · simp [h]

/-- The state in which an entry of `n` has left the list. -/
def unlisted (n : NodeId) (s : State) : State :=
  { s with switches := s.switches.filter fun y => decide (y.sender ≠ n) }

theorem applyReached_due {s : State} {n : NodeId} {x : PendingSwitch} (h : pendingOf s n = some x)
    (hr : reached s.loop.count x.frame = true) (hv : s.loop.visited = false) :
    applyReached n s = applySwitch x (unlisted n s) := by
  unfold applyReached
  rw [h]
  simp only
  rw [if_pos (by simp [hr, hv]), applyPending_some h]
  rfl

theorem switchApply_blocks {s : State} (hr : s.inReset = false) {n : NodeId} {x : PendingSwitch}
    (h : pendingOf s n = some x) (hc : reached s.loop.count x.frame = true) (hv : s.loop.visited = false) :
    ∃ t, exec (.switchApply n) s = .next t ∧ SameBlocks (settle (applySwitch x (unlisted n s))) t := by
  obtain ⟨t, ht, same, -⟩ := done_blocks (f := applyReached n) hr
  rw [applyReached_due h hc hv] at same
  exact ⟨t, ht, same⟩

/-! ### The node's own gain note (R117, R119) -/

theorem appliedEntry_eq (ms : Nat) (g : GainSetting) (n : GainSerial) (e : GainEntry) : appliedEntry ms g n e =
    { e with
      applied := g, serial := n
      inFlight := e.inFlight.filter fun f => decide (f.serial ≠ n)
      mute := if e.applied.phantom ≠ g.phantom ∧ ms ≠ 0 then some (ms * 96) else e.mute } := by
  unfold appliedEntry muteAfter
  congr 1
  · cases e.inFlight with
    | none => rfl
    | some f => by_cases h : f.serial = n <;> simp [h, Option.filter]
  · simp [ticksOf, Config.ticksPerMs]

/-- The gain record after a setting was applied. -/
def gainSet (i : Nat) (g : GainSetting) (n : GainSerial) (e : GainEntry) (r : GainRec) : GainRec :=
  { r with
    table := r.table.set i (appliedEntry r.muteMs g n e)
    records := if preampDiffers e.applied g then queueRecord ⟨i, g.gain, g.pad, g.phantom⟩ r.records else r.records }

theorem applyGain_newer {s : State} {i : Nat} {e : GainEntry} {n : GainSerial} (he : s.gain.table[i]? = some e)
    (hn : newer8 n e.serial = true) (g : GainSetting) (c : GainCause) :
    Cached { s with gain := gainSet i g n e s.gain } (applyGain i g n c s) := by
  unfold applyGain
  rw [he]
  simp only
  rw [if_pos hn]
  refine Cached.trans ?_ (notify_cached _ _)
  unfold applyGainQuiet
  rw [he]
  simp only
  rw [if_pos hn]
  exact refreshInputCache_cached _ _

/-- States with the blocks of a settled one settle without a change of loop record and slots. -/
theorem settle_cached {s u : State} (h : Settled s) (hs : u.start = s.start) (hl : u.loop = s.loop)
    (hk : u.slots = s.slots) (ha : u.portA = s.portA) (hb : u.portB = s.portB) :
    (settle u).loop = s.loop ∧ (settle u).slots = s.slots := by
  have mode : loopMode u = loopMode s := loopMode_of_loop ⟨s.loop.takeover, by rw [hl]⟩ hs (usable_of_ports ha hb)
  have master : u.isMaster = s.isMaster := by unfold State.isMaster; rw [hs]
  have kept := settle_keeps (s := u) ?_ ?_ ?_
  · rw [hl, hk] at kept
    exact kept
  · rw [hk, h.retry]
    unfold retryCond
    rw [master, hk, hl]
  · rw [hl, mode]; exact h.takeover
  · rw [modeLosesCopy_eq mode (by rw [hl]), master, hk]; exact h.copy

theorem Cached.ports {s t : State} (h : Cached s t) : t.portA = s.portA ∧ t.portB = s.portB ∧ t.lock = s.lock ∧
    t.supervision = s.supervision := by
  obtain ⟨_, _, _, _, _, _, rfl⟩ := h
  exact ⟨rfl, rfl, rfl, rfl⟩

/-- The blocks that settling leaves. -/
theorem settled_blocks {u t : State} (h : SameBlocks (settle u) t) : t.start = u.start ∧ t.portA = u.portA ∧
    t.portB = u.portB ∧ t.queue = u.queue ∧ t.snap = u.snap ∧ t.switches = u.switches ∧ t.gain = u.gain ∧
    t.talk = u.talk ∧ t.lock = u.lock ∧ t.supervision = u.supervision := by
  rw [h.start, h.portA, h.portB, h.queue, h.snap, h.switches, h.gain, h.talk, h.lock, h.supervision]
  simp

theorem ownNote_applied {s : State} (hs : Settled s) {n : NodeId} {x : PendingSwitch} {i : Nat} {g : GainSetting}
    {serial : GainSerial} {e : GainEntry} (hx : x.item = .msg (.gainNote i g serial)) (hn : x.sender = s.start.id)
    (he : s.gain.table[i]? = some e) (newer : newer8 serial e.serial = true) {t : State}
    (same : SameBlocks (settle (applySwitch x (unlisted n s))) t) :
    t.gain = gainSet i g serial e s.gain ∧ t.switches = (unlisted n s).switches ∧ t.start = s.start ∧
      t.portA = s.portA ∧ t.portB = s.portB ∧ t.loop = s.loop ∧ t.queue = s.queue ∧ t.snap = s.snap ∧
      t.slots = s.slots ∧ t.talk = s.talk ∧ t.lock = s.lock ∧ t.supervision = s.supervision := by
  have act : applySwitch x (unlisted n s) = applyGain i g serial x.cause (unlisted n s) := by
    unfold applySwitch
    rw [hx]
    exact if_pos hn
  have cached : Cached { unlisted n s with gain := gainSet i g serial e s.gain } (applySwitch x (unlisted n s)) := by
    rw [act]
    exact applyGain_newer (s := unlisted n s) he newer g x.cause
  obtain ⟨start, loop, queue, snap, switches, slots, gain, talk⟩ := cached.blocks
  obtain ⟨portA, portB, lock, supervision⟩ := cached.ports
  obtain ⟨keptLoop, keptSlots⟩ := settle_cached hs (u := applySwitch x (unlisted n s)) start loop slots portA portB
  obtain ⟨sStart, sPortA, sPortB, sQueue, sSnap, sSwitches, sGain, sTalk, sLock, sSupervision⟩ := settled_blocks same
  exact ⟨sGain.trans gain, sSwitches.trans switches, sStart.trans start, sPortA.trans portA, sPortB.trans portB,
    same.loop.trans keptLoop, sQueue.trans queue, sSnap.trans snap, same.slots.trans keptSlots, sTalk.trans talk,
    sLock.trans lock, sSupervision.trans supervision⟩

/-! ### Plans (R57, R71) -/

theorem loop_settled {u t : State} (same : SameBlocks (settle u) t) : ∃ x, t.loop = { u.loop with takeover := x } := by
  obtain ⟨x, h⟩ := loop_settle_takeover u
  exact ⟨x, same.loop.trans h⟩

/-- The node's mark at its own plan (R55). -/
def markPlan (w : NodeId) (l : Link) (a : State) : State :=
  if a.isMaster && w = a.start.id then
    modifyLink l.node l.port (fun e => { e with wrapped := true })
      (modifyLink l.farNode l.farPort (fun e => { e with wrapped := true }) a)
  else a

theorem markPlan_leaves (w : NodeId) (l : Link) (a : State) :
    (markPlan w l a).start = a.start ∧ (markPlan w l a).queue = a.queue ∧ (markPlan w l a).snap = a.snap ∧
      (markPlan w l a).switches = a.switches ∧ (markPlan w l a).gain = a.gain ∧ (markPlan w l a).talk = a.talk ∧
      (markPlan w l a).lock = a.lock ∧ (markPlan w l a).supervision = a.supervision ∧
      (∀ p, (markPlan w l a).wrapAt p = a.wrapAt p) ∧ loopMode (markPlan w l a) = loopMode a := by
  unfold markPlan
  split
  · exact ⟨rfl, rfl, rfl, rfl, rfl, rfl, rfl, rfl, fun p => by cases p <;> rfl, rfl⟩
  · exact ⟨rfl, rfl, rfl, rfl, rfl, rfl, rfl, rfl, fun p => rfl, rfl⟩

theorem applyWrapPlan_due {s : State} {l : Link} {q : PortId} (hl : linkPortOf l s.start.id = some q)
    (hm : loopMode s = .closed) (hu : s.usable q = true) (w : NodeId) : applyWrapPlan w l s =
      afterLoop .plannedWrap s (markPlan w l (s.setWrap q (.planned (some (linkFarOf l s.start.id))))) := by
  unfold applyWrapPlan
  rw [hl]
  simp only
  rw [if_pos (by simp [hm, hu])]
  rfl

/-- A wrap plan applied at a CLOSED node (R57). -/
theorem wrapPlan_applied {s : State} {n : NodeId} {x : PendingSwitch} {l : Link} {q : PortId}
    (hx : x.item = .msg (.wrapPlan l)) (hl : linkPortOf l s.start.id = some q) (hm : loopMode s = .closed)
    (hu : s.usable q = true) {t : State} (same : SameBlocks (settle (applySwitch x (unlisted n s))) t) :
    t.wrapAt q = .planned (some (linkFarOf l s.start.id)) ∧ t.wrapAt (portOther q) = .none ∧
      loopMode t = wrapMode q ∧ t.start = s.start ∧ t.queue = s.queue ∧ t.snap = s.snap ∧
      t.gain = s.gain ∧ t.talk = s.talk ∧ t.lock = s.lock ∧ t.supervision = s.supervision := by
  have act : applySwitch x (unlisted n s) = afterLoop .plannedWrap (unlisted n s) (markPlan x.sender l
      ((unlisted n s).setWrap q (.planned (some (linkFarOf l s.start.id))))) := by
    unfold applySwitch
    rw [hx]
    exact applyWrapPlan_due (s := unlisted n s) hl hm hu x.sender
  obtain ⟨start, queue, snap, -, gain, talk, lock, supervision, wraps, mode⟩ :=
    markPlan_leaves x.sender l ((unlisted n s).setWrap q (.planned (some (linkFarOf l s.start.id))))
  obtain ⟨lStart, lQueue, lSnap, lGain, lTalk, lLock, lSupervision⟩ := parts_afterLoop .plannedWrap (unlisted n s)
    (markPlan x.sender l ((unlisted n s).setWrap q (.planned (some (linkFarOf l s.start.id)))))
  rw [← act] at lStart lQueue lSnap lGain lTalk lLock lSupervision
  obtain ⟨sStart, sPortA, sPortB, sQueue, sSnap, -, sGain, sTalk, sLock, sSupervision⟩ := settled_blocks same
  have wrapped (p : PortId) : t.wrapAt p = ((unlisted n s).setWrap q (.planned (some (linkFarOf l s.start.id)))).wrapAt p := by
    rw [wrapAt_of_loop (loop_settled same), act, wrapAt_of_loop (loop_afterLoop _ _ _), wraps]
  have modes : loopMode t = wrapMode q := by
    rw [loopMode_of_loop (loop_settled same) sStart (usable_of_ports sPortA sPortB), act, loopMode_afterLoop, mode]
    exact loopMode_setWrap (s := unlisted n s) hm hu (by simp)
  refine ⟨by rw [wrapped]; simp, ?_, modes, ?_, ?_, ?_, ?_, ?_, ?_, ?_⟩
  · rw [wrapped, wrapAt_setWrap_other]
    exact loopMode_closed_wraps (s := unlisted n s) (beq_iff_eq.2 hm) _
  · exact sStart.trans (lStart.trans (start.trans (by cases q <;> rfl)))
  · exact sQueue.trans (lQueue.trans (queue.trans (by cases q <;> rfl)))
  · exact sSnap.trans (lSnap.trans (snap.trans (by cases q <;> rfl)))
  · exact sGain.trans (lGain.trans (gain.trans (by cases q <;> rfl)))
  · exact sTalk.trans (lTalk.trans (talk.trans (by cases q <;> rfl)))
  · exact sLock.trans (lLock.trans (lock.trans (by cases q <;> rfl)))
  · exact sSupervision.trans (lSupervision.trans (supervision.trans (by cases q <;> rfl)))

/-- An applied entry leaves no entry of its sender (R18). -/
theorem senders_applied {s : State} {n : NodeId} {x : PendingSwitch} {t : State}
    (same : SameBlocks (settle (applySwitch x (unlisted n s))) t) : ∀ y ∈ t.switches, y.sender ≠ n := by
  intro y hy
  obtain ⟨-, -, -, -, -, switches, -⟩ := settled_blocks same
  rw [switches] at hy
  have sender := (applySwitch_steady x (unlisted n s)).senders.subset (List.mem_map.2 ⟨y, hy, rfl⟩)
  obtain ⟨z, hz, e⟩ := List.mem_map.1 sender
  rw [← e]
  simpa using (List.mem_filter.1 hz).2

theorem applyUnwrapPlan_due {s : State} {l : Link} {q : PortId} {far : Option NodeId}
    (hl : linkPortOf l s.start.id = some q) (hw : s.wrapAt q = .planned far) (hu : s.usable q = true) (w : NodeId)
    (op : Option Byte) : applyUnwrapPlan w l op s =
      if (afterLoop .unwrap s (s.setWrap q .none)).isMaster && w = (afterLoop .unwrap s (s.setWrap q .none)).start.id
      then healApplied l op (afterLoop .unwrap s (s.setWrap q .none)) else afterLoop .unwrap s (s.setWrap q .none) := by
  unfold applyUnwrapPlan
  rw [hl]
  have released : (if isPlanned (s.wrapAt q) && s.usable q then afterLoop .unwrap s (s.setWrap q .none) else s) =
      afterLoop .unwrap s (s.setWrap q .none) := if_pos (by rw [hw, hu]; rfl)
  simp only [released]

/-- The two states differ in the link table and the owed plans only. -/
def Linked (s t : State) : Prop := ∃ k o, t = { s with loop := { s.loop with links := k, unwrapOwed := o } }

theorem Linked.refl (s : State) : Linked s s := ⟨_, _, rfl⟩

theorem Linked.trans {s t u : State} (h : Linked s t) (k : Linked t u) : Linked s u := by
  obtain ⟨_, _, rfl⟩ := h
  obtain ⟨_, _, rfl⟩ := k
  exact ⟨_, _, rfl⟩

theorem Linked.foldl {α : Type} {f : State → α → State} (h : ∀ s x, Linked s (f s x)) (l : List α) (s : State) :
    Linked s (l.foldl f s) := by
  induction l generalizing s with
  | nil => exact .refl s
  | cons x l ih => exact (h s x).trans (ih _)

theorem modifyLink_linked (n : NodeId) (p : PortId) (f : LinkEntry → LinkEntry) (s : State) :
    Linked s (modifyLink n p f s) := ⟨_, _, rfl⟩

theorem ceaseReady_linked (n : NodeId) (p : PortId) (s : State) : Linked s (ceaseReady n p s) := by
  unfold ceaseReady
  simp only
  split
  · exact ⟨_, _, rfl⟩
  · exact modifyLink_linked _ _ _ _

theorem moveReady_linked (n : NodeId) (p : PortId) (m : NodeId) (q : PortId) (s : State) :
    Linked s (moveReady n p m q s) := by
  unfold moveReady
  split
  · exact .refl s
  · exact (modifyLink_linked _ _ _ _).trans (modifyLink_linked _ _ _ _)

theorem judgeEntry_linked (s : State) (n : NodeId) (p : PortId) : Linked s (judgeEntry s n p) := by
  have start (s : State) : Linked s (startReady n p s) := modifyLink_linked _ _ _ _
  unfold judgeEntry
  split
  · exact .refl s
  · split
    · exact .refl s
    · exact .refl s
    · split
      · exact moveReady_linked _ _ _ _ _
      · exact start s
    · exact start s
    · split
      · exact moveReady_linked _ _ _ _ _
      · exact ceaseReady_linked _ _ _
    · exact ceaseReady_linked _ _ _

theorem judgeLinks_linked (s : State) : Linked s (judgeLinks s) := by
  unfold judgeLinks
  split
  · generalize allEnds = l
    refine Linked.foldl (fun a x => ?_) l s
    exact judgeEntry_linked a x.1 x.2
  · exact .refl s

/-- The heal record of a link moves neither wraps nor the gain table (R70). -/
theorem healApplied_leaves (l : Link) (op : Option Byte) (s : State) :
    (∀ p, (healApplied l op s).wrapAt p = s.wrapAt p) ∧ (healApplied l op s).start = s.start ∧
      (healApplied l op s).gain = s.gain ∧ (healApplied l op s).lock = s.lock ∧
      (healApplied l op s).supervision = s.supervision := by
  have judged : Linked s (if endStillUsable s l.node l.port && endStillUsable s l.farNode l.farPort then
      judgeLinks (modifyLink l.node l.port (fun e => { e with wrapped := false })
        (modifyLink l.farNode l.farPort (fun e => { e with wrapped := false }) s))
    else s) := by
    split
    · exact ((modifyLink_linked _ _ _ _).trans (modifyLink_linked _ _ _ _)).trans (judgeLinks_linked _)
    · exact .refl s
  unfold healApplied
  simp only
  generalize (if endStillUsable s l.node l.port && endStillUsable s l.farNode l.farPort then
      judgeLinks (modifyLink l.node l.port (fun e => { e with wrapped := false })
        (modifyLink l.farNode l.farPort (fun e => { e with wrapped := false }) s))
    else s) = u at judged
  obtain ⟨k, o, rfl⟩ := judged
  split
  · refine ⟨fun p => wrapAt_of_loop (s := { s with loop := { s.loop with links := k, unwrapOwed := o } })
      ⟨s.loop.takeover, by simp⟩ p |>.trans (by cases p <;> rfl), ?_, ?_, ?_, ?_⟩ <;> simp
  · exact ⟨fun p => by cases p <;> rfl, rfl, rfl, rfl, rfl⟩

/-- An unwrap plan applied at a PLANNED wrap (R71). -/
theorem unwrapPlan_applied {s : State} {n : NodeId} {x : PendingSwitch} {l : Link} {q : PortId} {far : Option NodeId}
    (hx : x.item = .msg (.unwrapPlan l)) (hl : linkPortOf l s.start.id = some q) (hw : s.wrapAt q = .planned far)
    (hu : s.usable q = true) {t : State} (same : SameBlocks (settle (applySwitch x (unlisted n s))) t) :
    t.wrapAt q = .none ∧ t.wrapAt (portOther q) = s.wrapAt (portOther q) ∧ t.start = s.start ∧ t.gain = s.gain ∧
      t.lock = s.lock ∧ t.supervision = s.supervision := by
  have act : applySwitch x (unlisted n s) = applyUnwrapPlan x.sender l x.op (unlisted n s) := by
    unfold applySwitch
    rw [hx]
  rw [applyUnwrapPlan_due (s := unlisted n s) hl (by cases q <;> exact hw) hu] at act
  obtain ⟨lStart, -, -, lGain, -, lLock, lSupervision⟩ := parts_afterLoop .unwrap (unlisted n s)
    ((unlisted n s).setWrap q .none)
  have lWraps := wrapAt_of_loop (loop_afterLoop .unwrap (unlisted n s) ((unlisted n s).setWrap q .none))
  generalize afterLoop .unwrap (unlisted n s) ((unlisted n s).setWrap q .none) = u at *
  have applied : (∀ p, (applySwitch x (unlisted n s)).wrapAt p = u.wrapAt p) ∧
      (applySwitch x (unlisted n s)).start = u.start ∧ (applySwitch x (unlisted n s)).gain = u.gain ∧
      (applySwitch x (unlisted n s)).lock = u.lock ∧ (applySwitch x (unlisted n s)).supervision = u.supervision := by
    rw [act]
    split
    · exact healApplied_leaves _ _ _
    · exact ⟨fun _ => rfl, rfl, rfl, rfl, rfl⟩
  obtain ⟨wraps, start, gain, lock, supervision⟩ := applied
  obtain ⟨sStart, -, -, -, -, -, sGain, -, sLock, sSupervision⟩ := settled_blocks same
  have released (p : PortId) : t.wrapAt p = ((unlisted n s).setWrap q .none).wrapAt p := by
    rw [wrapAt_of_loop (loop_settled same), wraps, lWraps]
  refine ⟨by rw [released]; simp, ?_, ?_, ?_, ?_, ?_⟩
  · rw [released, wrapAt_setWrap_other]
    cases q <;> rfl
  · exact sStart.trans (start.trans (lStart.trans (by cases q <;> rfl)))
  · exact sGain.trans (gain.trans (lGain.trans (by cases q <;> rfl)))
  · exact sLock.trans (lock.trans (lLock.trans (by cases q <;> rfl)))
  · exact sSupervision.trans (supervision.trans (lSupervision.trans (by cases q <;> rfl)))

/-! ### The obligation -/

/-- Settles O34: what SWITCH_APPLY takes, what each kind of entry does, and how entries come into the list. -/
theorem switchApplied : Obligations.SwitchApplied := by
  refine ⟨fun n s hr hs => ⟨fun idle => event_nothing hr hs (applyReached_idle idle), fun x hx hc hv =>
    ⟨switchApply_blocks hr hx hc hv, fun i g serial e hi hn he newer => ?_, fun l q hi hl hm hu => ?_,
      fun l q far hi hl hw hu => ?_⟩⟩, fun x serial ch s hx => ?_, fun x n s hx hr => snapshotApplied x n s hx hr,
    fun x i g serial s hx hw => noteApplied x i g serial s hx hw, switchReceived⟩
  · obtain ⟨t, ht, same⟩ := switchApply_blocks hr hx hc hv
    have sender : x.sender = s.start.id := (pendingOf_mem hx).2.trans hn
    obtain ⟨gain, rest⟩ := ownNote_applied hs hi sender he newer same
    refine ⟨t, ht, ?_, ?_, rest⟩
    · rw [gain, ← appliedEntry_eq]; rfl
    · rw [gain]; rfl
  · obtain ⟨t, ht, same⟩ := switchApply_blocks hr hx hc hv
    obtain ⟨planned, none_, mode, start, queue, snap, gain, talk, lock, supervision⟩ :=
      wrapPlan_applied hi hl hm hu same
    exact ⟨t, ht, planned, none_, mode.trans (by cases q <;> rfl), senders_applied same, start, queue, snap, gain, talk,
      lock, supervision⟩
  · obtain ⟨t, ht, same⟩ := switchApply_blocks hr hx hc hv
    obtain ⟨released, other, start, gain, lock, supervision⟩ := unwrapPlan_applied hi hl hw hu same
    exact ⟨t, ht, released, other, senders_applied same, start, gain, lock, supervision⟩
  · obtain ⟨atMaster, atCopy, passed⟩ := allotApplied x serial ch s hx
    obtain ⟨-, -, gain, loop, queue, switches⟩ := makeChanges_leaves serial ch s
    refine ⟨fun own => ⟨marksAfter ch x.confirmed s.slots.unsettled, ?_, ?_, fun i old h => marksAfter_spec ch _ h⟩,
      fun next => ?_, passed, fun acts => ?_⟩
    · show (applySwitch x s).slots = _
      rw [atMaster own]
      rfl
    · unfold marksAfter
      rw [length_foldl_set, length_foldl_set]
    · show (applySwitch x s).slots = _
      rw [atCopy next]
      rfl
    · have current : copyCurrent s = true :=
        (copyCurrent_iff s).2 (acts.imp (fun own => own.1) (fun next => next.2.1))
      have entries (i : Nat) : cacheAt (applySwitch x s) i = cacheAt (makeChanges serial ch s) i := by
        rcases acts with own | next
        · rw [atMaster own]; rfl
        · rw [atCopy next]; rfl
      have blocks : (applySwitch x s).gain = s.gain ∧ (applySwitch x s).loop = s.loop ∧
          (applySwitch x s).queue = s.queue ∧ (applySwitch x s).switches = s.switches := by
        rcases acts with own | next
        · rw [atMaster own]; exact ⟨gain, loop, queue, switches⟩
        · rw [atCopy next]; exact ⟨gain, loop, queue, switches⟩
      refine ⟨blocks.1, blocks.2.1, blocks.2.2.1, blocks.2.2.2, fun i a b ha hb hl => ?_⟩
      show (_ → _ → cacheAt (applySwitch x s) i = _) ∧ (_ → _ → _ → cacheAt (applySwitch x s) i = _) ∧
        (∀ k e, _ → _ → _ → cacheAt (applySwitch x s) i = _)
      rw [entries]
      exact cacheAt_allotted current ha hb hl

end Sys2Proof.Machine
end

section
/-! PROOFS. The queue's own moves (R13 to R17): what admissions and talk decisions leave, drops, admissions and the
snapshot sender's start. -/

namespace Sys2Proof.Machine

open Sys2Proof

/-! ### What admissions and talk decisions leave -/

/-- The two states differ in the queue, the Talk Unit, the owed marks and the notices only. -/
def Admits (s t : State) : Prop :=
  ∃ q tk m a b u p o l x d, t = { s with
    queue := q
    talk := tk
    loop := { s.loop with mapOwed := m, noteOwedA := a, noteOwedB := b, unwrapOwed := u, plan := p }
    lock := { s.lock with noteOwed := o }
    ctl := { s.ctl with notices := l, lost := x, discarded := d } }

theorem Admits.refl (s : State) : Admits s s := ⟨_, _, _, _, _, _, _, _, _, _, _, rfl⟩

theorem Admits.trans {s t u : State} (h : Admits s t) (k : Admits t u) : Admits s u := by
  obtain ⟨_, _, _, _, _, _, _, _, _, _, _, rfl⟩ := h
  obtain ⟨_, _, _, _, _, _, _, _, _, _, _, rfl⟩ := k
  exact ⟨_, _, _, _, _, _, _, _, _, _, _, rfl⟩

theorem Admits.foldl {α : Type} {f : State → α → State} (h : ∀ s x, Admits s (f s x)) (l : List α) (s : State) :
    Admits s (l.foldl f s) := by
  induction l generalizing s with
  | nil => exact .refl s
  | cons x l ih => exact (h s x).trans (ih _)

theorem Admits.blocks {s t : State} (h : Admits s t) : t.start = s.start ∧ t.portA = s.portA ∧ t.portB = s.portB ∧
    t.snap = s.snap ∧ t.switches = s.switches ∧ t.slots = s.slots ∧ t.lanes = s.lanes ∧ t.gain = s.gain ∧
    t.safety = s.safety ∧ t.supervision = s.supervision := by
  obtain ⟨_, _, _, _, _, _, _, _, _, _, _, rfl⟩ := h
  exact ⟨rfl, rfl, rfl, rfl, rfl, rfl, rfl, rfl, rfl, rfl⟩

theorem Admits.mode {s t : State} (h : Admits s t) : loopMode t = loopMode s := by
  obtain ⟨_, _, _, _, _, _, _, _, _, _, _, rfl⟩ := h
  exact loopMode_congr rfl rfl rfl rfl rfl rfl rfl rfl rfl

theorem notify_admits (n : Notice) (s : State) : Admits s (notify n s) := by
  obtain ⟨l, b, d, h⟩ := notify_eq n s
  exact ⟨_, _, _, _, _, _, _, _, l, b, d, h⟩

theorem push_admits (d : QDest) (m : LoopMsg) (o : Option Byte) (c : GainCause) (s : State) :
    Admits s (push d m o c s) := ⟨_, _, _, _, _, _, _, _, _, _, _, rfl⟩

theorem pushInternal_admits (d : QDest) (m : LoopMsg) (s : State) : Admits s (pushInternal d m s) := by
  unfold pushInternal
  split
  · exact push_admits _ _ _ _ _
  · exact notify_admits _ _

theorem setBusRec_admits (b : Bus) (r : BusRec) (s : State) : Admits s (setBusRec b r s) :=
  ⟨_, _, _, _, _, _, _, _, _, _, _, rfl⟩

theorem modifyKey_admits (k : KeyName) (f : KeyRec → KeyRec) (s : State) : Admits s (modifyKey k f s) :=
  ⟨_, _, _, _, _, _, _, _, _, _, _, rfl⟩

theorem endKey_admits (k : KeyName) (st : KeyState) (c : KeyCause) (s : State) : Admits s (endKey k st c s) :=
  (modifyKey_admits _ _ _).trans (notify_admits _ _)

theorem issueGrant_admits (b : Bus) (s : State) : Admits s (issueGrant b s) := by
  unfold issueGrant
  simp only
  split
  · exact ⟨_, _, _, _, _, _, _, _, _, _, _, rfl⟩
  · split
    · exact (setBusRec_admits _ _ _).trans (push_admits _ _ _ _ _)
    · exact (setBusRec_admits _ _ _).trans (setBusRec_admits _ _ _)

theorem refuseClaim_admits (b : Bus) (t : Talker) (why : TalkReason) (s : State) :
    Admits s (refuseClaim b t why s) := by
  unfold refuseClaim applyRefuse
  simp only
  repeat' split
  · exact endKey_admits _ _ _ _
  · exact endKey_admits _ _ _ _
  · exact .refl s
  · exact pushInternal_admits _ _ _

theorem carryOut_admits (b : Bus) (t : Talker) (d : TalkDecision) (s : State) : Admits s (carryOut b t d s) := by
  unfold carryOut
  split
  · exact issueGrant_admits _ _
  · exact refuseClaim_admits _ _ _ _
  · exact .refl s

theorem takeTalkRelease_admits (b : Bus) (t : Talker) (s : State) : Admits s (takeTalkRelease b t s) := by
  unfold takeTalkRelease
  split
  · exact (setBusRec_admits _ _ _).trans (carryOut_admits _ _ _ _)
  · exact .refl s

theorem sendRelease_admits (k : KeyName) (s : State) : Admits s (sendRelease k s) := by
  unfold sendRelease
  simp only
  repeat' split
  · exact takeTalkRelease_admits _ _ _
  · exact push_admits _ _ _ _ _
  · exact modifyKey_admits _ _ _

theorem claimDropped_admits (k : KeyName) (s : State) : Admits s (claimDropped k s) := by
  unfold claimDropped
  split
  · exact (endKey_admits _ _ _ _).trans (sendRelease_admits _ _)
  · exact .refl s

theorem admitGrant_admits (s : State) (b : Bus) : Admits s (admitGrant s b) := by
  unfold admitGrant
  split
  · exact (setBusRec_admits _ _ _).trans (issueGrant_admits _ _)
  · exact .refl s

theorem admitRelease_admits (s : State) (k : KeyName) : Admits s (admitRelease s k) := by
  unfold admitRelease
  split
  · exact (modifyKey_admits _ _ _).trans (sendRelease_admits _ _)
  · exact .refl s

theorem publishMap_admits (s : State) : Admits s (publishMap s) := by
  unfold publishMap
  repeat' split
  all_goals exact ⟨_, _, _, _, _, _, _, _, _, _, _, rfl⟩

theorem admitMap_admits (s : State) : Admits s (admitMap s) := by
  unfold admitMap
  split
  · exact Admits.trans ⟨_, _, _, _, _, _, _, _, _, _, _, rfl⟩ (publishMap_admits _)
  · exact .refl s

theorem pushLinkNote_admits (p : PortId) (s : State) : Admits s (pushLinkNote p s) := by
  unfold pushLinkNote
  repeat' split
  all_goals exact ⟨_, _, _, _, _, _, _, _, _, _, _, rfl⟩

theorem admitNotes_admits (s : State) : Admits s (admitNotes s) := by
  have first : Admits s (if s.loop.noteOwedA && queueRoom s then
      pushLinkNote .a { s with loop := { s.loop with noteOwedA := false } } else s) := by
    split
    · exact Admits.trans ⟨_, _, _, _, _, _, _, _, _, _, _, rfl⟩ (pushLinkNote_admits _ _)
    · exact .refl s
  unfold admitNotes
  simp only
  generalize (if s.loop.noteOwedA && queueRoom s then
      pushLinkNote .a { s with loop := { s.loop with noteOwedA := false } } else s) = u at first
  split
  · exact first.trans (Admits.trans ⟨_, _, _, _, _, _, _, _, _, _, _, rfl⟩ (pushLinkNote_admits _ _))
  · exact first

theorem clearPlan_admits (l : Link) (s : State) : Admits s (clearPlan l s) := by
  unfold clearPlan
  repeat' split
  · exact ⟨_, _, _, _, _, _, _, _, _, _, _, rfl⟩
  · exact .refl s
  · exact .refl s

theorem sendUnwrap_admits (l : Link) (s : State) : Admits s (sendUnwrap l s) := by
  unfold sendUnwrap
  repeat' split
  · exact (push_admits _ _ _ _ _).trans (clearPlan_admits _ _)
  · exact .refl s
  · exact ⟨_, _, _, _, _, _, _, _, _, _, _, rfl⟩

theorem admitUnwrap_admits (s : State) (l : Link) : Admits s (admitUnwrap s l) := by
  unfold admitUnwrap
  split
  · exact Admits.trans ⟨_, _, _, _, _, _, _, _, _, _, _, rfl⟩ (sendUnwrap_admits _ _)
  · exact .refl s

theorem pushLockNote_admits (s : State) : Admits s (pushLockNote s) := by
  unfold pushLockNote
  repeat' split
  all_goals exact ⟨_, _, _, _, _, _, _, _, _, _, _, rfl⟩

theorem admitLockNote_admits (s : State) : Admits s (admitLockNote s) := by
  unfold admitLockNote
  split
  · exact Admits.trans ⟨_, _, _, _, _, _, _, _, _, _, _, rfl⟩ (pushLockNote_admits _)
  · exact .refl s

/-- Admissions leave everything but the queue, the Talk Unit, the owed marks and the notices. -/
theorem admitOwed_admits (s : State) : Admits s (admitOwed s) := by
  unfold admitOwed
  exact ((((Admits.foldl admitGrant_admits _ _).trans (Admits.foldl admitRelease_admits _ _)).trans
    ((admitMap_admits _).trans (admitNotes_admits _))).trans (Admits.foldl admitUnwrap_admits _ _)).trans
    (admitLockNote_admits _)

/-! ### Writing the cell elsewhere (R13) -/

theorem writeCell_cells (f : Frame) (s : State) :
    (writesCells (loopMode s) = false → (writeCell f s).2 = f.cells) ∧
      ∀ i, i ≠ s.start.id.val → (writeCell f s).2[i]? = f.cells[i]? := by
  have mode := (admitOwed_admits s).mode
  unfold writeCell
  simp only [mode]
  refine ⟨fun h => by rw [if_neg (by simp [h])], fun i hi => ?_⟩
  split
  · exact List.getElem?_set_ne (Ne.symm hi)
  · rfl

end Sys2Proof.Machine
end

section
/-! PROOFS. Drops (R13, R139): a grant or refusal of an earlier epoch at the head, a message and a piece sent 4 times
without confirmation, and what the drop means to the message's owner. -/

namespace Sys2Proof.Machine

open Sys2Proof

/-! ### Settled states and the parts they do not read -/

/-- The queue, the Talk Unit, the snapshot sender, the pending entries and the Control Port are not read. -/
theorem Settled.unread {s : State} (h : Settled s) (q : QueueRec) (k : TalkRec) (r : SnapRec)
    (y : List PendingSwitch) (c : ControlRec) :
    Settled { s with queue := q, talk := k, snap := r, switches := y, ctl := c } :=
  ⟨h.1, h.2, h.3, h.4, h.5, h.6⟩

theorem Admits.settled {s t : State} (h : Admits s t) (hs : Settled s) : Settled t := by
  have mode := h.mode
  obtain ⟨_, _, _, _, _, _, _, _, _, _, _, rfl⟩ := h
  exact hs.of_same mode rfl rfl rfl rfl rfl rfl rfl rfl rfl rfl rfl

/-! ### Talk releases (R133, R137, R139) -/

theorem issueGrant_ctl (b : Bus) (s : State) (c : ControlRec) :
    issueGrant b { s with ctl := c } = { issueGrant b s with ctl := c } := by
  unfold issueGrant
  by_cases unsent : hasUnsent (isGrantOf b) s = true
  · simp only [unsent, if_true]
    exact if_pos unsent
  · by_cases room : queueRoom s = true
    · simp only [unsent, room, if_true, Bool.false_eq_true, if_false]
      exact (if_neg unsent).trans (if_pos room)
    · simp only [unsent, room, Bool.false_eq_true, if_false]
      exact (if_neg unsent).trans (if_neg room)

/-- A release is granted on or passes; it is never refused. -/
theorem decideRelease_cases (t : Talker) (r : BusRec) :
    (decideRelease t r).2 = .grant ∨ (decideRelease t r).2 = .nothing := by
  unfold decideRelease
  split
  · exact .inr rfl
  · split
    · exact .inl rfl
    · exact .inr rfl

theorem takeTalkRelease_grant {b : Bus} {t : Talker} {s : State} (h : decidesTalk s = true)
    (k : (decideRelease t (busAt s b)).2 = .grant) :
    takeTalkRelease b t s = issueGrant b (setBusRec b (decideRelease t (busAt s b)).1 s) := by
  unfold takeTalkRelease
  rw [if_pos h]
  simp only [k, carryOut]

theorem takeTalkRelease_pass {b : Bus} {t : Talker} {s : State} (h : decidesTalk s = true)
    (k : (decideRelease t (busAt s b)).2 = .nothing) :
    takeTalkRelease b t s = setBusRec b (decideRelease t (busAt s b)).1 s := by
  unfold takeTalkRelease
  rw [if_pos h]
  simp only [k, carryOut]

theorem takeTalkRelease_idle {b : Bus} {t : Talker} {s : State} (h : decidesTalk s = false) :
    takeTalkRelease b t s = s := if_neg (by simp [h])

theorem takeTalkRelease_ctl (b : Bus) (t : Talker) (s : State) (c : ControlRec) :
    takeTalkRelease b t { s with ctl := c } = { takeTalkRelease b t s with ctl := c } := by
  cases h : decidesTalk s with
  | false => rw [takeTalkRelease_idle h]; exact takeTalkRelease_idle h
  | true =>
    rcases decideRelease_cases t (busAt s b) with k | k
    · rw [takeTalkRelease_grant h k, ← issueGrant_ctl]
      exact takeTalkRelease_grant (s := { s with ctl := c }) h k
    · rw [takeTalkRelease_pass h k]
      exact takeTalkRelease_pass (s := { s with ctl := c }) h k

/-- A release does not look at the Control Port. -/
theorem sendRelease_ctl (k : KeyName) (s : State) (c : ControlRec) :
    sendRelease k { s with ctl := c } = { sendRelease k s with ctl := c } := by
  unfold sendRelease
  by_cases origin : s.isOrigin = true
  · rw [if_pos origin, ← takeTalkRelease_ctl]
    exact if_pos origin
  · rw [if_neg origin]
    by_cases room : queueRoom s = true
    · rw [if_pos room]
      exact (if_neg origin).trans (if_pos room)
    · rw [if_neg room]
      exact (if_neg origin).trans (if_neg room)

theorem ctl_issueGrant (b : Bus) (s : State) : (issueGrant b s).ctl = s.ctl := by
  unfold issueGrant
  simp only
  split
  · rfl
  · split <;> rfl

theorem ctl_takeTalkRelease (b : Bus) (t : Talker) (s : State) : (takeTalkRelease b t s).ctl = s.ctl := by
  cases h : decidesTalk s with
  | false => rw [takeTalkRelease_idle h]
  | true =>
    rcases decideRelease_cases t (busAt s b) with k | k
    · rw [takeTalkRelease_grant h k, ctl_issueGrant]; rfl
    · rw [takeTalkRelease_pass h k]; rfl

theorem ctl_sendRelease (k : KeyName) (s : State) : (sendRelease k s).ctl = s.ctl := by
  unfold sendRelease
  simp only
  repeat' split
  · exact ctl_takeTalkRelease _ _ _
  · rfl
  · rfl

/-- A key whose record is not at rest is in the key list. -/
theorem keyIndex_lt {s : State} {k : KeyName} (h : keyAt s k ≠ .power) : keyIndex k < s.talk.keys.length := by
  by_contra hk
  exact h (List.getD_eq_default _ _ (not_lt.1 hk))

theorem keyAt_setKeyRec {s : State} {k : KeyName} (h : keyIndex k < s.talk.keys.length) (r : KeyRec) :
    keyAt (setKeyRec k r s) k = r := by
  simp [keyAt, setKeyRec, h]

theorem setKeyRec_setKeyRec (k : KeyName) (r q : KeyRec) (s : State) :
    setKeyRec k q (setKeyRec k r s) = setKeyRec k q s := by
  simp [setKeyRec]

/-- What a release leaves, the key's record set before it. -/
theorem sendRelease_leaves {k : KeyName} {s : State} {r : KeyRec} (hk : keyIndex k < s.talk.keys.length)
    (hc : s.loop.conflict = none) : ReleaseLeaves k r.bus r s (sendRelease k (setKeyRec k r s)) := by
  have key : keyAt (setKeyRec k r s) k = r := keyAt_setKeyRec hk r
  have follower (h : s.loop.role = .follower) : (setKeyRec k r s).isOrigin = false := by
    rw [Bool.eq_false_iff, ne_eq, isOrigin_iff]
    exact fun k => by cases h.symm.trans k
  have origin (h : s.loop.role = .origin) : (setKeyRec k r s).isOrigin = true :=
    (isOrigin_iff _).2 h
  have decides (h : s.loop.role = .origin) : decidesTalk (setKeyRec k r s) = true := by
    show ((setKeyRec k r s).isOrigin && s.loop.conflict.isNone) = true
    rw [origin h, hc]; rfl
  refine ⟨fun h room => ?_, fun h full => ?_, fun h _ d => ?_, fun h _ d => ?_⟩ <;> unfold sendRelease <;>
    simp only [key]
  · rw [if_neg (by simp [follower h]), if_pos (show queueRoom (setKeyRec k r s) = true from decide_eq_true room)]
    rfl
  · rw [if_neg (by simp [follower h]),
      if_neg (show ¬ queueRoom (setKeyRec k r s) = true by
        rw [queueRoom, decide_eq_true_eq]; exact Nat.not_lt.2 full)]
    unfold oweRelease modifyKey
    rw [key, setKeyRec_setKeyRec]
  · rw [if_pos (origin h)]
    exact takeTalkRelease_grant (decides h) d
  · rw [if_pos (origin h)]
    exact takeTalkRelease_pass (decides h) d

/-! ### What stands at the head -/

theorem staleTalk_iff (s : State) (i : QItem) : staleTalk s i = true ↔ i.group ≠ s.loop.group ∧
    ((∃ b x n d, i.body = .talkGrant b x n d) ∨ ∃ b n k r, i.body = .talkRefuse b n k r) := by
  unfold staleTalk
  split
  next b x n d e => simp [e]
  next b n k r e => simp [e]
  next grant refuse =>
    simp only [Bool.false_eq_true, false_iff, not_and, not_or, not_exists]
    exact fun _ => ⟨fun b x n d => grant b x n d, fun b n k r => refuse b n k r⟩

theorem dropStale_live {s : State} {i : QItem} {rest : List QItem} (h : s.queue.items = i :: rest)
    (live : staleTalk s i = false) : dropStale s = s := by
  unfold dropStale
  rw [h, List.dropWhile_cons_of_neg (by simp [live]), ← h]

theorem headSpent_iff (s : State) : headSpent s = true ↔ ∃ i, s.queue.items.head? = some i ∧ 4 ≤ i.sends := by
  unfold headSpent
  split
  next e => simp [e]
  next i _ e => simp [e, Config.sendMax]

theorem pieceSpent_iff (s : State) : pieceSpent s = true ↔ ∃ r, s.snap.run = some r ∧ 4 ≤ r.sends := by
  unfold pieceSpent
  split
  next e => simp [e]
  next r e => simp [e, Config.sendMax]

theorem pieceSpent_false {s : State} (h : ∀ r, s.snap.run = some r → r.sends < 4) : pieceSpent s = false := by
  rw [Bool.eq_false_iff, ne_eq, pieceSpent_iff]
  rintro ⟨r, hr, k⟩
  exact absurd (h r hr) (by omega)

/-- Nothing is dropped (R13): a last send is awaiting its assessment, no cell is written, or nothing is spent. -/
theorem dropAssessed_idle {s : State} (h : s.queue.written.isSome = true ∨ writesCells (loopMode s) = false ∨
    ((∀ i, (s.queue.items.dropWhile (staleTalk s)).head? = some i → i.sends < 4) ∧
      ∀ r, s.snap.run = some r → r.sends < 4)) : dropAssessed s = s := by
  unfold dropAssessed
  split
  next gate =>
    simp only [Bool.and_eq_true, Option.isNone_iff_eq_none] at gate
    rcases h with h | h | ⟨head, piece⟩
    · simp [gate.1] at h
    · simp [gate.2] at h
    · refine if_neg ?_
      simp only [Bool.or_eq_true, headSpent_iff, pieceSpent_iff]
      rintro (⟨i, hi, k⟩ | ⟨r, hr, k⟩)
      · exact absurd (head i hi) (by omega)
      · exact absurd (piece r hr) (by omega)
  next => rfl

/-- A live head sent 4 times is dropped with its effect; with no piece spent that is all (R13). -/
theorem dropAssessed_head {s : State} {i : QItem} {rest : List QItem} (hw : s.queue.written = none)
    (hm : writesCells (loopMode s) = true) (hi : s.queue.items = i :: rest) (live : staleTalk s i = false)
    (spent : 4 ≤ i.sends)
    (piece : ∀ r, (dropEffect i { s with queue := { s.queue with items := rest } }).snap.run = some r → r.sends < 4) :
    dropAssessed s = dropEffect i { s with queue := { s.queue with items := rest } } := by
  have head : headSpent s = true := (headSpent_iff s).2 ⟨i, by simp [hi], spent⟩
  unfold dropAssessed
  rw [if_pos (by simp [hw, hm])]
  simp only [dropStale_live hi live]
  rw [if_pos (by simp [head])]
  unfold dropSpent
  simp only [head, if_true, hi, pieceSpent_false piece, Bool.false_eq_true, if_false]

/-- A spent piece that is not the last gives way to the next (R13, R15). -/
theorem dropAssessed_piece {s : State} {r : SnapRun} (hw : s.queue.written = none)
    (hm : writesCells (loopMode s) = true) (hr : s.snap.run = some r) (spent : 4 ≤ r.sends)
    (head : ∀ i, (s.queue.items.dropWhile (staleTalk s)).head? = some i → i.sends < 4) :
    dropAssessed s = advancePiece (dropStale s) := by
  have piece : pieceSpent (dropStale s) = true := (pieceSpent_iff _).2 ⟨r, hr, spent⟩
  have unspent : headSpent (dropStale s) = false := by
    rw [Bool.eq_false_iff, ne_eq, headSpent_iff]
    rintro ⟨i, hi, k⟩
    exact absurd (head i hi) (by omega)
  unfold dropAssessed
  rw [if_pos (by simp [hw, hm])]
  simp only [piece, Bool.or_true, if_true]
  unfold dropSpent
  simp only [unspent, Bool.false_eq_true, if_false, piece, if_true]

theorem advancePiece_next {s : State} {r : SnapRun} (h : s.snap.run = some r)
    (k : r.piece + 1 < (match r.kind with | .allot => slotCount s.start.rate / 4 | .gain => 16)) :
    advancePiece s = { s with snap := { s.snap with
      run := some { r with piece := r.piece + 1, sends := 0, msg := none } } } := by
  unfold advancePiece
  rw [h]
  simp only
  refine if_neg ?_
  cases hk : r.kind <;> rw [hk] at k
  · exact Nat.not_le.2 k
  · exact Nat.not_le.2 k

/-! ### The snapshot sender's start (R15, R17) -/

theorem snapshotStart_runs {s : State} (h : s.snap.run ≠ none) : snapshotStart s = s :=
  if_pos (Option.isSome_iff_ne_none.2 h)

theorem snapshotStart_idle {s : State} (h : s.snap.pendGain = false)
    (k : s.snap.pendAllot = false ∨ s.queue.outstanding ≠ none) : snapshotStart s = s := by
  unfold snapshotStart outstanding
  split
  · rfl
  · rw [if_neg, if_neg (by simp [h])]
    rcases k with k | k
    · simp [k]
    · simp [Option.isSome_iff_ne_none.2 k]

theorem snapshotStart_allot {s : State} (h : s.snap.run = none) (k : s.snap.pendAllot = true)
    (o : s.queue.outstanding = none) : snapshotStart s =
      { s with snap := { s.snap with run := some ⟨.allot, 0, 0, 0, none, none⟩, pendAllot := false } } := by
  unfold snapshotStart outstanding
  rw [if_neg (by simp [h]), if_pos (by simp [k, o])]

theorem snapshotStart_gain {s : State} (h : s.snap.run = none)
    (k : s.snap.pendAllot = false ∨ s.queue.outstanding ≠ none) (g : s.snap.pendGain = true) : snapshotStart s =
      { s with snap := { s.snap with run := some ⟨.gain, 0, 0, 0, none, none⟩, pendGain := false } } := by
  unfold snapshotStart outstanding
  rw [if_neg (by simp [h]), if_neg, if_pos g]
  rcases k with k | k
  · simp [k]
  · simp [Option.isSome_iff_ne_none.2 k]

end Sys2Proof.Machine
end

section
/-! PROOFS. ITEM_DROP (R13): the drop of each kind of message, and OWED_ADMIT and SNAPSHOT_START (R14, R15). -/

namespace Sys2Proof.Machine

open Sys2Proof

/-! ### The drop of each kind of message -/

theorem event_dropped {s v : State} {i : QItem} {rest : List QItem} (hr : s.inReset = false)
    (hw : s.queue.written = none) (hm : writesCells (loopMode s) = true) (hi : s.queue.items = i :: rest)
    (live : staleTalk s i = false) (spent : 4 ≤ i.sends)
    (e : dropEffect i { s with queue := { s.queue with items := rest } } = v)
    (piece : ∀ r, v.snap.run = some r → r.sends < 4) (hv : Settled v) (hc : v.ctl = s.ctl)
    (hst : v.start.line = s.start.line) : ∃ t, exec .itemDrop s = .next t ∧ Happened [] s v t :=
  event_changed hr ((dropAssessed_head hw hm hi live spent (e ▸ piece)).trans e) hv hc hst

theorem staleTalk_other {s : State} {i : QItem} (grant : ∀ b x n d, i.body ≠ .talkGrant b x n d)
    (refuse : ∀ b n k r, i.body ≠ .talkRefuse b n k r) : staleTalk s i = false := by
  rw [Bool.eq_false_iff, ne_eq, staleTalk_iff]
  rintro ⟨-, ⟨b, x, n, d, e⟩ | ⟨b, n, k, r, e⟩⟩
  · exact grant b x n d e
  · exact refuse b n k r e

theorem staleTalk_group {s : State} {i : QItem} (h : i.group = s.loop.group) : staleTalk s i = false := by
  rw [Bool.eq_false_iff, ne_eq, staleTalk_iff]
  exact fun k => k.1 h

/-- What the unconfirmed ALLOT leaves unsettled (R85). -/
theorem unsettled_dropped (c : List SlotChange) {marks : List Bool} {k : Nat} {x : Bool} (h : marks[k]? = some x) :
    ((freedSlots c).foldl (fun l n => l.set n true) marks)[k]? = some (x || decide (⟨k, none⟩ ∈ c)) := by
  have freed : k ∈ freedSlots c ↔ (⟨k, none⟩ : SlotChange) ∈ c := by
    rw [mem_freedSlots]
    constructor
    · rintro ⟨y, hy, rfl, hw⟩
      rwa [← hw]
    · exact fun hy => ⟨_, hy, rfl, rfl⟩
  rw [getElem?_foldl_set, h]
  split
  next hk => simp [freed.1 hk]
  next hk => simp [mt freed.2 hk]

/-- What a fresh snapshot mark leaves (R15, R85, R88). -/
theorem needAllotSnap_eq (s : State) : needAllotSnap s = { s with
    snap := if s.snap.run ≠ none then { s.snap with pendAllot := true }
      else if s.queue.outstanding = none then
        { s.snap with run := some ⟨.allot, 0, 0, 0, none, none⟩, pendAllot := false }
      else if s.snap.pendGain = true then
        { s.snap with run := some ⟨.gain, 0, 0, 0, none, none⟩, pendAllot := true, pendGain := false }
      else { s.snap with pendAllot := true } } := by
  let marked : State := { s with snap := { s.snap with pendAllot := true } }
  unfold needAllotSnap
  by_cases run : s.snap.run = none
  · rw [if_neg (by simp [run])]
    by_cases waits : s.queue.outstanding = none
    · rw [if_pos waits]
      exact snapshotStart_allot (s := marked) run rfl waits
    · rw [if_neg waits]
      by_cases gain : s.snap.pendGain = true
      · rw [if_pos gain]
        exact snapshotStart_gain (s := marked) run (.inr waits) gain
      · rw [if_neg gain]
        exact snapshotStart_idle (s := marked) (by simpa using gain) (.inr waits)
  · rw [if_pos run]
    exact snapshotStart_runs (s := marked) run

theorem needGainSnap_eq (s : State) : needGainSnap s = { s with
    snap := if s.start.func = .desk then s.snap
      else if s.snap.run ≠ none then { s.snap with pendGain := true }
      else if s.snap.pendAllot = true ∧ s.queue.outstanding = none then
        { s.snap with run := some ⟨.allot, 0, 0, 0, none, none⟩, pendAllot := false, pendGain := true }
      else { s.snap with run := some ⟨.gain, 0, 0, 0, none, none⟩, pendGain := false } } := by
  let marked : State := { s with snap := { s.snap with pendGain := true } }
  unfold needGainSnap
  cases func : s.start.func
  case desk => rw [if_neg (by simp [isStage_iff, func]), if_pos rfl]
  case stage =>
    rw [if_pos ((isStage_iff s).2 func), if_neg (by simp)]
    by_cases run : s.snap.run = none
    · rw [if_neg (by simp [run])]
      by_cases k : s.snap.pendAllot = true ∧ s.queue.outstanding = none
      · rw [if_pos k]
        exact snapshotStart_allot (s := marked) run k.1 k.2
      · rw [if_neg k]
        refine snapshotStart_gain (s := marked) run ?_ rfl
        by_cases o : s.queue.outstanding = none
        · exact .inl (by simpa [o] using k)
        · exact .inr o
    · rw [if_pos run]
      exact snapshotStart_runs (s := marked) run

/-- A running snapshot whose piece is unspent, or a fresh one, is unspent. -/
theorem unspent_ite {p : Prop} [Decidable p] {a b : SnapRec} (ha : ∀ r, a.run = some r → r.sends < 4)
    (hb : ∀ r, b.run = some r → r.sends < 4) : ∀ r, (if p then a else b).run = some r → r.sends < 4 := by
  split
  · exact ha
  · exact hb

theorem unspent_fresh {k : SnapKind} : ∀ r, some (⟨k, 0, 0, 0, none, none⟩ : SnapRun) = some r → r.sends < 4 := by
  rintro _ ⟨⟩
  exact Nat.zero_lt_succ _

theorem endKey_eq {s : State} {k : KeyName} (h : keyIndex k < s.talk.keys.length) (st : KeyState) (c : KeyCause) :
    endKey k st c s =
      notify (.keyChange k (keyAt s k).bus st false c) (setKeyRec k (restKey st (keyAt s k)) s) := by
  unfold endKey notifyKey modifyKey
  simp only [keyAt_setKeyRec h]
  rfl

/-- A claim of this node is dropped (R134). -/
theorem claimDropped_leaves {a : State} {k : KeyName} (hk : (keyAt a k).state = .claiming)
    (hc : a.loop.conflict = none) (hs : Settled a) :
    ∃ u, ReleaseLeaves k (keyAt a k).bus { keyAt a k with
        state := .dropped, latched := false, press := none, answer := none } a u ∧ Settled (claimDropped k a) ∧
      SameBlocks u (claimDropped k a) ∧ Raised [.keyChange k (keyAt a k).bus .dropped false .lost] a (claimDropped k a) ∧
      (claimDropped k a).ctl.inbox = a.ctl.inbox ∧ (claimDropped k a).ctl.made = a.ctl.made ∧
      (claimDropped k a).ctl.chosen = a.ctl.chosen := by
  have listed : keyIndex k < a.talk.keys.length := keyIndex_lt fun e => by rw [e] at hk; cases hk
  have settled := (claimDropped_admits k a).settled hs
  have dropped : claimDropped k a = sendRelease k (notify (.keyChange k (keyAt a k).bus .dropped false .lost)
      (setKeyRec k (restKey .dropped (keyAt a k)) a)) := by
    unfold claimDropped
    rw [if_pos hk, endKey_eq listed]
  obtain ⟨l, b, d, hn⟩ := notify_eq (.keyChange k (keyAt a k).bus .dropped false .lost)
    (setKeyRec k (restKey .dropped (keyAt a k)) a)
  have raised := Raised.notify (.keyChange k (keyAt a k).bus .dropped false .lost)
    (setKeyRec k (restKey .dropped (keyAt a k)) a)
  rw [hn] at raised dropped
  rw [sendRelease_ctl] at dropped
  rw [dropped] at settled ⊢
  have ctl := ctl_sendRelease k (setKeyRec k (restKey .dropped (keyAt a k)) a)
  refine ⟨_, sendRelease_leaves (r := restKey .dropped (keyAt a k)) listed hc, settled, ?_,
    raised.of_eq rfl rfl rfl rfl, rfl, rfl, rfl⟩
  exact ⟨rfl, rfl, rfl, rfl, rfl, rfl, rfl, rfl, rfl, rfl, rfl, rfl, rfl, rfl, by rw [ctl], by rw [ctl], by rw [ctl],
    by rw [ctl], by rw [ctl]⟩

/-- ITEM_DROP at a spent head (R13). -/
theorem itemDrop_head {s : State} {i : QItem} {rest : List QItem} (hr : s.inReset = false) (hs : Settled s)
    (hw : s.queue.written = none) (hm : writesCells (loopMode s) = true) (hi : s.queue.items = i :: rest)
    (spent : 4 ≤ i.sends) (piece : ∀ r, s.snap.run = some r → r.sends < 4) :
    let dropped : State := { s with queue := { s.queue with items := rest } }
    (∀ n, i.op = none → i.body = .lockNote n → ∃ t, exec .itemDrop s = .next t ∧
      Happened [] s { dropped with lock := { s.lock with noteOwed := true } } t) ∧
    (i.op = none → (∃ p st m q g, i.body = .linkNote p st m q g) ∨ (∃ n l, i.body = .map n l) ∨
        (∃ n, i.body = .snapReq n) ∨ (∃ x l, i.body = .slotAnswer x l) ∨ (∃ x v, i.body = .gainAnswer x v) ∨
        (∃ k, i.body = .wrapPlan k) ∨ (∃ k, i.body = .unwrapPlan k) ∨
        ((∃ b n k r, i.body = .talkRefuse b n k r) ∧ i.group = s.loop.group) →
      ∃ t, exec .itemDrop s = .next t ∧ Happened [] s dropped t) ∧
    (∀ n c, i.op = none → i.body = .allot n c → ∃ t u, exec .itemDrop s = .next t ∧
      (∀ (k : Nat) (x : Bool), s.slots.unsettled[k]? = some x →
        u[k]? = some (x || decide (⟨k, none⟩ ∈ c))) ∧
      Happened [] s { dropped with
        slots := { s.slots with unsettled := u }
        snap := if s.snap.run ≠ none then { s.snap with pendAllot := true }
          else if s.queue.outstanding = none then
            { s.snap with run := some ⟨.allot, 0, 0, 0, none, none⟩, pendAllot := false }
          else if s.snap.pendGain = true then
            { s.snap with run := some ⟨.gain, 0, 0, 0, none, none⟩, pendAllot := true, pendGain := false }
          else { s.snap with pendAllot := true } } t) ∧
    (∀ n g k, i.op = none → i.body = .gainNote n g k → ∃ t, exec .itemDrop s = .next t ∧
      Happened [] s { dropped with
        snap := if s.start.func = .desk then s.snap
          else if s.snap.run ≠ none then { s.snap with pendGain := true }
          else if s.snap.pendAllot = true ∧ s.queue.outstanding = none then
            { s.snap with run := some ⟨.allot, 0, 0, 0, none, none⟩, pendAllot := false, pendGain := true }
          else { s.snap with run := some ⟨.gain, 0, 0, 0, none, none⟩, pendGain := false } } t) ∧
    (∀ b k prio, i.op = none → i.body = .talkClaim b k prio →
      ((keyAt s k).state ≠ .claiming → ∃ t, exec .itemDrop s = .next t ∧ Happened [] s dropped t) ∧
      ((keyAt s k).state = .claiming → s.loop.conflict = none → ∃ t u, exec .itemDrop s = .next t ∧
        ReleaseLeaves k (keyAt s k).bus { keyAt s k with
          state := .dropped, latched := false, press := none, answer := none } dropped u ∧
        Happened [.keyChange k (keyAt s k).bus .dropped false .lost] s u t)) ∧
    (∀ b k, i.op = none → i.body = .talkRelease b k → ∃ t, exec .itemDrop s = .next t ∧
      Happened [] s (setKeyRec k { keyAt s k with releaseOwed := true } dropped) t) ∧
    (∀ b x n d, i.op = none → i.body = .talkGrant b x n d → i.group = s.loop.group →
      ∃ t, exec .itemDrop s = .next t ∧
        Happened [] s (setBusRec b { busAt s b with owed := true } dropped) t) ∧
    (∀ tag o, i.op = some tag → findOp tag s = some o →
      (∃ x l, i.body = .slotClaim x l) ∨ (∃ x l, i.body = .slotRelease x l) ∨
        (∃ x n a b d, i.body = .gainSet x n a b d) ∨ (∃ x n b, i.body = .gainClaim x n b) ∨
        (∃ x n, i.body = .gainYield x n) ∨ (∃ k, i.body = .unwrapPlan k) →
      ∃ t, exec .itemDrop s = .next t ∧
        Happened [.done tag o.kind (.no .lost) (bareResult o)] s
          { dropped with
            switches := s.switches.map fun y => if y.op = some tag then { y with op := none } else y
            ctl := (opEnded ⟨tag, o.kind, .no .lost, bareResult o⟩ s.ctl) } t) := by
  intro dropped
  have at_rest : Settled dropped := hs.unread _ _ _ _ _
  have plain (live : staleTalk s i = false) (v : State) (e : dropEffect i dropped = v) (hv : Settled v)
      (hp : ∀ r, v.snap.run = some r → r.sends < 4) (hc : v.ctl = s.ctl) (hl : v.start.line = s.start.line) :
      ∃ t, exec .itemDrop s = .next t ∧ Happened [] s v t :=
    event_dropped hr hw hm hi live spent e hp hv hc hl
  refine ⟨fun n op body => ?_, fun op body => ?_, fun n c op body => ?_, fun n g k op body => ?_,
    fun b k prio op body => ⟨fun idle => ?_, fun claiming conflict => ?_⟩, fun b k op body => ?_,
    fun b x n d op body group => ?_, fun tag o op found body => ?_⟩
  · refine plain (staleTalk_other (by simp [body]) (by simp [body])) _ ?_ ?_ piece rfl rfl
    · simp only [dropEffect, op, body]; rfl
    · exact ⟨at_rest.1, at_rest.2, at_rest.3, at_rest.4, at_rest.5, at_rest.6⟩
  · have live : staleTalk s i = false := by
      rcases body with ⟨_, _, _, _, _, body⟩ | ⟨_, _, body⟩ | ⟨_, body⟩ | ⟨_, _, body⟩ | ⟨_, _, body⟩ | ⟨_, body⟩ |
        ⟨_, body⟩ | ⟨-, group⟩
      case inr.inr.inr.inr.inr.inr.inr => exact staleTalk_group group
      all_goals exact staleTalk_other (by simp [body]) (by simp [body])
    refine plain live _ ?_ at_rest piece rfl rfl
    rcases body with ⟨_, _, _, _, _, body⟩ | ⟨_, _, body⟩ | ⟨_, body⟩ | ⟨_, _, body⟩ | ⟨_, _, body⟩ | ⟨_, body⟩ |
      ⟨_, body⟩ | ⟨⟨_, _, _, _, body⟩, -⟩
    all_goals simp only [dropEffect, op, body]; rfl
  · obtain ⟨t, ht, happened⟩ := plain (staleTalk_other (by simp [body]) (by simp [body])) _
      (show _ = needAllotSnap (markUnsettled (freedSlots c) true dropped) by
        simp only [dropEffect, op, body]; rfl)
      (by rw [needAllotSnap_eq]; exact ⟨hs.1, hs.2, hs.3, hs.4, hs.5, hs.6⟩)
      (by
        rw [needAllotSnap_eq]
        exact unspent_ite piece (unspent_ite unspent_fresh (unspent_ite unspent_fresh piece)))
      (by rw [needAllotSnap_eq]; rfl) (by rw [needAllotSnap_eq]; rfl)
    rw [needAllotSnap_eq] at happened
    exact ⟨t, _, ht, fun k x hx => unsettled_dropped c hx, happened⟩
  · obtain ⟨t, ht, happened⟩ := plain (staleTalk_other (by simp [body]) (by simp [body])) (needGainSnap dropped)
      (by simp only [dropEffect, op, body]; rfl)
      (by rw [needGainSnap_eq]; exact ⟨hs.1, hs.2, hs.3, hs.4, hs.5, hs.6⟩)
      (by
        rw [needGainSnap_eq]
        exact unspent_ite piece (unspent_ite piece (unspent_ite unspent_fresh unspent_fresh)))
      (by rw [needGainSnap_eq]) (by rw [needGainSnap_eq])
    rw [needGainSnap_eq] at happened
    exact ⟨t, ht, happened⟩
  · refine plain (staleTalk_other (by simp [body]) (by simp [body])) _ ?_ at_rest piece rfl rfl
    simp only [dropEffect, op, body]
    exact if_neg idle
  · obtain ⟨u, leaves, settled, blocks, raised, inbox, made, chosen⟩ :=
      claimDropped_leaves (a := dropped) claiming conflict at_rest
    have effect : dropEffect i dropped = claimDropped k dropped := by simp only [dropEffect, op, body]; rfl
    have admits := (claimDropped_admits k dropped).blocks
    obtain ⟨t, ht, happened⟩ := event_noticed hr
      ((dropAssessed_head hw hm hi (staleTalk_other (by simp [body]) (by simp [body])) spent
        (by rw [effect, admits.2.2.2.1]; exact piece)).trans effect)
      settled (raised.of_eq rfl rfl rfl rfl) blocks inbox made chosen (congrArg StartRec.line admits.1)
    exact ⟨t, u, ht, leaves, happened⟩
  · refine plain (staleTalk_other (by simp [body]) (by simp [body])) _ ?_ ?_ piece rfl rfl
    · simp only [dropEffect, op, body]; rfl
    · exact hs.unread _ _ _ _ _
  · refine plain (staleTalk_group group) _ ?_ ?_ piece rfl rfl
    · simp only [dropEffect, op, body]; rfl
    · exact hs.unread _ _ _ _ _
  · have found' : findOp tag (forgetEntry tag dropped) = some o := found
    have live : staleTalk s i = false := by
      refine staleTalk_other (fun b x n d e => ?_) (fun b n k r e => ?_) <;> simp [e] at body
    have effect : dropEffect i dropped = endOp tag (.no .lost) (bareResult o) (forgetEntry tag dropped) := by
      have lost : loseOp i.op dropped = endOp tag (.no .lost) (bareResult o) (forgetEntry tag dropped) := by
        unfold loseOp
        rw [op]
        simp only
        rw [show findOp tag dropped = some o from found]
      unfold dropEffect
      rw [lost]
      rcases body with ⟨_, _, body⟩ | ⟨_, _, body⟩ | ⟨_, _, _, _, _, body⟩ | ⟨_, _, _, body⟩ | ⟨_, _, body⟩ | ⟨_, body⟩
      all_goals simp only [body]
    obtain ⟨blocks, raised, inbox, made, chosen⟩ := endOp_raised (v := .no .lost) (r := bareResult o) found'
    exact event_noticed hr
      ((dropAssessed_head hw hm hi live spent (by rw [effect, blocks.snap]; exact piece)).trans effect)
      (endOp_settled (hs.unread _ _ _ _ _)) (raised.of_eq rfl rfl rfl rfl) blocks inbox made chosen
      (congrArg StartRec.line blocks.start)

end Sys2Proof.Machine
end

section
/-! PROOFS. OWED_ADMIT (R14): what each admission does where its mark is clear, where the queue is full, and where it
alone is owed; and SNAPSHOT_START (R15). -/

namespace Sys2Proof.Machine

open Sys2Proof

/-! ### One admission out of many -/

/-- A pass over a list of which one member alone has an effect. -/
theorem foldl_one {α : Type} {f : State → α → State} {l : List α} {s : State} {x : α} (hl : l.Nodup) (hx : x ∈ l)
    (before : ∀ y, y ≠ x → f s y = s) (after : ∀ y, y ≠ x → f (f s x) y = f s x) : l.foldl f s = f s x := by
  obtain ⟨a, b, rfl⟩ := List.append_of_mem hx
  have still (m : List α) (t : State) (h : ∀ y ∈ m, f t y = t) : m.foldl f t = t := by
    induction m with
    | nil => rfl
    | cons y m ih => rw [List.foldl_cons, h y (by simp), ih fun z hz => h z (by simp [hz])]
  have apart := List.nodup_middle.1 hl
  rw [List.nodup_cons, List.mem_append, not_or] at apart
  rw [List.foldl_append, List.foldl_cons, still a s fun y hy => before y fun e => apart.1.1 (e ▸ hy),
    still b _ fun y hy => after y fun e => apart.1.2 (e ▸ hy)]

theorem mem_allBuses (b : Bus) : b ∈ allBuses := by cases b <;> decide
theorem mem_allKeys (k : KeyName) : k ∈ allKeys := by cases k <;> decide

theorem queueRoom_iff (s : State) : queueRoom s = true ↔ s.queue.items.length < 16 := decide_eq_true_iff

theorem busIndex_inj {b c : Bus} (h : busIndex b = busIndex c) : b = c := by
  cases b <;> cases c <;> simp_all [busIndex]

theorem keyIndex_inj {k c : KeyName} (h : keyIndex k = keyIndex c) : k = c := by
  cases k <;> cases c <;> simp_all [keyIndex]

/-- Another bus's record stands. -/
theorem busAt_setBusRec_other {b c : Bus} (h : c ≠ b) (r : BusRec) (s : State) :
    busAt (setBusRec b r s) c = busAt s c := by
  have apart : busIndex b ≠ busIndex c := fun e => h (busIndex_inj e).symm
  simp [busAt, setBusRec, List.getD_eq_getElem?_getD, apart]

/-- Another key's record stands. -/
theorem keyAt_setKeyRec_other {k c : KeyName} (h : c ≠ k) (r : KeyRec) (s : State) :
    keyAt (setKeyRec k r s) c = keyAt s c := by
  have apart : keyIndex k ≠ keyIndex c := fun e => h (keyIndex_inj e).symm
  simp [keyAt, setKeyRec, List.getD_eq_getElem?_getD, apart]

/-! ### What an admission of a grant or a release leaves alone -/

theorem parts_issueGrant (b : Bus) (s : State) : (issueGrant b s).loop = s.loop ∧ (issueGrant b s).lock = s.lock ∧
    (issueGrant b s).talk.keys = s.talk.keys ∧ ∀ c, c ≠ b → busAt (issueGrant b s) c = busAt s c := by
  unfold issueGrant
  simp only
  split
  · exact ⟨rfl, rfl, rfl, fun c hc => busAt_setBusRec_other hc _ s⟩
  · split
    · exact ⟨rfl, rfl, rfl, fun c hc => busAt_setBusRec_other hc _ s⟩
    · exact ⟨rfl, rfl, rfl, fun c hc => (busAt_setBusRec_other hc _ _).trans (busAt_setBusRec_other hc _ s)⟩

theorem parts_takeTalkRelease (b : Bus) (t : Talker) (s : State) : (takeTalkRelease b t s).loop = s.loop ∧
    (takeTalkRelease b t s).lock = s.lock ∧ (takeTalkRelease b t s).talk.keys = s.talk.keys := by
  cases h : decidesTalk s with
  | false => rw [takeTalkRelease_idle h]; exact ⟨rfl, rfl, rfl⟩
  | true =>
    rcases decideRelease_cases t (busAt s b) with k | k
    · rw [takeTalkRelease_grant h k]
      obtain ⟨loop, lock, keys, -⟩ := parts_issueGrant b (setBusRec b (decideRelease t (busAt s b)).1 s)
      exact ⟨loop, lock, keys⟩
    · rw [takeTalkRelease_pass h k]
      exact ⟨rfl, rfl, rfl⟩

theorem parts_sendRelease (k : KeyName) (s : State) : (sendRelease k s).loop = s.loop ∧
    (sendRelease k s).lock = s.lock ∧ ∀ c, c ≠ k → keyAt (sendRelease k s) c = keyAt s c := by
  unfold sendRelease
  simp only
  split
  · obtain ⟨loop, lock, keys⟩ := parts_takeTalkRelease (keyAt s k).bus ⟨s.start.id, k⟩ s
    exact ⟨loop, lock, fun c _ => congrArg (fun l : List KeyRec => l.getD (keyIndex c) .power) keys⟩
  · split
    · exact ⟨rfl, rfl, fun _ _ => rfl⟩
    · exact ⟨rfl, rfl, fun c hc => keyAt_setKeyRec_other hc _ s⟩

/-! ### Admissions without effect: nothing owed, or no room -/

/-- Nothing is owed that has room. -/
def Unowed (s : State) (owed : Prop) : Prop := owed → 16 ≤ s.queue.items.length

theorem not_room {s : State} {owed : Prop} (h : Unowed s owed) (k : owed) : ¬ queueRoom s = true := by
  rw [queueRoom_iff]
  exact Nat.not_lt.2 (h k)

theorem admitGrant_idle {s : State} {b : Bus} (h : Unowed s ((busAt s b).owed = true)) : admitGrant s b = s :=
  if_neg fun k => not_room h (Bool.and_eq_true_iff.1 k).1 (Bool.and_eq_true_iff.1 k).2

theorem admitRelease_idle {s : State} {k : KeyName} (h : Unowed s ((keyAt s k).releaseOwed = true)) :
    admitRelease s k = s :=
  if_neg fun e => not_room h (Bool.and_eq_true_iff.1 e).1 (Bool.and_eq_true_iff.1 e).2

theorem admitMap_idle {s : State} (h : Unowed s (s.loop.mapOwed = true)) : admitMap s = s :=
  if_neg fun k => not_room h (Bool.and_eq_true_iff.1 k).1 (Bool.and_eq_true_iff.1 k).2

theorem admitNotes_second {s : State} (h : Unowed s (s.loop.noteOwedA = true)) : admitNotes s =
    if s.loop.noteOwedB && queueRoom s then
      pushLinkNote .b { s with loop := { s.loop with noteOwedB := false } }
    else s := by
  unfold admitNotes
  rw [if_neg fun k => not_room h (Bool.and_eq_true_iff.1 k).1 (Bool.and_eq_true_iff.1 k).2]

theorem admitNotes_idle {s : State} (h : Unowed s (s.loop.noteOwedA = true))
    (k : Unowed s (s.loop.noteOwedB = true)) : admitNotes s = s := by
  rw [admitNotes_second h]
  exact if_neg fun e => not_room k (Bool.and_eq_true_iff.1 e).1 (Bool.and_eq_true_iff.1 e).2

theorem admitUnwraps_idle {s : State} (h : Unowed s (s.loop.unwrapOwed ≠ [])) :
    (unwrapInOrder s).foldl admitUnwrap s = s := by
  by_cases k : s.loop.unwrapOwed = []
  · have none_owed : unwrapInOrder s = [] := by
      rw [unwrapInOrder, k]
      exact List.flatMap_eq_nil_iff.2 fun _ _ => rfl
    rw [none_owed, List.foldl_nil]
  · exact foldl_still _ _ fun l => if_neg (not_room h k)

theorem admitLockNote_idle {s : State} (h : Unowed s (s.lock.noteOwed = true)) : admitLockNote s = s :=
  if_neg fun k => not_room h (Bool.and_eq_true_iff.1 k).1 (Bool.and_eq_true_iff.1 k).2

/-- The admissions after the grants and the releases, with none of their marks set. -/
def Unmarked (s : State) : Prop := s.loop.mapOwed = false ∧ s.loop.noteOwedA = false ∧ s.loop.noteOwedB = false ∧
  s.loop.unwrapOwed = [] ∧ s.lock.noteOwed = false

theorem Unmarked.idle {s : State} (h : Unmarked s) : admitLockNote
    ((unwrapInOrder (admitNotes (admitMap s))).foldl admitUnwrap (admitNotes (admitMap s))) = s := by
  obtain ⟨map, noteA, noteB, unwrap, lock⟩ := h
  have off {b : Bool} (e : b = false) : Unowed s (b = true) := fun k => by rw [e] at k; cases k
  rw [admitMap_idle (off map), admitNotes_idle (off noteA) (off noteB),
    admitUnwraps_idle fun k => absurd unwrap k, admitLockNote_idle (off lock)]

/-- The releases after the grants, with none owed. -/
theorem admitReleases_idle {s : State} (h : ∀ k, (keyAt s k).releaseOwed = false) :
    allKeys.foldl admitRelease s = s :=
  foldl_still _ _ fun k => admitRelease_idle fun e => by rw [h k] at e; cases e

theorem admitGrants_idle {s : State} (h : ∀ b, (busAt s b).owed = false) : allBuses.foldl admitGrant s = s :=
  foldl_still _ _ fun b => admitGrant_idle fun e => by rw [h b] at e; cases e

theorem admitOwed_quiet {s : State} (buses : ∀ b, (busAt s b).owed = false)
    (keys : ∀ k, (keyAt s k).releaseOwed = false) : admitOwed s = admitLockNote
      ((unwrapInOrder (admitNotes (admitMap s))).foldl admitUnwrap (admitNotes (admitMap s))) := by
  unfold admitOwed
  simp only [admitGrants_idle buses, admitReleases_idle keys]

/-- At a full queue nothing is admitted. -/
theorem admitOwed_full {s : State} (h : 16 ≤ s.queue.items.length) : admitOwed s = s := by
  have full (p : Prop) : Unowed s p := fun _ => h
  have grants : allBuses.foldl admitGrant s = s := foldl_still _ _ fun b => admitGrant_idle (full _)
  have releases : allKeys.foldl admitRelease s = s := foldl_still _ _ fun k => admitRelease_idle (full _)
  unfold admitOwed
  simp only [grants, releases, admitMap_idle (full _), admitNotes_idle (full _) (full _), admitUnwraps_idle (full _),
    admitLockNote_idle (full _)]

/-! ### One mark set -/

theorem admitOwed_grant {s : State} {b : Bus} (room : s.queue.items.length < 16) (owed : (busAt s b).owed = true)
    (others : ∀ c, c ≠ b → (busAt s c).owed = false) (keys : ∀ k, (keyAt s k).releaseOwed = false)
    (marks : Unmarked s) : admitOwed s = issueGrant b (setBusRec b { busAt s b with owed := false } s) := by
  have one : admitGrant s b = issueGrant b (setBusRec b { busAt s b with owed := false } s) := by
    unfold admitGrant
    rw [if_pos (by rw [owed, (queueRoom_iff s).2 room]; rfl)]
  obtain ⟨loop, lock, talk, buses⟩ := parts_issueGrant b (setBusRec b { busAt s b with owed := false } s)
  rw [← one] at loop lock talk buses
  have all : allBuses.foldl admitGrant s = admitGrant s b := by
    refine foldl_one (by decide) (mem_allBuses b) (fun c hc => ?_) fun c hc => ?_
    · exact admitGrant_idle fun e => by rw [others c hc] at e; cases e
    · refine admitGrant_idle fun e => ?_
      rw [buses c hc, busAt_setBusRec_other hc, others c hc] at e
      cases e
  have still : Unmarked (admitGrant s b) := by unfold Unmarked; rw [loop, lock]; exact marks
  have released : allKeys.foldl admitRelease (admitGrant s b) = admitGrant s b :=
    admitReleases_idle fun k => by unfold keyAt; rw [talk]; exact keys k
  rw [← one]
  unfold admitOwed
  simp only [all, released]
  exact still.idle

theorem admitOwed_release {s : State} {k : KeyName} (room : s.queue.items.length < 16)
    (owed : (keyAt s k).releaseOwed = true) (others : ∀ c, c ≠ k → (keyAt s c).releaseOwed = false)
    (buses : ∀ b, (busAt s b).owed = false) (marks : Unmarked s) :
    admitOwed s = sendRelease k (setKeyRec k { keyAt s k with releaseOwed := false } s) := by
  have one : admitRelease s k = sendRelease k (setKeyRec k { keyAt s k with releaseOwed := false } s) := by
    unfold admitRelease
    rw [if_pos (by rw [owed, (queueRoom_iff s).2 room]; rfl)]
    rfl
  obtain ⟨loop, lock, keys⟩ := parts_sendRelease k (setKeyRec k { keyAt s k with releaseOwed := false } s)
  rw [← one] at loop lock keys
  have all : allKeys.foldl admitRelease s = admitRelease s k := by
    refine foldl_one (by decide) (mem_allKeys k) (fun c hc => ?_) fun c hc => ?_
    · exact admitRelease_idle fun e => by rw [others c hc] at e; cases e
    · refine admitRelease_idle fun e => ?_
      rw [keys c hc, keyAt_setKeyRec_other hc, others c hc] at e
      cases e
  have still : Unmarked (admitRelease s k) := by unfold Unmarked; rw [loop, lock]; exact marks
  rw [← one]
  unfold admitOwed
  simp only [admitGrants_idle buses, all]
  exact still.idle

theorem owedOff {s : State} {b : Bool} (e : b = false) : Unowed s (b = true) := fun k => by rw [e] at k; cases k

theorem unwrapsAndLock_idle {s : State} (unwrap : s.loop.unwrapOwed = []) (lock : s.lock.noteOwed = false) :
    admitLockNote ((unwrapInOrder s).foldl admitUnwrap s) = s := by
  rw [admitUnwraps_idle fun e => absurd unwrap e, admitLockNote_idle (owedOff lock)]

theorem publishMap_marks (s : State) : (publishMap s).lock = s.lock ∧
    ∃ m, (publishMap s).loop = { s.loop with mapOwed := m } := by
  unfold publishMap
  repeat' split
  all_goals exact ⟨rfl, _, rfl⟩

theorem ctl_publishMap (s : State) : (publishMap s).ctl = s.ctl := by
  unfold publishMap
  repeat' split
  all_goals rfl

theorem admitOwed_map {s : State} (room : s.queue.items.length < 16) (owed : s.loop.mapOwed = true)
    (buses : ∀ b, (busAt s b).owed = false) (keys : ∀ k, (keyAt s k).releaseOwed = false)
    (noteA : s.loop.noteOwedA = false) (noteB : s.loop.noteOwedB = false) (unwrap : s.loop.unwrapOwed = [])
    (lock : s.lock.noteOwed = false) :
    admitOwed s = publishMap { s with loop := { s.loop with mapOwed := false } } := by
  have one : admitMap s = publishMap { s with loop := { s.loop with mapOwed := false } } := by
    unfold admitMap
    rw [if_pos (by rw [owed, (queueRoom_iff s).2 room]; rfl)]
  rw [admitOwed_quiet buses keys, one]
  obtain ⟨locks, m, loop⟩ := publishMap_marks { s with loop := { s.loop with mapOwed := false } }
  rw [admitNotes_idle (owedOff (by rw [loop]; exact noteA)) (owedOff (by rw [loop]; exact noteB)),
    admitUnwraps_idle fun e => absurd (by rw [loop]; exact unwrap) e,
    admitLockNote_idle (owedOff (by rw [locks]; exact lock))]

theorem lowerIndex_lt (l : Link) : lowerIndex l < 16 := by
  unfold lowerIndex
  refine lt_of_le_of_lt (min_le_left _ _) ?_
  unfold linkIndex portIndex
  have := l.node.isLt
  cases l.port <;> simp only <;> omega

/-- The one owed UNWRAP_PLAN comes once. -/
theorem unwrapInOrder_one {s : State} {l : Link} (h : s.loop.unwrapOwed = [l]) : unwrapInOrder s = [l] := by
  unfold unwrapInOrder
  rw [h]
  have pick (n : Nat) : ((List.range n).flatMap fun i => [l].filter fun l => decide (lowerIndex l = i)) =
      if lowerIndex l < n then [l] else [] := by
    induction n with
    | zero => rfl
    | succ n ih =>
      rw [List.range_succ, List.flatMap_append, ih]
      by_cases e : lowerIndex l = n
      · simp [e]
      · have : lowerIndex l < n + 1 ↔ lowerIndex l < n := by omega
        simp [e, this]
  rw [pick, if_pos (lowerIndex_lt l)]

theorem clearPlan_eq (l : Link) (s : State) : clearPlan l s =
    { s with loop := { s.loop with plan := s.loop.plan.filter fun q => !sameLink l q } } := by
  unfold clearPlan
  split
  next q e =>
    split
    next h => rw [e, Option.filter_some, if_neg (by simp [h])]
    next h => rw [e, Option.filter_some, if_pos (by simp [h]), ← e]
  next e => rw [e, Option.filter_none, ← e]

theorem admitOwed_unwrap {s : State} {l : Link} (room : s.queue.items.length < 16)
    (owed : s.loop.unwrapOwed = [l]) (buses : ∀ b, (busAt s b).owed = false)
    (keys : ∀ k, (keyAt s k).releaseOwed = false) (map : s.loop.mapOwed = false) (noteA : s.loop.noteOwedA = false)
    (noteB : s.loop.noteOwedB = false) (lock : s.lock.noteOwed = false) :
    admitOwed s = { s with
      loop := { s.loop with unwrapOwed := [], plan := s.loop.plan.filter fun q => !sameLink l q }
      queue := queued .all (.unwrapPlan l) none .loc s } := by
  have one : admitUnwrap s l = { s with
      loop := { s.loop with unwrapOwed := [], plan := s.loop.plan.filter fun q => !sameLink l q }
      queue := queued .all (.unwrapPlan l) none .loc s } := by
    unfold admitUnwrap sendUnwrap
    have k := (queueRoom_iff s).2 room
    rw [if_pos k, owed]
    refine (if_pos k).trans ?_
    rw [clearPlan_eq]
    simp [push, queued]
  rw [admitOwed_quiet buses keys, admitMap_idle (owedOff map), admitNotes_idle (owedOff noteA) (owedOff noteB),
    unwrapInOrder_one owed, List.foldl_cons, List.foldl_nil, one]
  exact admitLockNote_idle (owedOff lock)

theorem admitOwed_noteA {s : State} (room : s.queue.items.length < 16) (owed : s.loop.noteOwedA = true)
    (buses : ∀ b, (busAt s b).owed = false) (keys : ∀ k, (keyAt s k).releaseOwed = false)
    (map : s.loop.mapOwed = false) (noteB : s.loop.noteOwedB = false) (unwrap : s.loop.unwrapOwed = [])
    (lock : s.lock.noteOwed = false) :
    admitOwed s = { s with
      loop := { s.loop with noteOwedA := false }
      queue := queued .all (linkNoteOf .a s.portA) none .loc s } := by
  have k := (queueRoom_iff s).2 room
  have one : admitNotes s = { s with
      loop := { s.loop with noteOwedA := false }
      queue := queued .all (linkNoteOf .a s.portA) none .loc s } := by
    have first : pushLinkNote .a { s with loop := { s.loop with noteOwedA := false } } = { s with
      loop := { s.loop with noteOwedA := false }
      queue := queued .all (linkNoteOf .a s.portA) none .loc s } := if_pos k
    have both : (s.loop.noteOwedA && queueRoom s) = true := by rw [owed, k]; rfl
    unfold admitNotes
    simp only [if_pos both, first]
    exact if_neg (by simp [noteB])
  rw [admitOwed_quiet buses keys, admitMap_idle (owedOff map), one]
  exact unwrapsAndLock_idle unwrap lock

theorem admitOwed_noteB {s : State} (room : s.queue.items.length < 16) (owed : s.loop.noteOwedB = true)
    (buses : ∀ b, (busAt s b).owed = false) (keys : ∀ k, (keyAt s k).releaseOwed = false)
    (map : s.loop.mapOwed = false) (noteA : s.loop.noteOwedA = false) (unwrap : s.loop.unwrapOwed = [])
    (lock : s.lock.noteOwed = false) :
    admitOwed s = { s with
      loop := { s.loop with noteOwedB := false }
      queue := queued .all (linkNoteOf .b s.portB) none .loc s } := by
  have k := (queueRoom_iff s).2 room
  have one : admitNotes s = { s with
      loop := { s.loop with noteOwedB := false }
      queue := queued .all (linkNoteOf .b s.portB) none .loc s } := by
    rw [admitNotes_second (owedOff noteA), if_pos (by rw [owed, k]; rfl)]
    exact if_pos k
  rw [admitOwed_quiet buses keys, admitMap_idle (owedOff map), one]
  exact unwrapsAndLock_idle unwrap lock

theorem isLockNote_iff (m : LoopMsg) : isLockNote m = true ↔ ∃ n, m = .lockNote n := by
  cases m <;> simp [isLockNote]

theorem admitOwed_lockNote {s : State} (room : s.queue.items.length < 16) (owed : s.lock.noteOwed = true)
    (buses : ∀ b, (busAt s b).owed = false) (keys : ∀ k, (keyAt s k).releaseOwed = false)
    (map : s.loop.mapOwed = false) (noteA : s.loop.noteOwedA = false) (noteB : s.loop.noteOwedB = false)
    (unwrap : s.loop.unwrapOwed = []) (fresh : ∀ i ∈ s.queue.items, i.sends = 0 → ∀ n, i.body ≠ .lockNote n) :
    admitOwed s = { s with
      lock := { s.lock with noteOwed := false }
      queue := queued .all (.lockNote s.lock.level) none .loc s } := by
  have k := (queueRoom_iff s).2 room
  have none_waits : ¬ hasUnsent isLockNote s = true := by
    rw [hasUnsent_iff]
    rintro ⟨i, hi, sends, note⟩
    obtain ⟨n, e⟩ := (isLockNote_iff _).1 note
    exact fresh i hi sends n e
  rw [admitOwed_quiet buses keys, admitMap_idle (owedOff map), admitNotes_idle (owedOff noteA) (owedOff noteB),
    admitUnwraps_idle fun e => absurd unwrap e]
  unfold admitLockNote
  rw [if_pos (by rw [owed, k]; rfl)]
  exact (if_neg none_waits).trans (if_pos k)

end Sys2Proof.Machine
end

section
/-! PROOFS. ITEM_DROP, OWED_ADMIT and SNAPSHOT_START as events (R13 to R15), and the local steps of a visit: the count
(R2), the reading of the cells (R11), a LOCK_NOTE acted on (R167), the confirmation (R12). -/

namespace Sys2Proof.Machine

open Sys2Proof

/-! ### The events -/

theorem itemDrop_piece {s : State} {r : SnapRun} (hr : s.inReset = false) (hs : Settled s)
    (hw : s.queue.written = none) (hm : writesCells (loopMode s) = true) (run : s.snap.run = some r)
    (spent : 4 ≤ r.sends) (head : ∀ i, (s.queue.items.dropWhile (staleTalk s)).head? = some i → i.sends < 4)
    (next : r.piece + 1 < (match r.kind with | .allot => slotCount s.start.rate / 4 | .gain => 16)) :
    ∃ t, exec .itemDrop s = .next t ∧ Happened [] s { s with
      queue := { s.queue with items := s.queue.items.dropWhile (staleTalk s) }
      snap := { s.snap with run := some { r with piece := r.piece + 1, sends := 0, msg := none } } } t :=
  event_changed hr ((dropAssessed_piece hw hm run spent head).trans (advancePiece_next (s := dropStale s) run next))
    (hs.unread _ _ _ _ _) rfl rfl

theorem owedAdmit_becomes {s v : State} (hr : s.inReset = false) (hs : Settled s) (e : admitOwed s = v)
    (hc : v.ctl = s.ctl) : ∃ t, exec .owedAdmit s = .next t ∧ Happened [] s v t :=
  event_changed hr e (e ▸ (admitOwed_admits s).settled hs) hc
    (congrArg StartRec.line (e ▸ (admitOwed_admits s).blocks.1))

theorem admitOwed_none {s : State} (buses : ∀ b, (busAt s b).owed = false)
    (keys : ∀ k, (keyAt s k).releaseOwed = false) (marks : Unmarked s) : admitOwed s = s := by
  rw [admitOwed_quiet buses keys]
  exact marks.idle

theorem owedAdmit_happened (s : State) (hr : s.inReset = false) (hs : Settled s) :
    (16 ≤ s.queue.items.length → ∃ t, exec .owedAdmit s = .next t ∧ Happened [] s s t) ∧
    (∀ b, s.queue.items.length < 16 → (busAt s b).owed = true → (∀ c, c ≠ b → (busAt s c).owed = false) →
      (∀ k, (keyAt s k).releaseOwed = false) → s.loop.mapOwed = false → s.loop.noteOwedA = false →
      s.loop.noteOwedB = false → s.loop.unwrapOwed = [] → s.lock.noteOwed = false →
      ∃ t, exec .owedAdmit s = .next t ∧
        Happened [] s (issueGrant b (setBusRec b { busAt s b with owed := false } s)) t) ∧
    (∀ k, s.queue.items.length < 16 → (keyAt s k).releaseOwed = true →
      (∀ c, c ≠ k → (keyAt s c).releaseOwed = false) → (∀ b, (busAt s b).owed = false) →
      s.loop.mapOwed = false → s.loop.noteOwedA = false → s.loop.noteOwedB = false → s.loop.unwrapOwed = [] →
      s.lock.noteOwed = false → s.loop.conflict = none → ∃ t u, exec .owedAdmit s = .next t ∧
        ReleaseLeaves k (keyAt s k).bus { keyAt s k with releaseOwed := false } s u ∧ Happened [] s u t) ∧
    ((∀ b, (busAt s b).owed = false) → (∀ k, (keyAt s k).releaseOwed = false) →
      s.queue.items.length < 16 → s.loop.noteOwedA = false → s.loop.noteOwedB = false →
      s.lock.noteOwed = false →
      (s.loop.mapOwed = true → s.loop.unwrapOwed = [] → ∃ t, exec .owedAdmit s = .next t ∧
        Happened [] s (publishMap { s with loop := { s.loop with mapOwed := false } }) t) ∧
      (∀ l, s.loop.mapOwed = false → s.loop.unwrapOwed = [l] → ∃ t, exec .owedAdmit s = .next t ∧
        Happened [] s { s with
          loop := { s.loop with unwrapOwed := [], plan := s.loop.plan.filter fun q => !sameLink l q }
          queue := queued .all (.unwrapPlan l) none .loc s } t)) ∧
    ((∀ b, (busAt s b).owed = false) → (∀ k, (keyAt s k).releaseOwed = false) → s.loop.mapOwed = false →
      s.loop.unwrapOwed = [] → s.queue.items.length < 16 →
      (s.loop.noteOwedA = false → s.loop.noteOwedB = false → s.lock.noteOwed = false →
        ∃ t, exec .owedAdmit s = .next t ∧ Happened [] s s t) ∧
      (s.loop.noteOwedA = true → s.loop.noteOwedB = false → s.lock.noteOwed = false →
        ∃ t, exec .owedAdmit s = .next t ∧ Happened [] s { s with
          loop := { s.loop with noteOwedA := false }
          queue := queued .all (linkNoteOf .a s.portA) none .loc s } t) ∧
      (s.loop.noteOwedA = false → s.loop.noteOwedB = true → s.lock.noteOwed = false →
        ∃ t, exec .owedAdmit s = .next t ∧ Happened [] s { s with
          loop := { s.loop with noteOwedB := false }
          queue := queued .all (linkNoteOf .b s.portB) none .loc s } t) ∧
      (s.loop.noteOwedA = false → s.loop.noteOwedB = false → s.lock.noteOwed = true →
        (∀ i ∈ s.queue.items, i.sends = 0 → ∀ n, i.body ≠ .lockNote n) →
        ∃ t, exec .owedAdmit s = .next t ∧ Happened [] s { s with
          lock := { s.lock with noteOwed := false }
          queue := queued .all (.lockNote s.lock.level) none .loc s } t)) := by
  refine ⟨fun full => event_nothing hr hs (admitOwed_full full), ?_, ?_, ?_, ?_⟩
  · intro b room owed others keys map noteA noteB unwrap lock
    exact owedAdmit_becomes hr hs (admitOwed_grant room owed others keys ⟨map, noteA, noteB, unwrap, lock⟩)
      (ctl_issueGrant _ _)
  · intro k room owed others buses map noteA noteB unwrap lock conflict
    have listed : keyIndex k < s.talk.keys.length := keyIndex_lt fun e => by rw [e] at owed; cases owed
    obtain ⟨t, ht, happened⟩ := owedAdmit_becomes hr hs
      (admitOwed_release room owed others buses ⟨map, noteA, noteB, unwrap, lock⟩) (ctl_sendRelease _ _)
    exact ⟨t, _, ht, sendRelease_leaves (r := { keyAt s k with releaseOwed := false }) listed conflict, happened⟩
  · intro buses keys room noteA noteB lock
    exact ⟨fun owed unwrap => owedAdmit_becomes hr hs (admitOwed_map room owed buses keys noteA noteB unwrap lock)
        (ctl_publishMap _),
      fun l map owed => owedAdmit_becomes hr hs (admitOwed_unwrap room owed buses keys map noteA noteB lock) rfl⟩
  · intro buses keys map unwrap room
    refine ⟨fun noteA noteB lock => event_nothing hr hs (admitOwed_none buses keys ⟨map, noteA, noteB, unwrap, lock⟩),
      fun noteA noteB lock => ?_, fun noteA noteB lock => ?_, fun noteA noteB lock fresh => ?_⟩
    · exact owedAdmit_becomes hr hs (admitOwed_noteA room noteA buses keys map noteB unwrap lock) rfl
    · exact owedAdmit_becomes hr hs (admitOwed_noteB room noteB buses keys map noteA unwrap lock) rfl
    · exact owedAdmit_becomes hr hs (admitOwed_lockNote room lock buses keys map noteA noteB unwrap fresh) rfl

theorem snapshotStart_happened (s : State) (hr : s.inReset = false) (hs : Settled s) :
    let waits : Prop := s.queue.outstanding ≠ none
    (s.snap.run.isSome = true ∨ (s.snap.pendGain = false ∧ (s.snap.pendAllot = false ∨ waits)) →
        ∃ t, exec .snapshotStart s = .next t ∧ Happened [] s s t) ∧
      (s.snap.run = none → s.snap.pendAllot = true → ¬ waits →
        ∃ t, exec .snapshotStart s = .next t ∧ Happened [] s { s with snap := { s.snap with
          run := some ⟨.allot, 0, 0, 0, none, none⟩, pendAllot := false } } t) ∧
      (s.snap.run = none → s.snap.pendAllot = false ∨ waits → s.snap.pendGain = true →
        ∃ t, exec .snapshotStart s = .next t ∧ Happened [] s { s with snap := { s.snap with
          run := some ⟨.gain, 0, 0, 0, none, none⟩, pendGain := false } } t) := by
  refine ⟨fun h => event_nothing hr hs ?_, fun run allot waits => ?_, fun run waits gain => ?_⟩
  · rcases h with h | ⟨gain, waits⟩
    · exact snapshotStart_runs (Option.isSome_iff_ne_none.1 h)
    · exact snapshotStart_idle gain waits
  · exact event_changed hr (snapshotStart_allot run allot (not_not.1 waits)) (hs.unread _ _ _ _ _) rfl rfl
  · exact event_changed hr (snapshotStart_gain run waits gain) (hs.unread _ _ _ _ _) rfl rfl

/-! ### The count (R2, R17, R67) -/

theorem setCount_leaves (c : FrameNo) (s : State) :
    (∃ v, (setCount c s).loop = { s.loop with count := c, visits := v } ∧
      ∀ f, f ∈ v ↔ f ∈ s.loop.visits ∧ ¬ ((c - s.loop.count).toNat < 2147483648 ∧
        (s.loop.count - f).toNat < 2147483648 ∧ 2147483648 ≤ (c - f).toNat)) ∧
    (setCount c s).queue = { s.queue with outstanding := s.queue.outstanding.filter fun f => !passed c f } := by
  have left (f : FrameNo) : leftBehind s.loop.count c f = false ↔ ¬ ((c - s.loop.count).toNat < 2147483648 ∧
      (s.loop.count - f).toNat < 2147483648 ∧ 2147483648 ≤ (c - f).toNat) := by
    simp [leftBehind, reached]
  unfold setCount endOutstanding
  simp only
  split
  next e => exact ⟨⟨_, rfl, fun f => by rw [mem_ageVisits, left]⟩, by rw [e, Option.filter_none, ← e]⟩
  next x e =>
    split
    next h => exact ⟨⟨_, rfl, fun f => by rw [mem_ageVisits, left]⟩, by rw [e, Option.filter_some, if_neg (by simp [h])]⟩
    next h =>
      exact ⟨⟨_, rfl, fun f => by rw [mem_ageVisits, left]⟩, by
        rw [e, Option.filter_some, if_pos (by simp [h]), ← e]⟩

/-! ### Reading a cell (R11) -/

theorem addressed_iff (s : State) (m : Message) : addressed s m = true ↔ m.dest = none ∨ m.dest = some s.start.id := by
  unfold addressed
  split
  next e => simp [e]
  next n e => simp [e]

theorem readCell_leaves (h : Header) (n : NodeId) (c : Option Message) (s : State) :
    let idle : Prop := n = s.start.id ∨ ∀ m, c = some m →
      (m.dest ≠ none ∧ m.dest ≠ some s.start.id) ∨ s.loop.lastActed.getD n.val none = some m.num
    (idle → readCell h s n c = s) ∧
    (∀ m, c = some m → ¬ idle → readCell h s n c = actOn n h m
      { s with loop := { s.loop with lastActed := s.loop.lastActed.set n.val (some m.num) } }) := by
  intro idle
  refine ⟨fun k => ?_, fun m hm k => ?_⟩
  · unfold readCell
    split
    next => rfl
    next m =>
      split
      next => rfl
      next acts =>
        simp only [Bool.or_eq_true, decide_eq_true_eq, Bool.not_eq_true', not_or, Bool.not_eq_false] at acts
        refine if_pos ?_
        rcases k with own | k
        · exact absurd own acts.1
        · rcases k m rfl with other | again
          · exact absurd ((addressed_iff s m).1 acts.2) (not_or.2 other)
          · exact again
  · subst hm
    have own : n ≠ s.start.id := fun e => k (.inl e)
    have both := mt (fun e : _ ∨ _ => (.inr fun x hx => by cases hx; exact e : idle)) k
    obtain ⟨other, again⟩ := not_or.1 both
    have mine : addressed s m = true := (addressed_iff s m).2 (by
      by_contra e
      exact other (not_or.1 e))
    unfold readCell
    simp only
    rw [if_neg (by simp [own, mine]), if_neg again]

theorem lockNote_leaves (w : NodeId) (h : Header) (m : Message) (level : Nat) (s : State)
    (body : m.body = .lockNote level) :
    let t := actOn w h m s
    t.lock = { s.lock with
      view := if w = s.start.id then s.lock.view else s.lock.view.set w.val (some level) } ∧
    SameBlocks { s with lock := t.lock } t ∧
    Raised (if w = s.start.id ∨ s.lock.view.getD w.val none = some level then []
      else [.lockNote w (some level)]) s t := by
  have acts : actOn w h m s = setLockView w (some level) s := by unfold actOn; rw [body]
  simp only [acts]
  unfold setLockView
  by_cases own : w = s.start.id
  · rw [if_pos (by simp [own]), if_pos own, if_pos (.inl own)]
    exact ⟨rfl, .refl s, .refl s⟩
  · by_cases same : s.lock.view.getD w.val none = some level
    · rw [if_pos (by rw [decide_eq_true same, Bool.or_true]), if_neg own, if_pos (.inr same)]
      refine ⟨?_, .refl s, .refl s⟩
      have listed : w.val < s.lock.view.length := by
        by_contra hk
        rw [List.getD_eq_default _ _ (not_lt.1 hk)] at same
        cases same
      have here : s.lock.view[w.val] = some level := by
        rwa [List.getD_eq_getElem _ _ listed] at same
      rw [← here, List.set_getElem_self]
    · rw [if_neg (by simpa [own] using same), if_neg own, if_neg (not_or.2 ⟨own, same⟩)]
      obtain ⟨blocks, -⟩ := notify_same (.lockNote w (some level))
        { s with lock := { s.lock with view := s.lock.view.set w.val (some level) } }
      refine ⟨blocks.lock, ?_, .notify_of _ rfl rfl⟩
      rw [blocks.lock]
      exact blocks

/-! ### Confirmation (R12) -/

theorem isConfirmed_iff (w : WrittenItem) (f : Frame) (s : State) : isConfirmed w f s = true ↔
    f.header.count = w.count + 1 ∧ s.loop.epoch = w.epoch ∧ f.header.origin.epoch = w.epoch ∧
      ∃ m, f.cells.getD s.start.id.val none = some m ∧ m.num = w.msg.num ∧ msgKind m.body = msgKind w.msg.body := by
  unfold isConfirmed
  simp only [Bool.and_eq_true, decide_eq_true_eq, and_assoc]
  refine and_congr Iff.rfl (and_congr Iff.rfl (and_congr Iff.rfl ?_))
  split
  next m e => rw [e]; simp
  next e => rw [e]; simp

theorem findOp_modifyOp {f : Operation → Operation} (h : ∀ o, (f o).tag = o.tag) (x : Byte) (s : State) :
    findOp x (modifyOp x f s) = (findOp x s).map f := by
  unfold findOp modifyOp
  simp only
  induction s.ctl.ops with
  | nil => rfl
  | cons o l ih =>
    cases o with
    | none => exact ih
    | some o =>
      by_cases k : o.tag = x
      · simp [k, h]
      · simp only [List.map_cons, k, if_false, List.findSome?_cons]
        exact ih

theorem tag_confirmOp (o : Operation) : (confirmOp o).tag = o.tag := by
  unfold confirmOp
  split <;> rfl

theorem confirmOp_eq {o : Operation} (go : o.kind ≠ .go) (drill : o.kind ≠ .drill) :
    confirmOp o = if o.kind = .heal then { o with stage := .running }
      else { o with stage := .awaiting, answer := some (500 * 96) } := by
  unfold confirmOp
  cases k : o.kind
  case go => exact absurd k go
  case drill => exact absurd k drill
  all_goals simp [ticksOf, Config.answerMs, Config.ticksPerMs]

theorem confirmHead_plain {s : State} {i : QItem} {l : List QItem} (h : s.queue.items = i :: l)
    (body : ∀ n c, i.body ≠ .allot n c) : confirmHead s = { s with queue := { s.queue with items := l } } := by
  unfold confirmHead
  rw [h]
  simp only

/-- What the confirmed ALLOT settles (R86). -/
theorem confirmHead_allot {s : State} {i : QItem} {l : List QItem} {n : Serial} {c : List SlotChange}
    (h : s.queue.items = i :: l) (body : i.body = .allot n c) : ∃ u, confirmHead s = { s with
        queue := { s.queue with items := l }
        switches := s.switches.map fun p =>
          if p.sender = s.start.id ∧ p.item = .msg i.body then { p with confirmed := true } else p
        slots := { s.slots with unsettled := u } } ∧
      ∀ (k : Nat) (x : Bool), s.slots.unsettled[k]? = some x →
        u[k]? = some (x && !decide (⟨k, none⟩ ∈ c ∧ (entryAt s k).serial = some n)) := by
  refine ⟨((freedSlots c).filter fun k => (entryAt s k).serial = some n).foldl (fun l k => l.set k false)
    s.slots.unsettled, ?_, fun k x hx => ?_⟩
  · unfold confirmHead
    rw [h]
    simp only
    split
    next n' c' e =>
      cases body.symm.trans e
      unfold allotConfirmed markUnsettled
      congr 1
      refine List.map_congr_left fun p _ => ?_
      simp [ownEntryOf]
    next e => exact absurd body (e n c)
  · have freed : k ∈ freedSlots c ↔ (⟨k, none⟩ : SlotChange) ∈ c := by
      rw [mem_freedSlots]
      constructor
      · rintro ⟨y, hy, rfl, hw⟩
        rwa [← hw]
      · exact fun hy => ⟨_, hy, rfl, rfl⟩
    have settles : k ∈ (freedSlots c).filter (fun k => (entryAt s k).serial = some n) ↔
        (⟨k, none⟩ : SlotChange) ∈ c ∧ (entryAt s k).serial = some n := by
      rw [List.mem_filter, freed, decide_eq_true_eq]
    rw [getElem?_foldl_set, hx]
    by_cases hk : (⟨k, none⟩ : SlotChange) ∈ c ∧ (entryAt s k).serial = some n
    · rw [if_pos (settles.2 hk), decide_eq_true hk]
      simp
    · rw [if_neg (mt settles.1 hk), decide_eq_false hk]
      simp

end Sys2Proof.Machine
end

section
/-! PROOFS. The choice and the writing of the cell (R13, R15 to R18), and the assembled statement of the queue's
moves. -/

namespace Sys2Proof.Machine

open Sys2Proof

/-! ### The choice (R13, R15, R17) -/

theorem chooseCell_of_turn {h : Header} {s : State} (r : ∀ e, s.loop.restart ≠ .prepared e) :
    (cellTurn s = .queue → chooseCell h s = sendHead h s) ∧ (cellTurn s = .piece → chooseCell h s = sendPiece h s) ∧
    (cellTurn s = .neither →
      chooseCell h s = ({ s with queue := { s.queue with written := none, last := .neither } }, none)) := by
  unfold chooseCell
  split
  next e k => exact absurd k (r e)
  all_goals exact ⟨fun k => by rw [k], fun k => by rw [k], fun k => by rw [k]⟩

theorem headReady_iff {s : State} {i : QItem} {l : List QItem} (hi : s.queue.items = i :: l) :
    headReady s = true ↔
      ¬ (bearsSwitch i.body = true ∧ s.queue.outstanding ≠ none ∧ s.queue.outstanding ≠ i.stamp) := by
  unfold headReady otherOutstanding outstanding
  rw [hi]
  simp only [Bool.not_eq_true', Bool.and_eq_false_iff, Option.isSome_eq_false_iff, Option.isNone_iff_eq_none, bne_eq_false_iff_eq,
    ← not_or, not_and_or, not_not, Bool.not_eq_true, ne_eq]

theorem headReady_empty {s : State} (h : s.queue.items = []) : headReady s = false := by
  unfold headReady
  rw [h]

theorem pieceReady_none {s : State} (h : s.snap.run = none) : pieceReady s = false := by
  unfold pieceReady
  rw [h]

theorem pieceReady_iff {s : State} {r : SnapRun} (h : s.snap.run = some r) :
    pieceReady s = true ↔ r.kind = .gain ∨ r.stamp ≠ none ∨ s.queue.outstanding = none := by
  unfold pieceReady outstanding
  rw [h]
  simp only
  cases k : r.kind
  case allot => simp [Option.isSome_iff_ne_none]
  case gain => simp

theorem cellTurn_queue {s : State} (h : headReady s = true) (k : pieceReady s = false) : cellTurn s = .queue := by
  unfold cellTurn
  rw [h, k]

theorem cellTurn_piece {s : State} (h : headReady s = false) (k : pieceReady s = true) : cellTurn s = .piece := by
  unfold cellTurn
  rw [h, k]

theorem cellTurn_neither {s : State} (h : headReady s = false) (k : pieceReady s = false) :
    cellTurn s = .neither := by
  unfold cellTurn
  rw [h, k]

/-- With a piece ready the two take turns. -/
theorem cellTurn_pieceReady {s : State} (k : pieceReady s = true) :
    cellTurn s = if headReady s = false ∨ s.queue.last = .queue then .piece else .queue := by
  cases h : headReady s with
  | false => rw [cellTurn_piece h k, if_pos (.inl rfl)]
  | true =>
    unfold cellTurn
    rw [h, k]
    cases e : s.queue.last <;> simp

/-! ### The head is written (R13, R16 to R18) -/

/-- What the write of the head tells its owners (R92, R134, R183). -/
def headTold (i : QItem) (s : State) : State :=
  let s2 := if i.sends = 0 then firstSend i s else s
  match i.body with
  | .snapReq _ => retryRestart s2
  | _ => s2

theorem firstSend_leaves (i : QItem) (s : State) : (firstSend i s).queue = s.queue ∧
    (firstSend i s).switches = s.switches ∧ (firstSend i s).snap = s.snap := by
  unfold firstSend
  cases i.op with
  | none =>
    simp only
    split <;> exact ⟨rfl, rfl, rfl⟩
  | some t =>
    simp only
    split <;> exact ⟨rfl, rfl, rfl⟩

theorem headTold_leaves (i : QItem) (s : State) : (headTold i s).queue = s.queue ∧
    (headTold i s).switches = s.switches ∧ (headTold i s).snap = s.snap := by
  have first : (if i.sends = 0 then firstSend i s else s).queue = s.queue ∧
      (if i.sends = 0 then firstSend i s else s).switches = s.switches ∧
      (if i.sends = 0 then firstSend i s else s).snap = s.snap := by
    split
    · exact firstSend_leaves i s
    · exact ⟨rfl, rfl, rfl⟩
  unfold headTold
  simp only
  split
  next => exact first
  next => exact first

/-- The message the head is sent as. -/
def headMessage (h : Header) (i : QItem) (x : Option FrameNo) : Message := ⟨resolveDest h i.dest, i.num, i.body, x⟩

/-- The queue after the head's write. -/
def headSent (h : Header) (i : QItem) (l : List QItem) (x o : Option FrameNo) (q : QueueRec) : QueueRec :=
  { q with
    items := { i with sends := i.sends + 1, stamp := x } :: l
    written := some ⟨false, headMessage h i x, h.count, h.origin.epoch⟩
    last := .queue
    outstanding := o }

theorem sendHead_stamped {h : Header} {s u : State} {i j : QItem} {l : List QItem} {x o : Option FrameNo}
    (hi : s.queue.items = i :: l) (stamped : stampHead i s = (j, u)) (hj : j = { i with stamp := x })
    (hu : u.queue = { s.queue with outstanding := o }) :
    (sendHead h s).2 = some (headMessage h i x) ∧ (sendHead h s).1.queue = headSent h i l x o s.queue ∧
      (sendHead h s).1.switches = u.switches ∧ (sendHead h s).1.snap = u.snap := by
  obtain ⟨queue, switches, snap⟩ := headTold_leaves i u
  have sent : sendHead h s = ({ setHead { j with sends := i.sends + 1 } (headTold i u) with
      queue := { (setHead { j with sends := i.sends + 1 } (headTold i u)).queue with
        written := some ⟨false, ⟨resolveDest h i.dest, i.num, i.body, j.stamp⟩, h.count, h.origin.epoch⟩
        last := .queue } }, some ⟨resolveDest h i.dest, i.num, i.body, j.stamp⟩) := by
    unfold sendHead
    rw [hi]
    simp only [stamped]
    rfl
  rw [sent]
  refine ⟨by rw [hj]; rfl, ?_, switches, snap⟩
  simp only [setHead, queue, hu, hi, hj, headSent, headMessage, List.tail_cons]

theorem stampHead_again {i : QItem} {s : State} (h : ¬ (bearsSwitch i.body = true ∧ i.stamp = none)) :
    stampHead i s = (i, s) := if_neg (by simpa using h)

theorem stampHead_first {i : QItem} {s : State} (h : bearsSwitch i.body = true ∧ i.stamp = none)
    (p : pendingOf s s.start.id = none) : stampHead i s =
      ({ i with stamp := some (s.loop.count + BitVec.ofNat 32 s.queue.lead) }, { s with
        queue := { s.queue with outstanding := some (s.loop.count + BitVec.ofNat 32 s.queue.lead) }
        switches := s.switches ++ [⟨s.start.id, .msg i.body, s.loop.count + BitVec.ofNat 32 s.queue.lead, s.loop.epoch,
          i.op, false, i.cause⟩] }) := by
  unfold stampHead
  rw [if_pos (by simp [h.1, h.2])]
  unfold enterSwitch
  simp only
  rw [applyPending_idle (s := { s with queue := { s.queue with
    outstanding := some (s.loop.count + BitVec.ofNat 32 s.queue.lead) } }) p]

/-! ### A piece is written (R15 to R18, R89, R120) -/

theorem sendPiece_stamped {h : Header} {s u : State} {r q : SnapRun} (hr : s.snap.run = some r)
    (stamped : stampSnap r s = (q, u)) :
    (∀ n b, q.msg = some (n, b) → sendPiece h s = ({ u with
        snap := { u.snap with run := some { q with sends := r.sends + 1, msg := some (n, b) } }
        queue := { u.queue with
          written := some ⟨true, ⟨none, n, b, q.stamp⟩, h.count, h.origin.epoch⟩, last := .piece } },
      some ⟨none, n, b, q.stamp⟩)) ∧
    (q.msg = none → sendPiece h s = ({ u with
        snap := { u.snap with run := some { q with
          sends := r.sends + 1, msg := some (u.queue.nextNum, pieceBody q u) } }
        queue := { u.queue with
          nextNum := u.queue.nextNum + 1
          written := some ⟨true, ⟨none, u.queue.nextNum, pieceBody q u, q.stamp⟩, h.count, h.origin.epoch⟩
          last := .piece } },
      some ⟨none, u.queue.nextNum, pieceBody q u, q.stamp⟩)) := by
  unfold sendPiece
  rw [hr]
  simp only [stamped]
  exact ⟨fun n b e => by rw [e], fun e => by rw [e]⟩

theorem stampSnap_again {r : SnapRun} {s : State} (h : r.kind = .gain ∨ r.stamp ≠ none) : stampSnap r s = (r, s) := by
  unfold stampSnap
  split
  next kind stamp => rcases h with h | h <;> simp_all
  next => rfl
  next => rfl

/-- The frame at which a snapshot begun now switches (R16, R89). -/
theorem snapshot_frame (c : FrameNo) (lead : Nat) (r : Rate) :
    c + BitVec.ofNat 32 (lead + 2 * pieceCount r) = c + BitVec.ofNat 32 lead + BitVec.ofNat 32 (slotCount r / 2) := by
  have half : 2 * pieceCount r = slotCount r / 2 := by cases r <;> rfl
  rw [half, BitVec.ofNat_add, BitVec.add_assoc]

theorem stampSnap_first {r : SnapRun} {s : State} (kind : r.kind = .allot) (stamp : r.stamp = none)
    (p : pendingOf s s.start.id = none) : stampSnap r s =
      ({ r with
        stamp := some (s.loop.count + BitVec.ofNat 32 s.queue.lead + BitVec.ofNat 32 (slotCount s.start.rate / 2))
        serial := s.slots.applied }, { s with
        queue := { s.queue with
          outstanding := some (s.loop.count + BitVec.ofNat 32 s.queue.lead + BitVec.ofNat 32 (slotCount s.start.rate / 2)) }
        switches := s.switches ++ [⟨s.start.id, .snapshot s.slots.applied,
          s.loop.count + BitVec.ofNat 32 s.queue.lead + BitVec.ofNat 32 (slotCount s.start.rate / 2), s.loop.epoch,
          none, false, .loc⟩] }) := by
  unfold stampSnap
  rw [kind, stamp, snapshot_frame]
  simp only
  unfold enterSwitch
  simp only
  rw [applyPending_idle (s := { s with queue := { s.queue with
    outstanding := some (s.loop.count + BitVec.ofNat 32 s.queue.lead + BitVec.ofNat 32 (slotCount s.start.rate / 2)) } }) p]

end Sys2Proof.Machine
end

section
/-! PROOFS. The statement of the queue's moves (R13 to R17), assembled: the assessment, the choice by what stands ready,
and every event of the queue. -/

namespace Sys2Proof.Machine

open Sys2Proof

/-! ### The assessment (R12) -/

/-- The item written last stands in the frame as it was written. -/
def Confirms (w : WrittenItem) (f : Frame) (s : State) : Prop :=
  f.header.count = w.count + 1 ∧ s.loop.epoch = w.epoch ∧ f.header.origin.epoch = w.epoch ∧
    ∃ m, f.cells.getD s.start.id.val none = some m ∧ m.num = w.msg.num ∧ msgKind m.body = msgKind w.msg.body

theorem assess_unconfirmed {w : WrittenItem} {f : Frame} {s : State} (h : s.queue.written = some w)
    (k : ¬ Confirms w f s) :
    assess f s = { s with queue := { s.queue with written := none } } ∧ tellConfirmed f s = s := by
  have no : isConfirmed w f s = false := Bool.eq_false_iff.2 (mt (isConfirmed_iff w f s).1 k)
  refine ⟨?_, ?_⟩
  · unfold assess
    rw [h]
    simp only [no, Bool.false_eq_true, if_false]
  · unfold tellConfirmed
    rw [h]
    cases s.queue.items with
    | nil => rfl
    | cons i l =>
      cases op : i.op with
      | none => simp only [op]
      | some x => simp only [op, no, Bool.and_false, Bool.false_eq_true, if_false]

theorem assess_confirmed {w : WrittenItem} {f : Frame} {s : State} (h : s.queue.written = some w)
    (k : Confirms w f s) : assess f s = if w.piece then advancePiece { s with queue := { s.queue with written := none } }
      else confirmHead { s with queue := { s.queue with written := none } } := by
  have yes : isConfirmed w f s = true := (isConfirmed_iff w f s).2 k
  unfold assess
  rw [h]
  simp only [yes, if_true]

/-- The operation of a confirmed message advances (R183). -/
theorem tellConfirmed_op {w : WrittenItem} {f : Frame} {s : State} {i : QItem} {l : List QItem} {x : Byte} {o : Operation}
    (h : s.queue.written = some w) (k : Confirms w f s) (message : w.piece = false) (hi : s.queue.items = i :: l)
    (op : i.op = some x) (found : findOp x s = some o) (go : o.kind ≠ .go) (drill : o.kind ≠ .drill) :
    findOp x (tellConfirmed f s) = some (if o.kind = .heal then { o with stage := .running }
      else { o with stage := .awaiting, answer := some (500 * 96) }) := by
  have told : tellConfirmed f s = modifyOp x confirmOp s := by
    unfold tellConfirmed
    rw [h, hi]
    simp only [op, message, (isConfirmed_iff w f s).2 k]
    rfl
  rw [told, findOp_modifyOp tag_confirmOp, found, ← confirmOp_eq go drill]
  rfl

/-! ### The choice by what stands ready -/

/-- The head waits for another item to stop being outstanding (R17). -/
def headHeld (i : QItem) (s : State) : Prop :=
  bearsSwitch i.body = true ∧ s.queue.outstanding ≠ none ∧ s.queue.outstanding ≠ i.stamp

theorem chooseCell_empty {h : Header} {s : State} (r : ∀ e, s.loop.restart ≠ .prepared e) (hi : s.queue.items = [])
    (run : s.snap.run = none) :
    chooseCell h s = ({ s with queue := { s.queue with written := none, last := .neither } }, none) :=
  (chooseCell_of_turn r).2.2 (cellTurn_neither (headReady_empty hi) (pieceReady_none run))

theorem chooseCell_held {h : Header} {s : State} {i : QItem} {l : List QItem} (r : ∀ e, s.loop.restart ≠ .prepared e)
    (hi : s.queue.items = i :: l) (held : headHeld i s) (run : s.snap.run = none) :
    chooseCell h s = ({ s with queue := { s.queue with written := none, last := .neither } }, none) :=
  (chooseCell_of_turn r).2.2
    (cellTurn_neither (Bool.eq_false_iff.2 fun k => (headReady_iff hi).1 k held) (pieceReady_none run))

theorem chooseCell_head {h : Header} {s : State} {i : QItem} {l : List QItem} (r : ∀ e, s.loop.restart ≠ .prepared e)
    (hi : s.queue.items = i :: l) (held : ¬ headHeld i s) (run : s.snap.run = none) :
    chooseCell h s = sendHead h s :=
  (chooseCell_of_turn r).1 (cellTurn_queue ((headReady_iff hi).2 held) (pieceReady_none run))

theorem cellTurn_both {s : State} {i : QItem} {l : List QItem} {r : SnapRun} (hi : s.queue.items = i :: l)
    (run : s.snap.run = some r) (k : r.kind = .gain ∨ r.stamp ≠ none)
    (d : Decidable (headHeld i s ∨ s.queue.last = .queue)) :
    cellTurn s = if headHeld i s ∨ s.queue.last = .queue then .piece else .queue := by
  have ready : headReady s = false ↔ headHeld i s := by
    rw [Bool.eq_false_iff, ne_eq, headReady_iff hi]
    exact not_not
  rw [cellTurn_pieceReady ((pieceReady_iff run).2 (by tauto))]
  exact if_congr (or_congr ready Iff.rfl) rfl rfl

theorem chooseCell_pieceWaits {h : Header} {s : State} {q : SnapRun} (r : ∀ e, s.loop.restart ≠ .prepared e)
    (hi : s.queue.items = []) (run : s.snap.run = some q) (kind : q.kind = .allot) (stamp : q.stamp = none)
    (waits : s.queue.outstanding ≠ none) :
    chooseCell h s = ({ s with queue := { s.queue with written := none, last := .neither } }, none) := by
  refine (chooseCell_of_turn r).2.2 (cellTurn_neither (headReady_empty hi) (Bool.eq_false_iff.2 fun k => ?_))
  rcases (pieceReady_iff run).1 k with k | k | k
  · cases kind.symm.trans k
  · exact k stamp
  · exact waits k

theorem chooseCell_piece {h : Header} {s : State} {q : SnapRun} (r : ∀ e, s.loop.restart ≠ .prepared e)
    (hi : s.queue.items = []) (run : s.snap.run = some q)
    (ready : q.kind = .gain ∨ q.stamp ≠ none ∨ s.queue.outstanding = none) : chooseCell h s = sendPiece h s :=
  (chooseCell_of_turn r).2.1 (cellTurn_piece (headReady_empty hi) ((pieceReady_iff run).2 ready))

theorem firstPiece_sent {h : Header} {s : State} {q : SnapRun} (run : s.snap.run = some q) (kind : q.kind = .allot)
    (stamp : q.stamp = none) (fresh : q.msg = none) (p : pendingOf s s.start.id = none) :
    let late := s.loop.count + BitVec.ofNat 32 s.queue.lead + BitVec.ofNat 32 (slotCount s.start.rate / 2)
    let body : LoopMsg := .snap s.slots.applied q.piece (pieceEntries s q.piece)
    let t := (sendPiece h s).1
    (sendPiece h s).2 = some ⟨none, s.queue.nextNum, body, some late⟩ ∧
      t.snap.run = some ⟨.allot, s.slots.applied, q.piece, q.sends + 1, some late, some (s.queue.nextNum, body)⟩ ∧
      t.queue.outstanding = some late ∧ t.queue.nextNum = s.queue.nextNum + 1 ∧ t.queue.last = .piece ∧
      t.switches = s.switches ++
        [⟨s.start.id, .snapshot s.slots.applied, late, s.loop.epoch, none, false, .loc⟩] := by
  intro late body t
  obtain ⟨j, u, stamped, hj, hu⟩ : ∃ j u, stampSnap q s = (j, u) ∧ j = { q with stamp := some late, serial := s.slots.applied } ∧
      u = { s with
        queue := { s.queue with outstanding := some late }
        switches := s.switches ++
          [⟨s.start.id, .snapshot s.slots.applied, late, s.loop.epoch, none, false, .loc⟩] } :=
    ⟨_, _, stampSnap_first kind stamp p, rfl, rfl⟩
  have sent := (sendPiece_stamped (h := h) run stamped).2 (by rw [hj]; exact fresh)
  have taken : pieceBody j u = body := by
    rw [hj, hu]
    unfold pieceBody
    simp only [kind]
    rfl
  rw [taken, hj, hu] at sent
  refine ⟨congrArg Prod.snd sent, ?_, congrArg (fun x => x.1.queue.outstanding) sent,
    congrArg (fun x => x.1.queue.nextNum) sent, congrArg (fun x => x.1.queue.last) sent,
    congrArg (fun x => x.1.switches) sent⟩
  refine (congrArg (fun x => x.1.snap.run) sent).trans ?_
  rw [← kind]

theorem gainPiece_sent {h : Header} {s : State} {q : SnapRun} (run : s.snap.run = some q) (kind : q.kind = .gain)
    (fresh : q.msg = none) : sendPiece h s = ({ s with
        snap := { s.snap with run := some { q with
          sends := q.sends + 1, msg := some (s.queue.nextNum, .gainSnap q.piece (gainPiece s q.piece)) } }
        queue := { s.queue with
          nextNum := s.queue.nextNum + 1
          written := some ⟨true, ⟨none, s.queue.nextNum, .gainSnap q.piece (gainPiece s q.piece), q.stamp⟩, h.count,
            h.origin.epoch⟩
          last := .piece } },
      some ⟨none, s.queue.nextNum, .gainSnap q.piece (gainPiece s q.piece), q.stamp⟩) := by
  have body : pieceBody q s = .gainSnap q.piece (gainPiece s q.piece) := by unfold pieceBody; rw [kind]
  rw [(sendPiece_stamped (h := h) run (stampSnap_again (.inl kind))).2 fresh, body]

/-! ### The statement -/

theorem cellChosen (h : Header) (s : State) (r : ∀ e, s.loop.restart ≠ .prepared e) :
    let at' := s.loop.count + BitVec.ofNat 32 s.queue.lead
    let t := (chooseCell h s).1
    let c := (chooseCell h s).2
    ∀ i l, s.queue.items = i :: l → s.snap.run = none →
      (headHeld i s → c = none ∧ t.queue.items = i :: l) ∧
      (¬ (bearsSwitch i.body = true ∧ i.stamp = none) → ¬ headHeld i s →
        c = some (headMessage h i i.stamp) ∧ t.queue = headSent h i l i.stamp s.queue.outstanding s.queue ∧
        t.switches = s.switches ∧ t.snap = s.snap) ∧
      (bearsSwitch i.body = true ∧ i.stamp = none → s.queue.outstanding = none → pendingOf s s.start.id = none →
        c = some (headMessage h i (some at')) ∧ t.queue = headSent h i l (some at') (some at') s.queue ∧
        t.switches = s.switches ++ [⟨s.start.id, .msg i.body, at', s.loop.epoch, i.op, false, i.cause⟩]) := by
  intro at' t c i l hi run
  refine ⟨fun held => ?_, fun first held => ?_, fun first waits p => ?_⟩
  · have choice := chooseCell_held (h := h) r hi held run
    exact ⟨congrArg Prod.snd choice, (congrArg (fun x => x.1.queue.items) choice).trans hi⟩
  · have sent := sendHead_stamped (h := h) (x := i.stamp) (o := s.queue.outstanding) hi (stampHead_again first) rfl rfl
    rwa [← chooseCell_head r hi held run] at sent
  · have held : ¬ headHeld i s := fun k => k.2.1 waits
    obtain ⟨cell, queue, switches, -⟩ := sendHead_stamped (h := h) hi (stampHead_first first p) rfl rfl
    rw [← chooseCell_head r hi held run] at cell queue switches
    exact ⟨cell, queue, switches⟩

/-- Settles O33, event by event and step by step. -/
theorem queueMoves : Obligations.QueueMoves := by
  refine ⟨fun s hr hs => ?_, fun s hr hs => ?_, setCount_leaves, fun h n c s => readCell_leaves h n c s,
    fun w h m level s body => lockNote_leaves w h m level s body, fun f s => rfl, fun w f s => ?_, fun h s r => ?_,
    writeCell_cells⟩
  · exact ⟨staleTalk_iff s, fun k => event_nothing hr hs (dropAssessed_idle k),
      fun i rest hw hm hi spent piece => itemDrop_head hr hs hw hm hi spent piece,
      fun q hw hm run spent head next => itemDrop_piece hr hs hw hm run spent head next⟩
  · obtain ⟨full, grant, release, map, notes⟩ := owedAdmit_happened s hr hs
    exact ⟨full, grant, release, map, notes, snapshotStart_happened s hr hs⟩
  · refine ⟨fun h => ?_, fun h k => assess_unconfirmed h k, fun i l h k message hi => ?_, fun q h k piece run next => ?_⟩
    · unfold assess
      rw [h]
    · have head := (assess_confirmed h k).trans (if_neg (by simp [message]))
      exact ⟨fun body => head.trans (confirmHead_plain (s := { s with queue := { s.queue with written := none } }) hi body),
        fun n c body => by
          rw [head]
          exact confirmHead_allot (s := { s with queue := { s.queue with written := none } }) hi body,
        fun x o op found go drill => tellConfirmed_op h k message hi op found go drill⟩
    · exact ((assess_confirmed h k).trans (if_pos piece)).trans
        (advancePiece_next (s := { s with queue := { s.queue with written := none } }) run next)
  · refine ⟨fun hi run => ?_, fun i l hi => ?_, fun q hi run => ?_⟩
    · have choice := chooseCell_empty (h := h) r hi run
      exact ⟨congrArg Prod.snd choice, congrArg Prod.fst choice⟩
    · have chosen := cellChosen h s r i l hi
      exact ⟨fun held run => (chosen run).1 held, fun first held run => (chosen run).2.1 first held,
        fun first waits p run => (chosen run).2.2 first waits p, fun q run k => cellTurn_both hi run k _⟩
    · refine ⟨fun kind stamp waits => ?_, fun kind stamp waits fresh p => ?_, fun kind fresh => ?_,
        fun n b again told => ?_⟩
      · have choice := chooseCell_pieceWaits (h := h) r hi run kind stamp waits
        exact ⟨congrArg Prod.snd choice, congrArg (fun x => x.1.snap) choice⟩
      · have sent := firstPiece_sent (h := h) run kind stamp fresh p
        rwa [← chooseCell_piece r hi run (.inr (.inr waits))] at sent
      · have sent := (chooseCell_piece (h := h) r hi run (.inl kind)).trans (gainPiece_sent run kind fresh)
        exact ⟨congrArg Prod.snd sent, congrArg (fun x => x.1.snap.run) sent,
          congrArg (fun x => x.1.queue.nextNum) sent, congrArg (fun x => x.1.queue.last) sent,
          congrArg (fun x => x.1.switches) sent⟩
      · have sent := (chooseCell_piece (h := h) r hi run (by tauto)).trans
          ((sendPiece_stamped run (stampSnap_again again)).1 n b told)
        refine ⟨congrArg Prod.snd sent, (congrArg (fun x => x.1.snap.run) sent).trans ?_,
          congrArg (fun x => x.1.queue.last) sent, (congrArg (fun x => x.1.queue.items) sent).trans hi,
          congrArg (fun x => x.1.switches) sent⟩
        rw [← told]

end Sys2Proof.Machine
end

section
/-! PROOFS. What a change of a port record leaves alone (R37, R42, R51 to R56): the port event, the commit, the drill it
overtakes. -/

namespace Sys2Proof.Machine

open Sys2Proof

/-! ### The blocks that a port event leaves -/

/-- The blocks and the parts of the loop record that no port event touches; a takeover timer stops or starts afresh. -/
structure Evented (s t : State) : Prop where
  start : t.start = s.start
  snap : t.snap = s.snap
  gain : t.gain = s.gain
  lock : t.lock = s.lock
  supervision : t.supervision = s.supervision
  safety : ∃ o, t.safety = { s.safety with outs := o }
  loop : ∃ f a b x l p u m n, t.loop = { s.loop with
    following := f, wrapA := a, wrapB := b, takeover := x, links := l, plan := p, unwrapOwed := u, noteOwedA := m
    noteOwedB := n }
  takeover : t.loop.takeover = s.loop.takeover ∨ t.loop.takeover = none ∨
    t.loop.takeover = some (ticksOf s.loop.takeoverMs)

theorem Evented.refl (s : State) : Evented s s :=
  ⟨rfl, rfl, rfl, rfl, rfl, ⟨_, rfl⟩, ⟨_, _, _, _, _, _, _, _, _, rfl⟩, .inl rfl⟩

theorem Evented.trans {s t u : State} (h : Evented s t) (k : Evented t u) : Evented s u := by
  obtain ⟨hs, hn, hg, hk, hv, ⟨_, ho⟩, ⟨_, _, _, _, _, _, _, _, _, hl⟩, ht⟩ := h
  obtain ⟨ks, kn, kg, kk, kv, ⟨_, ko⟩, ⟨_, _, _, _, _, _, _, _, _, kl⟩, kt⟩ := k
  refine ⟨ks.trans hs, kn.trans hn, kg.trans hg, kk.trans hk, kv.trans hv, ⟨_, by rw [ko, ho]⟩,
    ⟨_, _, _, _, _, _, _, _, _, by rw [kl, hl]⟩, ?_⟩
  have ms : t.loop.takeoverMs = s.loop.takeoverMs := by rw [hl]
  rw [ms] at kt
  rcases kt with kt | kt
  · rw [kt]; exact ht
  · exact .inr kt

/-- An operation on other blocks. -/
theorem Evented.still {s t : State} (hs : t.start = s.start) (hn : t.snap = s.snap) (hg : t.gain = s.gain)
    (hk : t.lock = s.lock) (hv : t.supervision = s.supervision) (ho : t.safety = s.safety) (hl : t.loop = s.loop) :
    Evented s t :=
  ⟨hs, hn, hg, hk, hv, ⟨_, ho⟩, ⟨_, _, _, _, _, _, _, _, _, hl⟩, .inl (by rw [hl])⟩

theorem Evented.ite {s a b : State} {c : Prop} [Decidable c] (h : Evented s a) (k : Evented s b) :
    Evented s (if c then a else b) := by
  split
  · exact h
  · exact k

theorem notify_evented (n : Notice) (s : State) : Evented s (notify n s) := by
  refine .still ?_ ?_ ?_ ?_ ?_ ?_ ?_ <;> simp

theorem setPort_evented (p : PortId) (r : PortRec) (s : State) : Evented s (s.setPort p r) := by
  refine .still ?_ ?_ ?_ ?_ ?_ ?_ ?_ <;> simp

theorem push_evented (d : QDest) (m : LoopMsg) (o : Option Byte) (c : GainCause) (s : State) :
    Evented s (push d m o c s) := .still rfl rfl rfl rfl rfl rfl rfl

theorem setWrap_evented (p : PortId) (w : Wrap) (s : State) : Evented s (s.setWrap p w) := by
  cases p <;> exact ⟨rfl, rfl, rfl, rfl, rfl, ⟨_, rfl⟩, ⟨_, _, _, _, _, _, _, _, _, rfl⟩, .inl rfl⟩

theorem wrapStep_evented (p : PortId) (was : Bool) (s : State) : Evented s (wrapStep p was s) := by
  unfold wrapStep
  simp only
  exact .ite (.ite ((setWrap_evented _ _ _).trans (setWrap_evented _ _ _))
    ((setWrap_evented _ _ _).trans (setWrap_evented _ _ _)))
    (.ite (.ite (setWrap_evented _ _ _) (.ite (setWrap_evented _ _ _) (.refl s))) (.refl s))

theorem markUsable_evented (p : PortId) (s : State) : Evented s (markUsable p s) :=
  .ite (setPort_evented _ _ _) (.refl s)

theorem pushLinkNote_evented (p : PortId) (s : State) : Evented s (pushLinkNote p s) := by
  unfold pushLinkNote
  split
  · exact push_evented _ _ _ _ _
  · cases p <;> exact ⟨rfl, rfl, rfl, rfl, rfl, ⟨_, rfl⟩, ⟨_, _, _, _, _, _, _, _, _, rfl⟩, .inl rfl⟩

/-! ### The master's record of the links (R55, R56, R69) -/

/-- The two states differ in the link table, the plan record, the owed UNWRAP_PLANs, the queue and the notices. -/
def LinksJudged (s t : State) : Prop :=
  ∃ k o p q l x d, t = { s with
    loop := { s.loop with links := k, unwrapOwed := o, plan := p }
    queue := q
    ctl := { s.ctl with notices := l, lost := x, discarded := d } }

theorem LinksJudged.refl (s : State) : LinksJudged s s := ⟨_, _, _, _, _, _, _, rfl⟩

theorem LinksJudged.trans {s t u : State} (h : LinksJudged s t) (k : LinksJudged t u) : LinksJudged s u := by
  obtain ⟨_, _, _, _, _, _, _, rfl⟩ := h
  obtain ⟨_, _, _, _, _, _, _, rfl⟩ := k
  exact ⟨_, _, _, _, _, _, _, rfl⟩

theorem Linked.judged {s t : State} (h : Linked s t) : LinksJudged s t := by
  obtain ⟨_, _, rfl⟩ := h
  exact ⟨_, _, _, _, _, _, _, rfl⟩

theorem LinksJudged.evented {s t : State} (h : LinksJudged s t) : Evented s t := by
  obtain ⟨_, _, _, _, _, _, _, rfl⟩ := h
  exact ⟨rfl, rfl, rfl, rfl, rfl, ⟨_, rfl⟩, ⟨_, _, _, _, _, _, _, _, _, rfl⟩, .inl rfl⟩

theorem LinksJudged.ports {s t : State} (h : LinksJudged s t) (p : PortId) : t.port p = s.port p := by
  obtain ⟨_, _, _, _, _, _, _, rfl⟩ := h
  cases p <;> rfl

theorem LinksJudged.mode {s t : State} (h : LinksJudged s t) : loopMode t = loopMode s := by
  obtain ⟨_, _, _, _, _, _, _, rfl⟩ := h
  exact loopMode_congr rfl rfl rfl rfl rfl rfl rfl rfl rfl

theorem LinksJudged.settled {s t : State} (h : LinksJudged s t) (hs : Settled s) : Settled t := by
  have mode := h.mode
  obtain ⟨_, _, _, _, _, _, _, rfl⟩ := h
  exact hs.of_same mode rfl rfl rfl rfl rfl rfl rfl rfl rfl rfl rfl

theorem markLost_judged (n : NodeId) (p : PortId) (far : Option NodeId) (s : State) :
    LinksJudged s (markLost n p far s) := by
  have ended (a : State) (c : Bool) :
      LinksJudged a (if c = true then { a with loop := { a.loop with plan := none } } else a) := by
    split
    · exact ⟨_, _, _, _, _, _, _, rfl⟩
    · exact .refl a
  unfold markLost
  cases far with
  | none => exact (modifyLink_linked _ _ _ _).judged.trans (ended _ _)
  | some m => exact ((modifyLink_linked _ _ _ _).judged.trans (modifyLink_linked _ _ _ _).judged).trans (ended _ _)

theorem sendWrap_judged (l : Link) (s : State) : LinksJudged s (sendWrap l s) := by
  unfold sendWrap pushInternal
  split
  · exact ⟨_, _, _, _, _, _, _, rfl⟩
  · obtain ⟨_, _, _, e⟩ := notify_eq (.loopChange (loopView s) (.queueFull (msgKind (.wrapPlan l)))) s
    exact ⟨_, _, _, _, _, _, _, e⟩

theorem takeLinkNote_judged (n : NodeId) (p : PortId) (st : LinkState) (m : Bool) (far : Option NodeId)
    (g : Option OriginGroup) (s : State) : LinksJudged s (takeLinkNote n p st m far g s) := by
  unfold takeLinkNote
  split
  · exact .refl s
  · simp only
    generalize (linkAt s n p).getD .empty = old
    generalize (far.orElse fun _ => old.partner) = known
    have ceased : LinksJudged s (if known = old.partner then s else ceaseReady n p s) := by
      split
      · exact .refl s
      · exact (ceaseReady_linked _ _ _).judged
    have entered := ceased.trans (modifyLink_linked n p (fun e => { e with
      state := some st, marginal := m, partner := known, group := g }) _).judged
    have lost (a : State) : LinksJudged a (if linkUsable st = true then a else markLost n p known a) := by
      split
      · exact .refl a
      · exact markLost_judged _ _ _ _
    have judged := (entered.trans (lost _)).trans (judgeLinks_linked _).judged
    revert judged
    generalize judgeLinks _ = u
    intro judged
    split
    · split
      · exact judged.trans (sendWrap_judged _ _)
      · exact judged
    · exact judged

/-! ### The port event (R37, R51) -/

theorem dropKeys_evented (c : DropCause) (s : State) : Evented s (dropKeys c s) := by
  refine .still ?_ ?_ ?_ ?_ ?_ ?_ ?_ <;> simp

theorem takeoverCheck_cases (m : LoopMode) (s : State) :
    (takeoverCheck m s).loop.takeover = s.loop.takeover ∨ (takeoverCheck m s).loop.takeover = none ∨
      (takeoverCheck m s).loop.takeover = some (ticksOf s.loop.takeoverMs) := by
  unfold takeoverCheck
  split
  · exact .inr (.inl rfl)
  · split
    · exact .inr (.inr rfl)
    · exact .inl rfl

theorem loop_afterLoop_eq (c : LoopCause) (old s : State) :
    (afterLoop c old s).loop = (takeoverCheck (loopMode old) s).loop := by
  unfold afterLoop
  simp only
  split
  · simp only [parts_notifyLoop, parts_retryCheck, parts_rejudge]
    split <;> simp
  · simp only [parts_retryCheck, parts_rejudge]
    split <;> simp

theorem takeover_afterLoop_cases (c : LoopCause) (old s : State) :
    (afterLoop c old s).loop.takeover = s.loop.takeover ∨ (afterLoop c old s).loop.takeover = none ∨
      (afterLoop c old s).loop.takeover = some (ticksOf s.loop.takeoverMs) := by
  rw [loop_afterLoop_eq]
  exact takeoverCheck_cases _ _

theorem afterLoop_evented (c : LoopCause) (old s : State) : Evented s (afterLoop c old s) := by
  obtain ⟨start, -, snap, gain, -, lock, supervision⟩ := parts_afterLoop c old s
  obtain ⟨x, loop⟩ := loop_afterLoop c old s
  exact ⟨start, snap, gain, lock, supervision, ⟨_, safety_afterLoop c old s⟩, ⟨_, _, _, _, _, _, _, _, _, loop⟩,
    takeover_afterLoop_cases c old s⟩

theorem portEvent_evented (p : PortId) (old : PortRec) (s : State) : Evented s (portEvent p old s) := by
  have noted (a : State) (c : Bool) (n : NodeId) (st : LinkState) (m : Bool) (f : Option NodeId) (g : Option OriginGroup) :
      Evented a (if c = true then takeLinkNote n p st m f g (pushLinkNote p a) else a) :=
    .ite ((pushLinkNote_evented p a).trans (takeLinkNote_judged _ _ _ _ _ _ _).evented) (.refl a)
  have ends (a b : State) (c : Bool) : Evented a (if c = true then
      afterLoop .originLost b (dropKeys .originLost { a with loop := { a.loop with following := false } })
      else afterLoop .port b a) := by
    refine .ite (Evented.trans ?_ ((dropKeys_evented _ _).trans (afterLoop_evented _ _ _))) (afterLoop_evented _ _ _)
    exact ⟨rfl, rfl, rfl, rfl, rfl, ⟨_, rfl⟩, ⟨_, _, _, _, _, _, _, _, _, rfl⟩, .inl rfl⟩
  unfold portEvent
  exact (((wrapStep_evented _ _ _).trans (markUsable_evented _ _)).trans (noted _ _ _ _ _ _ _)).trans (ends _ _ _)

/-! ### The commit (R38, R41, R42) -/

theorem commitBase_evented (p : PortId) (c : PortCause) (r : PortRec) (s : State) :
    Evented s (commitBase p c r s) := by
  unfold commitBase
  have told (a : State) (c' : Bool) : Evented a (if c' = true then notifyPort p c a else a) :=
    .ite (notify_evented _ _) (.refl a)
  have moved (a : State) (c' : Bool) (old : PortRec) : Evented a (if c' = true then portEvent p old a else a) :=
    .ite (portEvent_evented _ _ _) (.refl a)
  exact ((setPort_evented _ _ _).trans (told _ _)).trans (moved _ _ _)

theorem endOp_evented (tag : Byte) (v : Verdict) (r : OpResult) (s : State) : Evented s (endOp tag v r s) := by
  refine .still ?_ ?_ ?_ ?_ ?_ ?_ ?_ <;> simp

theorem endDrill_evented (p : PortId) (d : DrillRec) (v : Verdict) (b : Option FrameNo) (s : State) :
    Evented s (endDrill p d v b s) := (setPort_evented _ _ _).trans (endOp_evented _ _ _ _)

theorem overtakeDrill_evented (p : PortId) (s : State) : Evented s (overtakeDrill p s) := by
  have base := commitBase_evented p .drillEnd (drillOver (s.port p)) s
  unfold overtakeDrill
  simp only
  split
  · exact base.trans (endDrill_evented _ _ _ _ _)
  · exact base

/-- What a change of a port record leaves. -/
theorem commit_evented (p : PortId) (c : PortCause) (r : PortRec) (s : State) : Evented s (commit p c r s) := by
  have base := commitBase_evented p c r s
  unfold commit
  simp only
  generalize commitBase p c r s = u at base
  have overtaken : Evented s (if (overtakes (s.port p) r && (u.port (portOther p)).state == .drill) = true then
      overtakeDrill (portOther p) u else u) :=
    .ite (base.trans (overtakeDrill_evented _ _)) base
  generalize (if (overtakes (s.port p) r && (u.port (portOther p)).state == .drill) = true then
      overtakeDrill (portOther p) u else u) = v at overtaken
  split
  · split
    · exact overtaken.trans (endDrill_evented _ _ _ _ _)
    · exact overtaken
  · exact overtaken

/-! ### The record of a port itself -/

theorem port_of_parts {s t : State} (a : t.portA = s.portA) (b : t.portB = s.portB) (q : PortId) :
    t.port q = s.port q := by
  cases q
  · exact a
  · exact b

/-- A port that is not drilled is not touched by what follows a loop change. -/
theorem port_drillWrap {m : LoopMode} {s : State} {p q : PortId} (h : (s.port q).state ≠ .drill) :
    (drillWrap m s p).port q = s.port q := by
  unfold drillWrap
  simp only
  split
  · rfl
  · split
    next k =>
      by_cases e : q = p
      · subst e
        simp only [Bool.and_eq_true, decide_eq_true_eq] at k
        exact absurd k.1.1.1 h
      · rw [eq_portOther e, port_setPort_other]
    next => rfl

theorem port_afterLoop_undrilled {c : LoopCause} {old s : State} {q : PortId} (h : (s.port q).state ≠ .drill) :
    (afterLoop c old s).port q = s.port q := by
  have first : (dropPlans (loopMode old) (takeoverCheck (loopMode old) s)).port q = s.port q := by
    rw [port_dropPlans, port_takeoverCheck]
  have wrapA : (drillWrap (loopMode old) (dropPlans (loopMode old) (takeoverCheck (loopMode old) s)) .a).port q =
      s.port q := (port_drillWrap (by rw [first]; exact h)).trans first
  have wrapB := (port_drillWrap (m := loopMode old) (p := .b) (by rw [wrapA]; exact h)).trans wrapA
  unfold afterLoop
  simp only
  generalize drillWrap (loopMode old) (drillWrap (loopMode old) (dropPlans (loopMode old)
    (takeoverCheck (loopMode old) s)) .a) .b = d at wrapB
  have currency : (if modeLosesCopy d then loseCurrency d else d).port q = d.port q := by
    split
    · exact port_of_parts (by simp) (by simp) q
    · rfl
  generalize (if modeLosesCopy d then loseCurrency d else d) = u at currency
  have closed : (retryCheck (rejudge u)).port q = u.port q := port_of_parts (by simp) (by simp) q
  rw [currency, wrapB] at closed
  split
  · exact (port_of_parts (by simp) (by simp) q).trans closed
  · exact closed

theorem port_wrapStep (p : PortId) (was : Bool) (s : State) (q : PortId) : (wrapStep p was s).port q = s.port q := by
  unfold wrapStep
  simp only
  repeat' split
  all_goals simp

theorem start_wrapStep (p : PortId) (was : Bool) (s : State) : (wrapStep p was s).start = s.start :=
  (wrapStep_evented p was s).start

theorem port_markUsable_other (p : PortId) (s : State) : (markUsable p s).port (portOther p) = s.port (portOther p) := by
  unfold markUsable
  split
  · rw [port_setPort_other]
  · rfl

theorem port_markUsable_idle {p : PortId} {s : State} (h : s.usable p = false) : markUsable p s = s :=
  if_neg (by simp [h])

theorem port_pushLinkNote (p : PortId) (s : State) (q : PortId) : (pushLinkNote p s).port q = s.port q := by
  unfold pushLinkNote
  split
  · exact port_of_parts rfl rfl q
  · cases p <;> exact port_of_parts rfl rfl q

/-- A port event leaves the record of an undrilled port, but for the mark of a usable port's own event. -/
theorem port_portEvent {p : PortId} {old : PortRec} {s : State} {q : PortId} (h : (s.port q).state ≠ .drill)
    (k : q ≠ p ∨ s.usable p = false) : (portEvent p old s).port q = s.port q := by
  have marked : (markUsable p (wrapStep p (portUsable old) s)).port q = s.port q := by
    by_cases e : q = p
    · have unusable : (wrapStep p (portUsable old) s).usable p = false := by
        unfold State.usable
        rw [port_wrapStep]
        exact k.resolve_left (fun n => n e)
      rw [port_markUsable_idle unusable, port_wrapStep]
    · rw [eq_portOther e, port_markUsable_other, port_wrapStep]
  have noted (a : State) (c : Bool) (n : NodeId) (st : LinkState) (m : Bool) (f : Option NodeId) (g : Option OriginGroup) :
      (if c = true then takeLinkNote n p st m f g (pushLinkNote p a) else a).port q = a.port q := by
    split
    · rw [(takeLinkNote_judged _ _ _ _ _ _ _).ports, port_pushLinkNote]
    · rfl
  unfold portEvent
  simp only
  generalize markUsable p (wrapStep p (portUsable old) s) = a at marked
  have both := (noted a (noteDue old (s.port p)) s.start.id (linkState (s.port p)) (s.port p).flags.marginal
    ((s.port p).partner.map (·.sender)) ((s.port p).partner.bind (·.offer.origin))).trans marked
  revert both
  generalize (if noteDue old (s.port p) = true then takeLinkNote s.start.id p (linkState (s.port p))
    (s.port p).flags.marginal ((s.port p).partner.map (·.sender)) ((s.port p).partner.bind (·.offer.origin))
    (pushLinkNote p a) else a) = b
  intro both
  split
  · have dropped : (dropKeys .originLost { b with loop := { b.loop with following := false } }).port q = s.port q :=
      (port_of_parts (by simp) (by simp) q).trans ((port_of_parts rfl rfl q).trans both)
    rw [port_afterLoop_undrilled (by rw [dropped]; exact h), dropped]
  · rw [port_afterLoop_undrilled (by rw [both]; exact h), both]

theorem port_commitBase {p : PortId} {c : PortCause} {r : PortRec} {s : State} {q : PortId}
    (h : ((s.setPort p r).port q).state ≠ .drill) (k : q ≠ p ∨ portUsable r = false) :
    (commitBase p c r s).port q = (s.setPort p r).port q := by
  have told : (if stateOrFlags (s.port p) r then notifyPort p c (s.setPort p r) else s.setPort p r).port q =
      (s.setPort p r).port q := by
    split
    · exact port_of_parts (by simp [notifyPort]) (by simp [notifyPort]) q
    · rfl
  have self : (if stateOrFlags (s.port p) r then notifyPort p c (s.setPort p r) else s.setPort p r).port p = r := by
    split
    · exact (port_of_parts (by simp [notifyPort]) (by simp [notifyPort]) p).trans (port_setPort s p r)
    · exact port_setPort s p r
  unfold commitBase
  simp only
  generalize (if stateOrFlags (s.port p) r then notifyPort p c (s.setPort p r) else s.setPort p r) = u at told self
  split
  · rw [port_portEvent (by rw [told]; exact h) (k.imp_right fun n => by unfold State.usable; rw [self]; exact n), told]
  · exact told

theorem portOther_ne (p : PortId) : p ≠ portOther p := by cases p <;> simp [portOther]

theorem port_endOp (tag : Byte) (v : Verdict) (r : OpResult) (s : State) (q : PortId) :
    (endOp tag v r s).port q = s.port q := port_of_parts (by simp) (by simp) q

theorem port_endDrill_other (p : PortId) (d : DrillRec) (v : Verdict) (b : Option FrameNo) (s : State) :
    (endDrill p d v b s).port (portOther p) = s.port (portOther p) := by
  unfold endDrill
  rw [port_endOp, port_setPort_other]

theorem port_overtakeDrill_other {p : PortId} {s : State} (h : (s.port (portOther p)).state ≠ .drill) :
    (overtakeDrill p s).port (portOther p) = s.port (portOther p) := by
  have base : (commitBase p .drillEnd (drillOver (s.port p)) s).port (portOther p) = s.port (portOther p) :=
    (port_commitBase (by rw [port_setPort_other]; exact h) (.inl (portOther_ne p).symm)).trans (port_setPort_other _ _ _)
  unfold overtakeDrill
  simp only
  split
  · rw [port_endDrill_other, base]
  · exact base

/-- A port that takes a record which is neither usable nor drilled stands as that record. -/
theorem port_commit_down {p : PortId} {c : PortCause} {r : PortRec} {s : State} (h : r.state ≠ .drill)
    (u : r.state ≠ .up) : (commit p c r s).port p = r := by
  have base : (commitBase p c r s).port p = r := by
    rw [port_commitBase (by rw [port_setPort]; exact h) (.inr (by simp [portUsable, u])), port_setPort]
  unfold commit
  simp only
  generalize commitBase p c r s = b at base
  have overtaken : (if (overtakes (s.port p) r && (b.port (portOther p)).state == .drill) = true then
      overtakeDrill (portOther p) b else b).port p = r := by
    split
    · have other := port_overtakeDrill_other (p := portOther p) (s := b) (by rw [portOther_portOther, base]; exact h)
      rwa [portOther_portOther, base] at other
    · exact base
  rw [if_neg (by simp [u])]
  exact overtaken

end Sys2Proof.Machine
end

section
/-! PROOFS. A frame at a port (R25 to R36): commits without a port event, the record after a good and after a bad frame,
and the effect of the frame by the port's state. -/

namespace Sys2Proof.Machine

open Sys2Proof

/-! ### Commits without consequence beyond the record -/

theorem overtakes_off {old new : PortRec} (h : old.state = new.state ∨ old.state ≠ .up)
    (k : new.flags.remoteFault = true → old.flags.remoteFault = true) : overtakes old new = false := by
  have fault : (!old.flags.remoteFault && new.flags.remoteFault) = false := by
    cases e : new.flags.remoteFault
    · simp
    · simp [k e]
  have leaves : (old.state == .up && new.state != .up) = false := by
    rcases h with h | h
    · rw [h]; cases new.state <;> rfl
    · simp [h]
  unfold overtakes
  rw [fault, leaves]
  rfl

/-- A change of neither state, flags nor the partner's group is the record alone. -/
theorem commit_record {p : PortId} {c : PortCause} {r : PortRec} {s : State} (state : r.state = (s.port p).state)
    (flags : r.flags = (s.port p).flags) (group : partnerGroup r = partnerGroup (s.port p)) :
    commit p c r s = s.setPort p r := by
  have same : stateOrFlags (s.port p) r = false := by simp [stateOrFlags, state, flags]
  have base : commitBase p c r s = s.setPort p r := by
    unfold commitBase
    simp [same, group]
  unfold commit
  simp only [base, overtakes_off (.inl state.symm) (by rw [flags]; exact id)]
  simp only [Bool.false_and, Bool.false_eq_true, if_false]
  rw [if_neg]
  simp only [Bool.and_eq_true, bne_iff_ne, beq_iff_eq, ← state]
  exact fun k => k.1 k.2

/-- The port event of a port that is not usable before and after it. -/
theorem portEvent_unusable {p : PortId} {old : PortRec} {s : State} (h : Settled s) (was : portUsable old = false)
    (now : s.usable p = false) : portEvent p old s = s := by
  have wraps : wrapStep p false s = s := by
    unfold wrapStep
    simp [now]
  have unnoted : noteDue old (s.port p) = false := by
    have k : portUsable (s.port p) = false := now
    simp [noteDue, was, k]
  have stays : losesOrigin false s = false := rfl
  unfold portEvent
  simp only [was, wraps, port_markUsable_idle now, unnoted, stays, Bool.false_eq_true, if_false]
  have usable (q : PortId) : (s.setPort p old).usable q = s.usable q := by
    by_cases e : q = p
    · rw [e, usable_setPort, was, now]
    · rw [eq_portOther e, usable_setPort_other]
  refine afterLoop_still h (loopMode_congr ?_ ?_ ?_ ?_ ?_ ?_ ?_ (usable .a) (usable .b)) ?_ ?_ ?_ ?_
  all_goals simp

theorem port_notify (n : Notice) (s : State) (q : PortId) : (notify n s).port q = s.port q :=
  port_of_parts (by simp) (by simp) q

/-- A change of state or flags at a port that is not usable before and after it is the record and its PORT_CHANGE. -/
theorem commit_unusable {p : PortId} {c : PortCause} {r : PortRec} {s : State} (hs : Settled s)
    (was : portUsable (s.port p) = false) (now : portUsable r = false) (up : (s.port p).state ≠ .up → r.state ≠ .up)
    (quiet : overtakes (s.port p) r = false) (moved : stateOrFlags (s.port p) r = true) :
    commit p c r s = notify (.portChange p r.state r.flags r.light c) (s.setPort p r) := by
  have told : notifyPort p c (s.setPort p r) = notify (.portChange p r.state r.flags r.light c) (s.setPort p r) := by
    unfold notifyPort
    simp only [port_setPort]
  have settled : Settled (notify (.portChange p r.state r.flags r.light c) (s.setPort p r)) :=
    notify_settled _ (hs.setPort p r (by rw [now]; exact was.symm))
  have unusable : (notify (.portChange p r.state r.flags r.light c) (s.setPort p r)).usable p = false := by
    unfold State.usable
    rw [port_notify, port_setPort, now]
  have base : commitBase p c r s = notify (.portChange p r.state r.flags r.light c) (s.setPort p r) := by
    unfold commitBase
    simp only [moved, if_true, Bool.true_or, told]
    exact portEvent_unusable settled was unusable
  unfold commit
  simp only [base, quiet, Bool.false_and, Bool.false_eq_true, if_false]
  rw [if_neg]
  simp only [Bool.and_eq_true, bne_iff_ne, ne_eq, beq_iff_eq, not_and]
  exact up

/-- An event whose effect is a settled state and one notice. -/
theorem event_oneNotice {f : State → State} {s u : State} {n : Notice} (hr : s.inReset = false)
    (e : f s = notify n u) (hu : Settled u) (hc : u.ctl = s.ctl) (hst : u.start = s.start) :
    ∃ t, done f s = .next t ∧ Happened [n] s u t := by
  obtain ⟨blocks, inbox, made, chosen⟩ := notify_same n u
  exact event_noticed hr e (notify_settled n hu) (.notify_of n (by rw [hc]) (by rw [hc])) blocks (inbox.trans (by rw [hc]))
    (made.trans (by rw [hc])) (chosen.trans (by rw [hc])) (by rw [blocks.start, hst])

/-! ### The record after a frame -/

theorem passesCheck_iff (a : Arrival) : passesCheck a = true ↔ frameCheck a.frame = a.check := by
  simp [passesCheck]

/-- The port's record once a frame has been seen. -/
def seen (a : Arrival) (r : PortRec) : PortRec :=
  { r with
    arrived := r.arrived + 1
    lineRate := if passesCheck a then a.frame.header.rate else r.lineRate
    time := a.now }

/-- The record after a good frame, before the port's state is looked at. -/
def seenGood (a : Arrival) (r : PortRec) : PortRec := noteStamp a.frame.link a.now (measureDelay a.frame.link a.now (countGood (seen a r)))

theorem markArrived_seen {p : PortId} {a : Arrival} {s : State} (h : (s.port p).state ≠ .drill) :
    markArrived p a s = s.setPort p (seen a (s.port p)) := by
  unfold markArrived
  simp only
  rw [if_neg h]
  rfl

theorem measureDelay_down {f : Option LinkField} {now : Nanos} {r : PortRec} (h : r.state ≠ .up) :
    measureDelay f now r = r := by
  unfold measureDelay
  cases k : r.state
  case up => exact absurd k h
  all_goals rfl

theorem state_counted (f : Option LinkField) (now : Nanos) (r : PortRec) :
    (noteStamp f now (measureDelay f now (countGood r))).state = r.state := by
  rw [(state_noteStamp _ _ _).1, (state_measureDelay _ _ _).1, (state_countGood _).1]

/-- What a good frame leaves in the record of a port that is not aligned. -/
theorem seenGood_unaligned {a : Arrival} {r : PortRec} (good : passesCheck a = true) (h : isAligned r.state = false) :
    seenGood a r = { r with
      arrived := r.arrived + 1
      lineRate := a.frame.header.rate
      time := a.now
      counters := { r.counters with good := bump r.counters.good }
      lastGood := match a.frame.link with
        | some l => some (l.offer.sendStamp, a.now)
        | none => r.lastGood } := by
  have up : r.state ≠ .up := fun e => by rw [e] at h; cases h
  have counted : countGood (seen a r) = { seen a r with counters := { r.counters with good := bump r.counters.good } } := by
    unfold countGood
    exact if_neg (by simpa [seen] using h)
  unfold seenGood
  rw [counted, measureDelay_down (by exact up)]
  unfold noteStamp seen
  rw [good]
  cases a.frame.link <;> rfl

/-- What it leaves at a port in SETTLE. -/
theorem seenGood_settle {a : Arrival} {r : PortRec} (good : passesCheck a = true) (h : r.state = .settle) :
    seenGood a r = { r with
      arrived := r.arrived + 1
      lineRate := a.frame.header.rate
      time := a.now
      counters := { r.counters with good := bump r.counters.good }
      lastGood := (match a.frame.link with
        | some l => some (l.offer.sendStamp, a.now)
        | none => r.lastGood)
      badRun := 0
      winFrames := r.winFrames + 1 } := by
  have counted : countGood (seen a r) = { seen a r with
      counters := { r.counters with good := bump r.counters.good }, badRun := 0, winFrames := r.winFrames + 1 } := by
    unfold countGood
    exact if_pos (by simp [seen, h, isAligned])
  unfold seenGood
  rw [counted, measureDelay_down (by simp [seen, h])]
  unfold noteStamp seen
  rw [good]
  cases a.frame.link <;> rfl

/-! ### The frame by the port's state -/

theorem receive_drill {p : PortId} {a : Arrival} {s : State} (h : (s.port p).state = .drill) :
    receive p a s = s.setPort p { s.port p with time := a.now } := by
  have marked : markArrived p a s = s.setPort p { s.port p with time := a.now } := by
    unfold markArrived
    simp only
    rw [if_pos h]
  have drilled : ((s.setPort p { s.port p with time := a.now }).port p).state = .drill := by rw [port_setPort]; exact h
  unfold receive
  rw [marked]
  split
  · have good : goodFrame p a.frame.link a.now (s.setPort p { s.port p with time := a.now }) =
        s.setPort p { s.port p with time := a.now } := by
      unfold goodFrame
      simp only [state_counted, drilled]
    simp only [good]
    rw [if_neg (by simp [h])]
  · unfold failedFrame
    simp only [drilled]

theorem receive_bad {p : PortId} {a : Arrival} {s : State} (h : (s.port p).state ≠ .drill) (bad : passesCheck a = false) :
    receive p a s = failedFrame p (s.setPort p (seen a (s.port p))) := by
  unfold receive
  rw [markArrived_seen h]
  exact if_neg (by simp [bad])

theorem receive_down {p : PortId} {a : Arrival} {s : State} (h : (s.port p).state ≠ .drill) (good : passesCheck a = true)
    (down : (s.port p).state ≠ .up) :
    receive p a s = goodFrame p a.frame.link a.now (s.setPort p (seen a (s.port p))) := by
  unfold receive
  rw [markArrived_seen h]
  simp only [good, if_true]
  exact if_neg (by simp [down])

/-- What a good frame does at its port, the sight of the node's own id apart (R25 to R36). -/
def frameEffect (p : PortId) (f : Option LinkField) (r : PortRec) (s : State) : State :=
  match r.state with
  | .drill => s
  | .dark => s.setPort p r
  | .seek => alignFrame p r s
  | .settle => s.setPort p r
  | .offer => commit p (examineOffer s f r).2 (examineOffer s f r).1 s
  | .up =>
    if r.flags.fixed then
      match f with
      | none => s.setPort p r
      | some _ => reOffer p .fixedEnd f r s
    else upFrame p f r s
  | .mismatch => mismatchFrame p f r s

theorem goodFrame_eq {p : PortId} {f : Option LinkField} {now : Nanos} {s : State}
    (h : (s.port p).state ≠ .settle) (k : (s.port p).state ≠ .drill) : goodFrame p f now s =
      if sightsSelf s f then
        enterConflict .duplicateId (frameEffect p f (noteStamp f now (measureDelay f now (countGood (s.port p)))) s)
      else frameEffect p f (noteStamp f now (measureDelay f now (countGood (s.port p)))) s := by
  unfold goodFrame frameEffect
  simp only [state_counted]
  cases q : (s.port p).state
  case settle => exact absurd q h
  case drill => exact absurd q k
  all_goals rfl

theorem goodFrame_settle {p : PortId} {f : Option LinkField} {now : Nanos} {s : State}
    (h : (s.port p).state = .settle) :
    goodFrame p f now s = s.setPort p (noteStamp f now (measureDelay f now (countGood (s.port p)))) := by
  unfold goodFrame
  simp only [state_counted, h]

theorem reOffer_evented (p : PortId) (c : PortCause) (f : Option LinkField) (r : PortRec) (s : State) :
    Evented s (reOffer p c f r s) := by
  unfold reOffer
  simp only
  split
  · exact commit_evented _ _ _ _
  · exact (commit_evented _ _ _ _).trans (commit_evented _ _ _ _)

theorem upFrame_evented (p : PortId) (f : Option LinkField) (r : PortRec) (s : State) : Evented s (upFrame p f r s) := by
  unfold upFrame
  split
  · exact commit_evented _ _ _ _
  · exact .ite (commit_evented _ _ _ _) (.ite (.ite (commit_evented _ _ _ _) (commit_evented _ _ _ _))
      (reOffer_evented _ _ _ _ _))

theorem mismatchFrame_evented (p : PortId) (f : Option LinkField) (r : PortRec) (s : State) :
    Evented s (mismatchFrame p f r s) := by
  unfold mismatchFrame
  split
  · exact setPort_evented _ _ _
  · exact .ite (reOffer_evented _ _ _ _ _) (commit_evented _ _ _ _)

theorem frameEffect_evented (p : PortId) (f : Option LinkField) (r : PortRec) (s : State) :
    Evented s (frameEffect p f r s) := by
  unfold frameEffect
  split
  · exact .refl s
  · exact setPort_evented _ _ _
  · exact .ite (commit_evented _ _ _ _) (setPort_evented _ _ _)
  · exact setPort_evented _ _ _
  · exact commit_evented _ _ _ _
  · refine .ite ?_ (upFrame_evented _ _ _ _)
    split
    · exact setPort_evented _ _ _
    · exact reOffer_evented _ _ _ _ _
  · exact mismatchFrame_evented _ _ _ _

theorem alignedBad_evented (p : PortId) (s : State) : Evented s (alignedBad p s) :=
  .ite (commit_evented _ _ _ _) (commit_evented _ _ _ _)

/-! ### The duplicate id (R28, R67) -/

theorem sightsSelf_iff (s : State) (f : Option LinkField) :
    sightsSelf s f = true ↔ ∃ l, f = some l ∧ l.sender = s.start.id := by
  cases f <;> simp [sightsSelf]

theorem loop_enterConflict {c : ConflictCause} {s : State} (h : s.loop.conflict = none) :
    ∃ x, (enterConflict c s).loop = { s.loop with
      conflict := some c, role := .follower, following := false, takeover := x, restart := .idle
      formerOwn := formerAfter s } := by
  have dropped (a : State) : (dropKeys .conflict a).loop = a.loop := by simp
  unfold enterConflict
  rw [if_neg (by simp [h])]
  simp only
  split
  all_goals
    obtain ⟨x, e⟩ := loop_afterLoop (.conflict c) s (dropKeys .conflict { s with
      loop := { s.loop with
        conflict := some c, role := .follower, following := false, takeover := none, restart := .idle
        formerOwn := formerAfter s }
      talk := { s.talk with records := List.replicate 4 .empty } })
    rw [dropped] at e
  · exact ⟨x, e⟩
  · exact ⟨x, (parts_notifyLoop _ _).2.2.2.1.trans e⟩

theorem enterConflict_again {c : ConflictCause} {s : State} (h : s.loop.conflict ≠ none) : enterConflict c s = s :=
  if_pos (Option.isSome_iff_ne_none.2 h)

/-- In CONFLICT a frame is relayed at most. -/
theorem loop_dispatch_conflict {p : PortId} {f : Frame} {now : Nanos} {s : State} (h : s.loop.conflict ≠ none) :
    (dispatch p f now s).loop = s.loop := by
  have relayed : (relay p f s).loop = s.loop := by
    unfold relay
    split
    · unfold route
      split
      · rw [loop_setPort]
      · rfl
    · rfl
  unfold dispatch
  split
  · rfl
  · have mode : loopMode s = .held ∨ loopMode s = .conflict := by
      unfold loopMode
      by_cases held : s.start.held = true
      · exact .inl (if_pos held)
      · rw [if_neg held]
        exact .inr (if_pos (Option.isSome_iff_ne_none.2 h))
    rcases mode with mode | mode <;> rw [mode] <;> exact relayed

end Sys2Proof.Machine
end

section
/-! PROOFS. PORT_FRAME_RECEIVE and ALIGNED (R25 to R33): ports that are not aligned, the frame that aligns, the bad frame
at an aligned port. -/

namespace Sys2Proof.Machine

open Sys2Proof

/-! ### Events that change a port's record -/

theorem event_setPort {f : State → State} {s : State} {p : PortId} {x : PortRec} (hr : s.inReset = false)
    (hs : Settled s) (e : f s = s.setPort p x) (u : portUsable x = s.usable p) :
    ∃ t, done f s = .next t ∧ Happened [] s (s.setPort p x) t :=
  event_changed hr e (hs.setPort p x u) (ctl_setPort _ _ _) (by rw [start_setPort])

theorem event_portChange {f : State → State} {s : State} {p : PortId} {x : PortRec} {n : Notice} (hr : s.inReset = false)
    (hs : Settled s) (e : f s = notify n (s.setPort p x)) (u : portUsable x = s.usable p) :
    ∃ t, done f s = .next t ∧ Happened [n] s (s.setPort p x) t :=
  event_oneNotice hr e (hs.setPort p x u) (ctl_setPort _ _ _) (start_setPort _ _ _)

theorem usable_down {s : State} {p : PortId} (h : (s.port p).state ≠ .up) : s.usable p = false := by
  simp [State.usable, portUsable, h]

theorem portUsable_down {r : PortRec} (h : r.state ≠ .up) : portUsable r = false := by simp [portUsable, h]

/-- The record once a bad frame has been seen. -/
theorem seen_bad {a : Arrival} {r : PortRec} (bad : passesCheck a = false) :
    seen a r = { r with arrived := r.arrived + 1, time := a.now } := by
  unfold seen
  rw [bad]
  rfl

theorem receive_down_effect {p : PortId} {a : Arrival} {s : State} (good : passesCheck a = true)
    (h : (s.port p).state = .dark ∨ (s.port p).state = .seek) : receive p a s =
      if sightsSelf s a.frame.link then
        enterConflict .duplicateId (frameEffect p a.frame.link (seenGood a (s.port p)) (s.setPort p (seen a (s.port p))))
      else frameEffect p a.frame.link (seenGood a (s.port p)) (s.setPort p (seen a (s.port p))) := by
  have down (st : PortState) (k : st ≠ .dark) (l : st ≠ .seek) : (s.port p).state ≠ st := by
    rintro rfl
    exact h.elim k l
  have here : ((s.setPort p (seen a (s.port p))).port p).state = (s.port p).state := by rw [port_setPort]; rfl
  rw [receive_down (down _ (by simp) (by simp)) good (down _ (by simp) (by simp)),
    goodFrame_eq (by rw [here]; exact down _ (by simp) (by simp)) (by rw [here]; exact down _ (by simp) (by simp)),
    port_setPort]
  have sight : sightsSelf (s.setPort p (seen a (s.port p))) a.frame.link = sightsSelf s a.frame.link := by
    unfold sightsSelf
    rw [start_setPort]
  rw [sight]
  rfl

theorem frameEffect_dark {p : PortId} {f : Option LinkField} {r x : PortRec} {s : State} (h : r.state = .dark) :
    frameEffect p f r (s.setPort p x) = s.setPort p r := by
  unfold frameEffect
  rw [h]
  exact setPort_setPort s p x r

theorem frameEffect_seek {p : PortId} {f : Option LinkField} {r x : PortRec} {s : State} (h : r.state = .seek)
    (k : r.alignRun + 1 < 8) : frameEffect p f r (s.setPort p x) = s.setPort p { r with alignRun := r.alignRun + 1 } := by
  unfold frameEffect alignFrame
  rw [h]
  exact (if_neg (Nat.not_le.2 k)).trans (setPort_setPort s p x _)

/-- The record of a port that a frame has aligned (R25, R33). -/
def alignedRec (r : PortRec) : PortRec :=
  { r with
    state := .settle, alignRun := 0, badRun := 0, settle := some (r.settleMs * 96)
    winFrames := 0, winBad := 0, window := some (100 * 96), lightHeld := r.lightCond
    winWholeUp := false, delaySum := 0, delayCount := 0 }

theorem frameEffect_aligns {p : PortId} {f : Option LinkField} {r x : PortRec} {s : State} (hs : Settled (s.setPort p x))
    (h : r.state = .seek) (k : 8 ≤ r.alignRun + 1) (hx : x.state = .seek) (hf : r.flags = x.flags) :
    frameEffect p f r (s.setPort p x) =
      notify (.portChange p .settle r.flags r.light .aligned) (s.setPort p (alignedRec r)) := by
  have effect : frameEffect p f r (s.setPort p x) = commit p .aligned (alignedRec r) (s.setPort p x) := by
    unfold frameEffect alignFrame
    rw [h]
    exact if_pos k
  rw [effect, commit_unusable hs]
  · rw [setPort_setPort]
    rfl
  · rw [port_setPort]; exact portUsable_down (by simp [hx])
  · exact portUsable_down (by simp [alignedRec])
  · simp [alignedRec]
  · refine overtakes_off (.inr (by simp [hx])) ?_
    rw [port_setPort, ← hf]
    exact id
  · simp [stateOrFlags, hx, alignedRec]

/-! ### The bad frame at an aligned port (R25, R33) -/

theorem windowLimit_eq (r : Rate) : windowLimit r = if r = .k48 then 48 else 96 := by cases r <;> rfl

/-- The record after one more bad frame, the window's limit apart. -/
def badRec (r : PortRec) : PortRec :=
  { r with
    counters := { r.counters with bad := bump r.counters.bad }
    badRun := r.badRun + 1, winFrames := r.winFrames + 1, winBad := r.winBad + 1
    agreeRun := if r.state = .offer then 0 else r.agreeRun }

theorem countBad_eq (rate : Rate) (r : PortRec) : countBad rate r =
    if windowLimit rate < r.winBad + 1 then setMarginal (badRec r) else badRec r := rfl

theorem countBad_within {rate : Rate} {r : PortRec} (h : ¬ (if rate = .k48 then 48 else 96) < r.winBad + 1) :
    countBad rate r = badRec r := by
  rw [countBad_eq, windowLimit_eq]
  exact if_neg h

theorem countBad_marginal {rate : Rate} {r : PortRec} (h : r.flags.marginal = true) : countBad rate r = badRec r := by
  rw [countBad_eq]
  split
  · exact if_pos h
  · rfl

theorem countBad_sets {rate : Rate} {r : PortRec} (h : (if rate = .k48 then 48 else 96) < r.winBad + 1)
    (k : r.flags.marginal = false) : countBad rate r = { badRec r with
      flags := { r.flags with marginal := true }
      counters := { (badRec r).counters with marginalEntries := bump r.counters.marginalEntries } } := by
  rw [countBad_eq, windowLimit_eq, if_pos h]
  unfold setMarginal
  exact if_neg (by simp [badRec, k])

theorem badRun_countBad (rate : Rate) (r : PortRec) : (countBad rate r).badRun = r.badRun + 1 := by
  rw [countBad_eq]
  unfold setMarginal
  repeat' split
  all_goals rfl

theorem receive_aligned_bad {p : PortId} {a : Arrival} {s : State} (h : isAligned (s.port p).state = true)
    (bad : passesCheck a = false) : receive p a s =
      alignedBad p (s.setPort p { s.port p with arrived := (s.port p).arrived + 1, time := a.now }) := by
  have drill : (s.port p).state ≠ .drill := fun e => by rw [e] at h; cases h
  rw [receive_bad drill bad, seen_bad bad]
  unfold failedFrame
  simp only [port_setPort]
  cases k : (s.port p).state
  case dark => rw [k] at h; cases h
  case seek => rw [k] at h; cases h
  case drill => exact absurd k drill
  all_goals rfl

theorem alignedBad_kept {p : PortId} {s : State} (h : (s.port p).badRun + 1 < 16) :
    alignedBad p s = commit p .marginalSet (countBad s.start.rate (s.port p)) s := by
  unfold alignedBad
  exact if_neg (by rw [badRun_countBad]; exact Nat.not_le.2 h)

/-- The record after the bad frame that loses alignment. -/
def lostRec (rate : Rate) (r : PortRec) : PortRec :=
  leaveAlignment .seek { countBad rate r with counters := { (countBad rate r).counters with
    alignLosses := bump (countBad rate r).counters.alignLosses } }

theorem alignedBad_lost {p : PortId} {s : State} (h : 16 ≤ (s.port p).badRun + 1) :
    alignedBad p s = commit p .alignLost (lostRec s.start.rate (s.port p)) s := by
  unfold alignedBad
  exact if_pos (by rw [badRun_countBad]; exact h)

theorem state_leaveAlignment (st : PortState) (r : PortRec) : (leaveAlignment st r).state = st ∧
    (leaveAlignment st r).flags = ⟨false, false, false⟩ ∧ (leaveAlignment st r).light = r.light ∧
    (leaveAlignment st r).time = r.time ∧ (leaveAlignment st r).counters = r.counters := by
  unfold leaveAlignment relockIfUp clearWork
  split <;> exact ⟨rfl, rfl, rfl, rfl, rfl⟩

/-- Out of alignment, seen from a record that agrees in what is kept (R20, R24, R35). -/
theorem leaveAlignment_unaligned (st : PortState) {r x : PortRec} (state : x.state = r.state) (relock : x.relock = r.relock)
    (drill : x.drill = r.drill ∧ x.drillT = r.drillT ∧ x.txOn = r.txOn)
    (settings : x.loss = r.loss ∧ x.marginalAt = r.marginalAt ∧ x.hyst = r.hyst ∧ x.settleMs = r.settleMs) :
    Unaligned st r (leaveAlignment st x) := by
  unfold leaveAlignment relockIfUp
  rw [state]
  by_cases up : r.state = .up
  · rw [if_pos up]
    exact ⟨rfl, rfl, rfl, rfl, ⟨rfl, rfl, rfl, rfl⟩, ⟨rfl, rfl, rfl⟩, by rw [if_pos up]; rfl, drill, settings⟩
  · rw [if_neg up]
    exact ⟨rfl, rfl, rfl, rfl, ⟨rfl, rfl, rfl, rfl⟩, ⟨rfl, rfl, rfl⟩, by rw [if_neg up]; exact relock, drill, settings⟩

theorem countBad_keeps (rate : Rate) (r : PortRec) : (countBad rate r).state = r.state ∧
    (countBad rate r).light = r.light ∧ (countBad rate r).time = r.time ∧ (countBad rate r).relock = r.relock ∧
    ((countBad rate r).drill = r.drill ∧ (countBad rate r).drillT = r.drillT ∧ (countBad rate r).txOn = r.txOn) ∧
    ((countBad rate r).loss = r.loss ∧ (countBad rate r).marginalAt = r.marginalAt ∧ (countBad rate r).hyst = r.hyst ∧
      (countBad rate r).settleMs = r.settleMs) ∧
    (countBad rate r).counters = { r.counters with
      bad := bump r.counters.bad
      marginalEntries := if decide ((if rate = .k48 then 48 else 96) < r.winBad + 1) && !r.flags.marginal then
        bump r.counters.marginalEntries else r.counters.marginalEntries } := by
  by_cases past : (if rate = .k48 then 48 else 96) < r.winBad + 1
  · cases marginal : r.flags.marginal with
    | true =>
      rw [countBad_marginal marginal, if_neg (by simp)]
      exact ⟨rfl, rfl, rfl, rfl, ⟨rfl, rfl, rfl⟩, ⟨rfl, rfl, rfl, rfl⟩, rfl⟩
    | false =>
      rw [countBad_sets past marginal, if_pos (by simpa using past)]
      exact ⟨rfl, rfl, rfl, rfl, ⟨rfl, rfl, rfl⟩, ⟨rfl, rfl, rfl, rfl⟩, rfl⟩
  · rw [countBad_within past, if_neg (by simp [past])]
    exact ⟨rfl, rfl, rfl, rfl, ⟨rfl, rfl, rfl⟩, ⟨rfl, rfl, rfl, rfl⟩, rfl⟩

theorem Evented.portEventFrame {s t u : State} (h : Evented s u) (same : SameBlocks (settle u) t)
    (pending : t.pending = s.pending) : PortEventFrame s t := by
  obtain ⟨start, -, -, -, snap, -, gain, -, lock, supervision⟩ := settled_blocks same
  exact ⟨start.trans h.start, snap.trans h.snap, gain.trans h.gain, lock.trans h.lock,
    supervision.trans h.supervision, pending⟩

theorem port_settled {u t : State} (same : SameBlocks (settle u) t) (p : PortId) : t.port p = u.port p := by
  obtain ⟨-, portA, portB, -⟩ := settled_blocks same
  exact port_of_parts portA portB p

/-- The bad frame that loses alignment (R25, R33). -/
theorem alignment_lost {p : PortId} {arr : Arrival} {s : State} (hr : s.inReset = false) (hs : Settled s)
    (aligned : isAligned (s.port p).state = true) (bad : passesCheck arr = false) (run : 16 ≤ (s.port p).badRun + 1) :
    ∃ t, exec (.portFrameReceive p arr) s = .next t ∧ Unaligned .seek (s.port p) (t.port p) ∧
      (t.port p).light = (s.port p).light ∧ (t.port p).time = arr.now ∧
      (t.port p).counters = { (s.port p).counters with
        bad := bump (s.port p).counters.bad
        alignLosses := bump (s.port p).counters.alignLosses
        marginalEntries := if decide ((if s.start.rate = .k48 then 48 else 96) < (s.port p).winBad + 1) &&
            !(s.port p).flags.marginal then bump (s.port p).counters.marginalEntries
          else (s.port p).counters.marginalEntries } ∧
      PortEventFrame s t ∧
      ((s.port p).state ≠ .up → Happened [.portChange p .seek ⟨false, false, false⟩ (s.port p).light .alignLost] s
        (s.setPort p (t.port p)) t) := by
  let x : PortRec := { s.port p with arrived := (s.port p).arrived + 1, time := arr.now }
  have effect : receive p arr s = commit p .alignLost (lostRec s.start.rate x) (s.setPort p x) := by
    rw [receive_aligned_bad aligned bad, alignedBad_lost (by rw [port_setPort]; exact run), port_setPort, start_setPort]
  obtain ⟨state, light, time, relock, drill, settings, counters⟩ := countBad_keeps s.start.rate x
  obtain ⟨lostState, lostFlags, lostLight, lostTime, lostCounters⟩ := state_leaveAlignment .seek
    { countBad s.start.rate x with counters := { (countBad s.start.rate x).counters with
      alignLosses := bump (countBad s.start.rate x).counters.alignLosses } }
  have here : (receive p arr s).port p = lostRec s.start.rate x := by
    rw [effect]
    exact port_commit_down (by unfold lostRec; rw [lostState]; simp) (by unfold lostRec; rw [lostState]; simp)
  have evented : Evented s (receive p arr s) := by
    rw [effect]
    exact (setPort_evented _ _ _).trans (commit_evented _ _ _ _)
  obtain ⟨t, ht, same, -, -, pending⟩ := done_blocks (f := receive p arr) hr
  have record : t.port p = lostRec s.start.rate x := (port_settled same p).trans here
  refine ⟨t, ht, ?_, ?_, ?_, ?_, evented.portEventFrame same pending, fun down => ?_⟩
  · rw [record]
    exact leaveAlignment_unaligned .seek state relock drill settings
  · rw [record]; exact lostLight.trans light
  · rw [record]; exact lostTime.trans time
  · rw [record]
    refine lostCounters.trans ?_
    simp only [counters]
    rfl
  · have fine : stateOrFlags x (lostRec s.start.rate x) = true := by
      have leaves : x.state ≠ .seek := fun e => by
        have e' : (s.port p).state = .seek := e
        rw [e'] at aligned
        cases aligned
      unfold stateOrFlags lostRec
      rw [lostState]
      simp [leaves]
    have lostDown : (lostRec s.start.rate x).state ≠ .up := by unfold lostRec; rw [lostState]; simp
    have notice : receive p arr s = notify (.portChange p .seek ⟨false, false, false⟩ (s.port p).light .alignLost)
        (s.setPort p (lostRec s.start.rate x)) := by
      rw [effect, commit_unusable (hs.setPort p x rfl) (by rw [port_setPort]; exact portUsable_down down)
        (portUsable_down lostDown) (fun _ => lostDown)
        (by
          rw [port_setPort]
          refine overtakes_off (.inr down) fun k => ?_
          unfold lostRec at k
          rw [lostFlags] at k
          cases k)
        (by rw [port_setPort]; exact fine), setPort_setPort]
      unfold lostRec
      rw [lostState, lostFlags, lostLight, light]
    obtain ⟨t', ht', happened⟩ := event_portChange hr hs notice
      ((portUsable_down lostDown).trans (usable_down down).symm)
    cases ht.symm.trans ht'
    rw [record]
    exact happened

end Sys2Proof.Machine
end

section
/-! PROOFS. MARGINAL at a usable port (R33, R54), the node's own id in an offer (R28, R67), and the statement about
frames at a port. -/

namespace Sys2Proof.Machine

open Sys2Proof

/-! ### What the link record does not look at: the Control Port -/

/-- The Control Port after one notice. -/
def raised (n : Notice) (c : ControlRec) : ControlRec :=
  if c.notices.length < Config.noticeMax then { c with notices := c.notices ++ [n] }
  else { c with lost := true, discarded := true }

theorem notify_raised (n : Notice) (s : State) : notify n s = { s with ctl := raised n s.ctl } := by
  unfold notify raised
  split <;> rfl

theorem ceaseReady_ctl (n : NodeId) (p : PortId) (s : State) (c : ControlRec) :
    ceaseReady n p { s with ctl := c } = { ceaseReady n p s with ctl := c } := by
  unfold ceaseReady
  have look : linkAt { s with ctl := c } n p = linkAt s n p := rfl
  simp only [look]
  cases (linkAt s n p).bind (linkOf n p) <;> rfl

theorem moveReady_ctl (n : NodeId) (p : PortId) (m : NodeId) (q : PortId) (s : State) (c : ControlRec) :
    moveReady n p m q { s with ctl := c } = { moveReady n p m q s with ctl := c } := by
  unfold moveReady
  have look : linkAt { s with ctl := c } n p = linkAt s n p := rfl
  simp only [look]
  cases linkAt s n p <;> rfl

theorem judgeEntry_ctl (s : State) (c : ControlRec) (n : NodeId) (p : PortId) :
    judgeEntry { s with ctl := c } n p = { judgeEntry s n p with ctl := c } := by
  unfold judgeEntry
  have look : linkAt { s with ctl := c } n p = linkAt s n p := rfl
  have ready (e : LinkEntry) (m : NodeId) (q : PortId) : linkReady { s with ctl := c } m q e = linkReady s m q e := rfl
  have other (e : LinkEntry) : otherEnd { s with ctl := c } n p e = otherEnd s n p e := rfl
  simp only [look]
  cases linkAt s n p with
  | none => rfl
  | some e =>
    simp only [ready, other]
    cases linkReady s n p e
    · cases e.ready
      · rfl
      · cases otherEnd s n p e with
        | none => exact ceaseReady_ctl n p s c
        | some x =>
          simp only
          cases linkReady s x.1 (portOther p) x.2
          · exact ceaseReady_ctl n p s c
          · exact moveReady_ctl n p x.1 (portOther p) s c
    · cases e.ready
      · cases otherEnd s n p e with
        | none => rfl
        | some x =>
          simp only
          cases x.2.ready
          · rfl
          · exact moveReady_ctl x.1 (portOther p) n p s c
      · rfl

theorem foldl_judgeEntry_ctl (l : List (NodeId × PortId)) (s : State) (c : ControlRec) :
    l.foldl (fun a (n, p) => judgeEntry a n p) { s with ctl := c } =
      { l.foldl (fun a (n, p) => judgeEntry a n p) s with ctl := c } := by
  induction l generalizing s with
  | nil => rfl
  | cons x l ih =>
    obtain ⟨n, p⟩ := x
    rw [List.foldl_cons, List.foldl_cons]
    exact (congrArg (fun a => l.foldl (fun a (n, p) => judgeEntry a n p) a) (judgeEntry_ctl s c n p)).trans (ih _)

theorem judgeLinks_ctl (s : State) (c : ControlRec) :
    judgeLinks { s with ctl := c } = { judgeLinks s with ctl := c } := by
  unfold judgeLinks
  generalize allEnds = l
  have master : State.isMaster { s with ctl := c } = s.isMaster := rfl
  rw [master]
  cases s.isMaster
  · rfl
  · exact foldl_judgeEntry_ctl l s c

theorem markLost_ctl (n : NodeId) (p : PortId) (far : Option NodeId) (s : State) (c : ControlRec) :
    markLost n p far { s with ctl := c } = { markLost n p far s with ctl := c } := by
  have ended (a : State) : (if planAt { a with ctl := c } n p then
        { { a with ctl := c } with loop := { a.loop with plan := none } } else { a with ctl := c }) =
      { (if planAt a n p then { a with loop := { a.loop with plan := none } } else a) with ctl := c } := by
    have look : planAt { a with ctl := c } n p = planAt a n p := rfl
    rw [look]
    cases planAt a n p <;> rfl
  unfold markLost
  cases far with
  | none => exact ended (modifyLink n p (fun e => { e with wrapped := true }) s)
  | some m =>
    exact ended (modifyLink m (portOther p) (fun e => { e with wrapped := true })
      (modifyLink n p (fun e => { e with wrapped := true }) s))

theorem SameBlocks.symm {s t : State} (h : SameBlocks s t) : SameBlocks t s :=
  ⟨h.1.symm, h.2.symm, h.3.symm, h.4.symm, h.5.symm, h.6.symm, h.7.symm, h.8.symm, h.9.symm, h.10.symm, h.11.symm,
    h.12.symm, h.13.symm, h.14.symm, h.15.symm, h.16.symm, h.17.symm, h.18.symm, h.19.symm⟩

/-- A plan sent leaves the same blocks whatever the Control Port's notices. -/
theorem sendWrap_same (l : Link) (s : State) (n : Notice) :
    SameBlocks (sendWrap l s) (sendWrap l { s with ctl := raised n s.ctl }) := by
  have blocks : SameBlocks s { s with ctl := raised n s.ctl } := by
    rw [← notify_raised]
    exact (notify_same n s).1
  have room : queueRoom { s with ctl := raised n s.ctl } = queueRoom s := rfl
  unfold sendWrap pushInternal
  rw [room]
  cases queueRoom s
  · exact ((notify_same _ s).1.symm.trans blocks).trans (notify_same _ _).1
  · exact ⟨rfl, rfl, rfl, rfl, rfl, rfl, rfl, rfl, rfl, rfl, rfl, rfl, rfl, rfl, blocks.overflow, blocks.ops,
      blocks.ended, blocks.openFrame, blocks.lineOut⟩

/-- The link table after a LINK_NOTE, the plan it may call for apart (R55, R69). -/
def linkNoted (n : NodeId) (p : PortId) (st : LinkState) (m : Bool) (known : Option NodeId)
    (g : Option OriginGroup) (s : State) : State :=
  let s0 := if known = ((linkAt s n p).getD .empty).partner then s else ceaseReady n p s
  let s1 := modifyLink n p (fun e => { e with state := some st, marginal := m, partner := known, group := g }) s0
  judgeLinks (if linkUsable st then s1 else markLost n p known s1)

theorem linkNoted_ctl (n : NodeId) (p : PortId) (st : LinkState) (m : Bool) (known : Option NodeId)
    (g : Option OriginGroup) (s : State) (c : ControlRec) :
    linkNoted n p st m known g { s with ctl := c } = { linkNoted n p st m known g s with ctl := c } := by
  have ceased : (if known = ((linkAt { s with ctl := c } n p).getD .empty).partner then { s with ctl := c }
      else ceaseReady n p { s with ctl := c }) =
      { (if known = ((linkAt s n p).getD .empty).partner then s else ceaseReady n p s) with ctl := c } := by
    have look : linkAt { s with ctl := c } n p = linkAt s n p := rfl
    rw [look]
    split
    · rfl
    · exact ceaseReady_ctl n p s c
  have lost (a : State) : (if linkUsable st = true then { a with ctl := c } else markLost n p known { a with ctl := c }) =
      { (if linkUsable st = true then a else markLost n p known a) with ctl := c } := by
    split
    · rfl
    · exact markLost_ctl n p known a c
  unfold linkNoted
  simp only
  rw [ceased]
  generalize (if known = ((linkAt s n p).getD .empty).partner then s else ceaseReady n p s) = a
  rw [← judgeLinks_ctl]
  exact congrArg judgeLinks
    (lost (modifyLink n p (fun e => { e with state := some st, marginal := m, partner := known, group := g }) a))

/-- The plan that a report of MARGINAL calls for (R56). -/
def planNoted (n : NodeId) (p : PortId) (due : Bool) (known : Option NodeId) (s : State) : State :=
  if due && planAllowed s known then
    match known with
    | some far => sendWrap ⟨n, p, far, portOther p⟩ s
    | none => s
  else s

theorem takeLinkNote_eq {s : State} (h : s.isMaster = true) (n : NodeId) (p : PortId) (st : LinkState) (m : Bool)
    (far : Option NodeId) (g : Option OriginGroup) : takeLinkNote n p st m far g s =
      planNoted n p (linkUsable st && m && !((linkAt s n p).getD .empty).marginal)
        (far.orElse fun _ => ((linkAt s n p).getD .empty).partner)
        (linkNoted n p st m (far.orElse fun _ => ((linkAt s n p).getD .empty).partner) g s) := by
  unfold takeLinkNote
  rw [if_neg (by simp [h])]
  rfl

theorem planNoted_notify (n : NodeId) (p : PortId) (due : Bool) (known : Option NodeId) (s : State) (x : Notice) :
    SameBlocks (planNoted n p due known s) (planNoted n p due known { s with ctl := raised x s.ctl }) := by
  have blocks : SameBlocks s { s with ctl := raised x s.ctl } := by
    rw [← notify_raised]
    exact (notify_same x s).1
  have allowed : planAllowed { s with ctl := raised x s.ctl } known = planAllowed s known := rfl
  unfold planNoted
  rw [allowed]
  cases due && planAllowed s known
  · exact blocks
  · cases known with
    | none => exact blocks
    | some far => exact sendWrap_same _ s x

/-- The master's record of a link does not look at the notices raised before. -/
theorem takeLinkNote_notify (n : NodeId) (p : PortId) (st : LinkState) (m : Bool) (far : Option NodeId)
    (g : Option OriginGroup) (s : State) (x : Notice) :
    SameBlocks (takeLinkNote n p st m far g s) (takeLinkNote n p st m far g (notify x s)) := by
  cases h : s.isMaster with
  | false =>
    have idle (a : State) (k : a.isMaster = false) : takeLinkNote n p st m far g a = a := if_pos (by simp [k])
    rw [idle s h, idle (notify x s) (by rw [notify_raised]; exact h)]
    exact (notify_same x s).1
  | true =>
    have master : State.isMaster { s with ctl := raised x s.ctl } = true := h
    rw [notify_raised, takeLinkNote_eq h, takeLinkNote_eq master]
    have look : linkAt { s with ctl := raised x s.ctl } n p = linkAt s n p := rfl
    rw [look, linkNoted_ctl n p st m (far.orElse fun _ => ((linkAt s n p).getD .empty).partner) g s (raised x s.ctl)]
    have same := congrArg State.ctl
      (linkNoted_ctl n p st m (far.orElse fun _ => ((linkAt s n p).getD .empty).partner) g s s.ctl)
    have told := planNoted_notify n p (linkUsable st && m && !((linkAt s n p).getD .empty).marginal)
      (far.orElse fun _ => ((linkAt s n p).getD .empty).partner)
      (linkNoted n p st m (far.orElse fun _ => ((linkAt s n p).getD .empty).partner) g s) x
    generalize linkNoted n p st m (far.orElse fun _ => ((linkAt s n p).getD .empty).partner) g s = u at same told ⊢
    have kept : u.ctl = s.ctl := same
    rwa [kept] at told

end Sys2Proof.Machine
end

section
/-! PROOFS. MARGINAL at a usable port (R33, R54), the node's own id in an offer (R28, R67), and the statement about
frames at a port. -/

namespace Sys2Proof.Machine

open Sys2Proof

/-! ### MARGINAL at a usable port -/

theorem linkState_usable {r : PortRec} (up : r.state = .up) (fault : r.flags.remoteFault = false) :
    linkState r = .port .up := by simp [linkState, up, fault]

/-- The note of a usable port, its record marked as one that has been usable. -/
theorem portNoted_eq {p : PortId} {r : PortRec} (s : State) (up : r.state = .up) (fault : r.flags.remoteFault = false) :
    pushLinkNote p (s.setPort p { r with everUsable := r.everUsable || !s.start.held }) = portNoted p r s := by
  have state := linkState_usable (r := { r with everUsable := r.everUsable || !s.start.held }) up fault
  unfold pushLinkNote portNoted
  rw [port_setPort, linkNoteOf, state]
  have room : queueRoom (s.setPort p { r with everUsable := r.everUsable || !s.start.held }) =
      decide (s.queue.items.length < 16) := by
    unfold queueRoom queueLen
    rw [queue_setPort]
  rw [room]
  simp only [decide_eq_true_eq]
  split
  · unfold push
    rw [queue_setPort, loop_setPort]
  · cases p <;> rfl

theorem pushLinkNote_ctl (p : PortId) (s : State) (c : ControlRec) :
    pushLinkNote p { s with ctl := c } = { pushLinkNote p s with ctl := c } := by
  have look : ({ s with ctl := c } : State).port p = s.port p := by cases p <;> rfl
  have room : queueRoom { s with ctl := c } = queueRoom s := rfl
  unfold pushLinkNote
  rw [look, room]
  cases queueRoom s
  · cases p <;> rfl
  · rfl

theorem markUsable_marks {p : PortId} {s : State} (h : s.usable p = true) :
    markUsable p s = s.setPort p { s.port p with everUsable := (s.port p).everUsable || !s.start.held } := by
  unfold markUsable
  rw [h]
  cases s.start.held
  · simp
  · simp only [Bool.not_true, Bool.and_false, Bool.false_eq_true, if_false, Bool.or_false]
    exact (setPort_port s p).symm

theorem portNoted_settled {p : PortId} {r : PortRec} {s : State} (hs : Settled s) (up : r.state = .up)
    (fault : r.flags.remoteFault = false) (u : s.usable p = true) : Settled (portNoted p r s) := by
  rw [← portNoted_eq s up fault]
  refine (pushLinkNote_admits _ _).settled (hs.setPort p _ ?_)
  rw [u]
  simp [portUsable, up, fault]

theorem ctl_portNoted (p : PortId) (r : PortRec) (s : State) : (portNoted p r s).ctl = s.ctl := by
  unfold portNoted
  simp only
  split
  · exact ctl_setPort _ _ _
  · cases p <;> rfl

theorem start_portNoted (p : PortId) (r : PortRec) (s : State) : (portNoted p r s).start = s.start := by
  unfold portNoted
  simp only
  split
  · exact start_setPort _ _ _
  · cases p <;> rfl

theorem port_portNoted {p : PortId} {r : PortRec} (s : State) (up : r.state = .up) (fault : r.flags.remoteFault = false) :
    (portNoted p r s).port p = { r with everUsable := r.everUsable || !s.start.held } := by
  rw [← portNoted_eq s up fault, port_pushLinkNote, port_setPort]

/-- The parts of the loop record on which mode and LOOP_CHANGE depend (R45, R46). -/
structure SameLoop (s t : State) : Prop where
  start : t.start = s.start
  conflict : t.loop.conflict = s.loop.conflict
  role : t.loop.role = s.loop.role
  group : t.loop.group = s.loop.group
  following : t.loop.following = s.loop.following
  wrapA : t.loop.wrapA = s.loop.wrapA
  wrapB : t.loop.wrapB = s.loop.wrapB

theorem SameLoop.trans {s t u : State} (h : SameLoop s t) (k : SameLoop t u) : SameLoop s u :=
  ⟨k.1.trans h.1, k.2.trans h.2, k.3.trans h.3, k.4.trans h.4, k.5.trans h.5, k.6.trans h.6, k.7.trans h.7⟩

theorem SameLoop.mode {s t : State} (h : SameLoop s t) (ua : t.usable .a = s.usable .a)
    (ub : t.usable .b = s.usable .b) : loopMode t = loopMode s :=
  loopMode_congr (by rw [h.start]) h.conflict h.role h.group h.following h.wrapA h.wrapB ua ub

theorem Admits.sameLoop {s t : State} (h : Admits s t) : SameLoop s t := by
  obtain ⟨_, _, _, _, _, _, _, _, _, _, _, rfl⟩ := h
  exact ⟨rfl, rfl, rfl, rfl, rfl, rfl, rfl⟩

theorem LinksJudged.sameLoop {s t : State} (h : LinksJudged s t) : SameLoop s t := by
  obtain ⟨_, _, _, _, _, _, _, rfl⟩ := h
  exact ⟨rfl, rfl, rfl, rfl, rfl, rfl, rfl⟩

theorem setPort_sameLoop (p : PortId) (r : PortRec) (s : State) : SameLoop s (s.setPort p r) :=
  ⟨by simp, by simp, by simp, by simp, by simp, by simp, by simp⟩

theorem SameLoop.symm {s t : State} (h : SameLoop s t) : SameLoop t s :=
  ⟨h.1.symm, h.2.symm, h.3.symm, h.4.symm, h.5.symm, h.6.symm, h.7.symm⟩

theorem notify_setPort (n : Notice) (p : PortId) (r : PortRec) (s : State) :
    (notify n s).setPort p r = notify n (s.setPort p r) := setPort_notify p r n s

/-- A usable port that reports a change and stays usable: the note, and the master's record of it (R54 to R56). -/
theorem commit_usable {p : PortId} {c : PortCause} {r : PortRec} {s : State} (hs : Settled s)
    (was : s.usable p = true) (up : r.state = .up) (fault : r.flags.remoteFault = false)
    (moved : r.flags.marginal ≠ (s.port p).flags.marginal) :
    commit p c r s = takeLinkNote s.start.id p (.port .up) r.flags.marginal (r.partner.map (·.sender))
      (r.partner.bind (·.offer.origin)) (notify (.portChange p r.state r.flags r.light c) (portNoted p r s)) := by
  have oldUp : (s.port p).state = .up ∧ (s.port p).flags.remoteFault = false := by
    simpa [State.usable, portUsable] using was
  have usableNow : portUsable r = true := by simp [portUsable, up, fault]
  let v := notify (.portChange p r.state r.flags r.light c) (s.setPort p r)
  have vPort : v.port p = r := (port_notify _ _ _).trans (port_setPort _ _ _)
  have vUsable : v.usable p = true := by unfold State.usable; rw [vPort]; exact usableNow
  have vStart : v.start = s.start := by simp [v]
  have told : notifyPort p c (s.setPort p r) = v := by
    unfold notifyPort
    simp only [port_setPort]
    rfl
  have differs : stateOrFlags (s.port p) r = true := by
    unfold stateOrFlags
    have k : ((s.port p).flags != r.flags) = true := by
      rw [bne_iff_ne]
      exact fun e => moved (by rw [e])
    rw [k, Bool.or_true]
  have wraps : wrapStep p true v = v := by
    unfold wrapStep
    simp [vUsable]
  have noted : noteDue (s.port p) r = true := by
    unfold noteDue
    have k : ((s.port p).flags.marginal != r.flags.marginal) = true := by rw [bne_iff_ne]; exact fun e => moved e.symm
    rw [usableNow, k]
    simp
  have pushed : pushLinkNote p (markUsable p v) =
      notify (.portChange p r.state r.flags r.light c) (portNoted p r s) := by
    rw [markUsable_marks vUsable, vPort, vStart]
    have marked : v.setPort p { r with everUsable := r.everUsable || !s.start.held } =
        notify (.portChange p r.state r.flags r.light c)
          (s.setPort p { r with everUsable := r.everUsable || !s.start.held }) := by
      rw [notify_setPort, setPort_setPort]
    rw [marked, notify_raised, pushLinkNote_ctl, portNoted_eq s up fault, notify_raised, ctl_portNoted, ctl_setPort]
  have settled := notify_settled (.portChange p r.state r.flags r.light c) (portNoted_settled hs up fault was)
  have judged := takeLinkNote_judged s.start.id p (.port .up) r.flags.marginal (r.partner.map (·.sender))
    (r.partner.bind (·.offer.origin)) (notify (.portChange p r.state r.flags r.light c) (portNoted p r s))
  have base : commitBase p c r s = takeLinkNote s.start.id p (.port .up) r.flags.marginal (r.partner.map (·.sender))
      (r.partner.bind (·.offer.origin)) (notify (.portChange p r.state r.flags r.light c) (portNoted p r s)) := by
    unfold commitBase
    simp only [differs, if_true, Bool.true_or, told]
    unfold portEvent
    have wasUsable : portUsable (s.port p) = true := was
    simp only [wasUsable, wraps, vPort, noted, if_true, pushed, vStart, linkState_usable up fault]
    generalize takeLinkNote s.start.id p (.port .up) r.flags.marginal (r.partner.map (·.sender))
      (r.partner.bind (·.offer.origin)) (notify (.portChange p r.state r.flags r.light c) (portNoted p r s)) = w at judged
    have wPort : w.port p = { r with everUsable := r.everUsable || !s.start.held } := by
      rw [judged.ports, port_notify, port_portNoted s up fault]
    have wUsable : w.usable p = true := by unfold State.usable; rw [wPort]; exact usableNow
    have stays : losesOrigin true w = false := by
      unfold losesOrigin
      cases p <;> simp [wUsable]
    rw [stays, if_neg (by simp)]
    have other (q : PortId) (k : q ≠ p) : w.port q = v.port q := by
      rw [eq_portOther k, judged.ports, port_notify, ← portNoted_eq s up fault, port_pushLinkNote, port_setPort_other]
      exact ((port_notify _ _ _).trans (port_setPort_other _ _ _)).symm
    have usable (q : PortId) : (v.setPort p (s.port p)).usable q = w.usable q := by
      by_cases k : q = p
      · rw [k, usable_setPort, wUsable, wasUsable]
      · rw [eq_portOther k, usable_setPort_other]
        unfold State.usable
        rw [other _ (portOther_ne p).symm]
    have noteAdmits : Admits (s.setPort p { r with everUsable := r.everUsable || !s.start.held }) (portNoted p r s) := by
      rw [← portNoted_eq s up fault]
      exact pushLinkNote_admits _ _
    have loops : SameLoop (v.setPort p (s.port p)) w :=
      (((notify_admits _ _).sameLoop.trans (setPort_sameLoop p (s.port p) v)).symm.trans
        (setPort_sameLoop p r s).symm).trans
        ((setPort_sameLoop p _ s).trans ((noteAdmits.trans (notify_admits _ _)).sameLoop.trans judged.sameLoop))
    exact afterLoop_still (judged.settled settled) (loops.mode (usable .a).symm (usable .b).symm).symm loops.role
      loops.group loops.wrapA loops.wrapB
  unfold commit
  simp only [base, overtakes_off (.inl (oldUp.1.trans up.symm)) (by rw [fault]; exact fun k => by cases k),
    Bool.false_and, Bool.false_eq_true, if_false]
  exact if_neg (by simp [oldUp.1])

end Sys2Proof.Machine
end

section
/-! PROOFS. The statement about frames at a port (R25 to R33), clause by clause. -/

namespace Sys2Proof.Machine

open Sys2Proof

/-! ### MARGINAL (R33) -/

theorem portNoted_setPort (p : PortId) (x y : PortRec) (s : State) : portNoted p x (s.setPort p y) = portNoted p x s := by
  unfold portNoted
  rw [setPort_setPort, queue_setPort, loop_setPort, start_setPort]

theorem marginal_marked {p : PortId} {arr : Arrival} {s : State} {x y : PortRec} (hr : s.inReset = false)
    (hs : Settled s) (e : receive p arr s = commit p .marginalSet x (s.setPort p y)) (oldState : y.state = (s.port p).state)
    (oldFlags : y.flags = (s.port p).flags) (state : x.state = (s.port p).state) (light : x.light = (s.port p).light)
    (flags : x.flags = { (s.port p).flags with marginal := true }) (clear : (s.port p).flags.marginal = false)
    (mark : x.everUsable = (s.port p).everUsable) :
    ∃ t, exec (.portFrameReceive p arr) s = .next t ∧ PortEventFrame s t ∧
      (s.usable p = false →
        Happened [.portChange p (s.port p).state { (s.port p).flags with marginal := true } (s.port p).light .marginalSet] s
          (s.setPort p x) t) ∧
      (s.usable p = true → t.port p = { x with everUsable := (s.port p).everUsable || !s.start.held } ∧
        (s.start.role ≠ .master →
          Happened [.portChange p .up { (s.port p).flags with marginal := true } (s.port p).light .marginalSet] s
            (portNoted p x s) t) ∧ SameBlocks (portReported p x s) t) := by
  have usable (r : PortRec) (k : r.state = (s.port p).state) (l : r.flags.remoteFault = (s.port p).flags.remoteFault) :
      portUsable r = s.usable p := by
    show (r.state == .up && !r.flags.remoteFault) = ((s.port p).state == .up && !(s.port p).flags.remoteFault)
    rw [k, l]
  have same := usable x state (by rw [flags])
  have old := usable y oldState (by rw [oldFlags])
  have settledOld : Settled (s.setPort p y) := hs.setPort p y old
  have moved : x.flags.marginal ≠ ((s.setPort p y).port p).flags.marginal := by
    rw [port_setPort, oldFlags, flags, clear]; simp
  obtain ⟨t, ht, blocks, -, -, pending⟩ := done_blocks (f := receive p arr) hr
  have evented : Evented s (receive p arr s) := by
    rw [e]; exact (setPort_evented _ _ _).trans (commit_evented _ _ _ _)
  refine ⟨t, ht, evented.portEventFrame blocks pending, fun down => ?_, fun up => ?_⟩
  · have notice : receive p arr s = notify (.portChange p (s.port p).state { (s.port p).flags with marginal := true }
        (s.port p).light .marginalSet) (s.setPort p x) := by
      rw [e, commit_unusable settledOld (by rw [port_setPort]; exact old.trans down) (same.trans down)
        (by rw [port_setPort, oldState, state]; exact id)
        (by
          rw [port_setPort]
          exact overtakes_off (.inl (oldState.trans state.symm)) (by rw [flags, oldFlags]; exact id))
        (by
          have k : (((s.setPort p y).port p).flags != x.flags) = true := by
            rw [bne_iff_ne]
            exact fun e => moved (by rw [e])
          unfold stateOrFlags
          rw [k, Bool.or_true]), setPort_setPort, state, light, flags]
    obtain ⟨t', ht', happened⟩ := event_portChange hr hs notice same
    cases ht.symm.trans ht'
    exact happened
  · have upFault : (s.port p).state = .up ∧ (s.port p).flags.remoteFault = false := by
      simpa [State.usable, portUsable] using up
    have xUp : x.state = .up := state.trans upFault.1
    have xFault : x.flags.remoteFault = false := by rw [flags]; exact upFault.2
    have effect := e.trans
      (commit_usable settledOld (by rw [usable_setPort]; exact old.trans up) xUp xFault moved)
    rw [portNoted_setPort, start_setPort] at effect
    have noted := portNoted_settled hs xUp xFault up
    have judged := takeLinkNote_judged s.start.id p (.port .up) x.flags.marginal (x.partner.map (·.sender))
      (x.partner.bind (·.offer.origin)) (notify (.portChange p x.state x.flags x.light .marginalSet) (portNoted p x s))
    have settled := judged.settled (notify_settled _ noted)
    rw [← effect] at judged settled
    rw [settle_self settled] at blocks
    refine ⟨?_, fun member => ?_, ?_⟩
    · rw [port_of_parts blocks.portA blocks.portB, judged.ports, port_notify, port_portNoted s xUp xFault, mark]
    · have notMaster : (portNoted p x s).isMaster = false := by
        rw [Bool.eq_false_iff, ne_eq, isMaster_iff, start_portNoted]
        exact member
      have alone : receive p arr s = notify (.portChange p .up { (s.port p).flags with marginal := true }
          (s.port p).light .marginalSet) (portNoted p x s) := by
        rw [effect, xUp, light, flags]
        exact if_pos (by
          rw [Bool.not_eq_true', notify_raised]
          exact notMaster)
      obtain ⟨t', ht', happened⟩ := event_oneNotice hr alone noted (ctl_portNoted p x s) (start_portNoted p x s)
      cases ht.symm.trans ht'
      exact happened
    · rw [effect] at blocks
      exact (takeLinkNote_notify _ _ _ _ _ _ _ _).trans blocks

/-! ### The node's own id (R28, R67) -/

theorem port_enterConflict {c : ConflictCause} {s : State} {q : PortId} (h : (s.port q).state ≠ .drill) :
    (enterConflict c s).port q = s.port q := by
  unfold enterConflict
  split
  · rfl
  · simp only
    have dropped (a : State) (k : a.port q = s.port q) : (afterLoop (.conflict c) s (dropKeys .conflict a)).port q =
        s.port q := by
      have e : (dropKeys .conflict a).port q = s.port q := (port_of_parts (by simp) (by simp) q).trans k
      rw [port_afterLoop_undrilled (by rw [e]; exact h), e]
    split
    · exact dropped _ (port_of_parts rfl rfl q)
    · exact (port_notify _ _ q).trans (dropped _ (port_of_parts rfl rfl q))

theorem enterConflict_entered {c : ConflictCause} {s u : State} (h : Evented s u) (k : s.loop.conflict = none) :
    (enterConflict c u).loop.conflict = some c ∧ (enterConflict c u).loop.role = .follower ∧
      (enterConflict c u).loop.following = false := by
  have none_yet : u.loop.conflict = none := by
    obtain ⟨_, _, _, _, _, _, _, _, _, e⟩ := h.loop
    rw [e]
    exact k
  obtain ⟨_, e⟩ := loop_enterConflict (c := c) none_yet
  rw [e]
  exact ⟨rfl, rfl, rfl⟩

theorem duplicate_happened {f : State → State} {s : State} (hr : s.inReset = false)
    (h : (f s).loop.conflict = some .duplicateId ∧ (f s).loop.role = .follower ∧ (f s).loop.following = false) :
    ∃ t, done f s = .next t ∧ t.loop.conflict = some .duplicateId ∧ t.loop.role = .follower ∧
      t.loop.following = false := by
  obtain ⟨t, ht, blocks, -⟩ := done_blocks (f := f) hr
  obtain ⟨x, e⟩ := loop_settled blocks
  refine ⟨t, ht, ?_⟩
  rw [e]
  exact h

/-- A good frame that offers the node's own id is a conflict at a port in any state but SETTLE and DRILL. -/
theorem receive_duplicate {p : PortId} {arr : Arrival} {s : State} (good : passesCheck arr = true)
    (own : sightsSelf s arr.frame.link = true) (settle : (s.port p).state ≠ .settle) (drill : (s.port p).state ≠ .drill)
    (k : s.loop.conflict = none) : (receive p arr s).loop.conflict = some .duplicateId ∧
      (receive p arr s).loop.role = .follower ∧ (receive p arr s).loop.following = false := by
  let s1 := s.setPort p (seen arr (s.port p))
  have here : (s1.port p).state = (s.port p).state := by rw [port_setPort]; rfl
  have sight : sightsSelf s1 arr.frame.link = true := by
    unfold sightsSelf
    rw [start_setPort]
    exact own
  have effect := (goodFrame_eq (f := arr.frame.link) (now := arr.now) (s := s1) (by rw [here]; exact settle)
    (by rw [here]; exact drill)).trans (if_pos sight)
  have entered := enterConflict_entered (c := .duplicateId) ((setPort_evented p _ s).trans (frameEffect_evented p arr.frame.link
    (noteStamp arr.frame.link arr.now (measureDelay arr.frame.link arr.now (countGood (s1.port p)))) s1)) k
  rw [← effect] at entered
  have conflict : (goodFrame p arr.frame.link arr.now s1).loop.conflict ≠ none := by rw [entered.1]; simp
  unfold receive
  rw [markArrived_seen drill, good]
  simp only [if_true]
  split
  · rw [loop_dispatch_conflict conflict]
    exact entered
  · exact entered

/-! ### ALIGNED (R25) -/

theorem aligned_exec {p : PortId} {arr : Arrival} {s : State} (h : (s.port p).state = .seek)
    (k : ((receive p arr s).port p).state = .settle) :
    exec (.aligned p arr) s = exec (.portFrameReceive p arr) s := by
  have same : onlyIf (alignsAt p) (receive p arr) s = receive p arr s := by
    unfold onlyIf
    exact if_pos (by simp [alignsAt, h, k])
  show done (onlyIf (alignsAt p) (receive p arr)) s = done (receive p arr) s
  rw [done_eq, done_eq]
  unfold event
  rw [same]

theorem aligned_idle {p : PortId} {arr : Arrival} {s : State}
    (h : (s.port p).state ≠ .seek ∨ ((receive p arr s).port p).state ≠ .settle) :
    onlyIf (alignsAt p) (receive p arr) s = s := by
  unfold onlyIf
  exact if_neg (by simpa [alignsAt, Decidable.imp_iff_not_or] using h)

/-- The record of a port in SEEK after a good frame. -/
theorem receive_seek {p : PortId} {arr : Arrival} {s : State} (good : passesCheck arr = true)
    (h : (s.port p).state = .seek) : receive p arr s =
      if sightsSelf s arr.frame.link then
        enterConflict .duplicateId (frameEffect p arr.frame.link (seenGood arr (s.port p)) (s.setPort p (seen arr (s.port p))))
      else frameEffect p arr.frame.link (seenGood arr (s.port p)) (s.setPort p (seen arr (s.port p))) :=
  receive_down_effect good (.inr h)

theorem port_receive_seek {p : PortId} {arr : Arrival} {s : State} {x : PortRec} (good : passesCheck arr = true)
    (h : (s.port p).state = .seek)
    (e : (frameEffect p arr.frame.link (seenGood arr (s.port p)) (s.setPort p (seen arr (s.port p)))).port p = x)
    (k : x.state ≠ .drill) : (receive p arr s).port p = x := by
  rw [receive_seek good h]
  split
  · rw [port_enterConflict (by rw [e]; exact k), e]
  · exact e

theorem seenGood_seek {arr : Arrival} {r : PortRec} (good : passesCheck arr = true) (h : r.state = .seek) :
    (seenGood arr r).state = .seek ∧ (seenGood arr r).flags = r.flags ∧ (seenGood arr r).alignRun = r.alignRun ∧
      (seenGood arr r).light = r.light := by
  rw [seenGood_unaligned good (by rw [h]; rfl)]
  exact ⟨h, rfl, rfl, rfl⟩

theorem failedFrame_dark {p : PortId} {s : State} (h : (s.port p).state = .dark) : failedFrame p s =
    s.setPort p { s.port p with counters := { (s.port p).counters with bad := bump (s.port p).counters.bad } } := by
  unfold failedFrame
  simp only [h]

theorem failedFrame_seek {p : PortId} {s : State} (h : (s.port p).state = .seek) : failedFrame p s =
    s.setPort p { s.port p with
      alignRun := 0
      counters := { (s.port p).counters with bad := bump (s.port p).counters.bad } } := by
  unfold failedFrame
  simp only [h]

/-- Short of the 8th good frame a port in SEEK stays there. -/
theorem seek_stays {p : PortId} {arr : Arrival} {s : State} (h : (s.port p).state = .seek)
    (k : passesCheck arr = false ∨ (s.port p).alignRun + 1 < 8) : ((receive p arr s).port p).state = .seek := by
  cases good : passesCheck arr with
  | false =>
    rw [receive_bad (by simp [h]) good, failedFrame_seek (by rw [port_setPort]; exact h), port_setPort, port_setPort]
    exact h
  | true =>
    obtain ⟨state, -, run, -⟩ := seenGood_seek good h
    have short : (seenGood arr (s.port p)).alignRun + 1 < 8 := by
      rw [run]
      exact k.resolve_left (by simp [good])
    rw [port_receive_seek good h (by rw [frameEffect_seek state short, port_setPort]) (by simp [state])]
    exact state

/-- The frame that aligns. -/
theorem seek_aligns {p : PortId} {arr : Arrival} {s : State} (hs : Settled s) (good : passesCheck arr = true)
    (h : (s.port p).state = .seek) (k : 8 ≤ (s.port p).alignRun + 1) :
    frameEffect p arr.frame.link (seenGood arr (s.port p)) (s.setPort p (seen arr (s.port p))) =
      notify (.portChange p .settle (s.port p).flags (s.port p).light .aligned)
        (s.setPort p (alignedRec (seenGood arr (s.port p)))) ∧
    (receive p arr s).port p = alignedRec (seenGood arr (s.port p)) := by
  obtain ⟨state, flags, run, light⟩ := seenGood_seek good h
  have effect := frameEffect_aligns (p := p) (f := arr.frame.link) (hs.setPort p (seen arr (s.port p)) rfl) state
    (by rw [run]; exact k) (show (seen arr (s.port p)).state = .seek from h) flags
  rw [flags, light] at effect
  exact ⟨effect, port_receive_seek good h (by rw [effect, port_notify, port_setPort]) (by simp [alignedRec])⟩

theorem exec_aligned {p : PortId} {arr : Arrival} {s : State} (hs : Settled s) (good : passesCheck arr = true)
    (h : (s.port p).state = .seek) (k : 8 ≤ (s.port p).alignRun + 1) {c : Instr}
    (hc : c = .portFrameReceive p arr ∨ c = .aligned p arr) : exec c s = done (receive p arr) s := by
  rcases hc with rfl | rfl
  · rfl
  · exact aligned_exec h (by rw [(seek_aligns hs good h k).2]; rfl)

/-- Settles O24, state by state of the port. -/
theorem framesAlign : Obligations.FramesAlign := by
  intro p arr s hr hs r good own past missed bad marked noted
  have good_iff : good ↔ passesCheck arr = true := (passesCheck_iff arr).symm
  have bad_iff : ¬ good ↔ passesCheck arr = false := by rw [good_iff, Bool.not_eq_true]
  have own_iff : own ↔ sightsSelf s arr.frame.link = true := (sightsSelf_iff s arr.frame.link).symm
  have other_iff : ¬ own ↔ sightsSelf s arr.frame.link = false := by rw [own_iff, Bool.not_eq_true]
  have unusable (st : PortState) (h : r.state = st) (k : st ≠ .up) : s.usable p = false :=
    usable_down (by rw [show (s.port p).state = st from h]; exact k)
  have unaligned (h : isAligned r.state = false) (g : passesCheck arr = true) : seenGood arr r = noted :=
    seenGood_unaligned g h
  refine ⟨fun drill => ?_, fun dark g => ?_, fun dark g o => ?_, fun seek g => ?_, fun seek g o run => ?_,
    fun seek g o run c hc => ?_, fun settle g => ?_, fun aligned g run k => ?_, fun aligned g run k clear => ?_,
    fun aligned g run => alignment_lost hr hs aligned (bad_iff.1 g) run, fun g o settle drill k => ?_,
    fun seek g o run => ?_, fun k => ?_⟩
  · exact event_setPort hr hs (receive_drill drill) rfl
  · refine event_setPort hr hs (x := missed) ?_ rfl
    rw [receive_bad (by rw [show (s.port p).state = .dark from dark]; simp) (bad_iff.1 g), seen_bad (bad_iff.1 g),
      failedFrame_dark (by rw [port_setPort]; exact dark), port_setPort, setPort_setPort]
  · refine event_setPort hr hs (x := noted) ?_ rfl
    have effect := (receive_down_effect (good_iff.1 g) (.inl dark)).trans (if_neg (by rw [other_iff.1 o]; simp))
    rw [effect, unaligned (by rw [dark]; rfl) (good_iff.1 g), frameEffect_dark (r := noted) dark]
  · refine event_setPort hr hs (x := { missed with alignRun := 0 }) ?_ rfl
    rw [receive_bad (by rw [show (s.port p).state = .seek from seek]; simp) (bad_iff.1 g), seen_bad (bad_iff.1 g),
      failedFrame_seek (by rw [port_setPort]; exact seek), port_setPort, setPort_setPort]
  · refine event_setPort hr hs (x := { noted with alignRun := r.alignRun + 1 }) ?_ rfl
    have effect := (receive_seek (good_iff.1 g) seek).trans (if_neg (by rw [other_iff.1 o]; simp))
    rw [effect, unaligned (by rw [seek]; rfl) (good_iff.1 g), frameEffect_seek (r := noted) seek run]
  · rw [exec_aligned hs (good_iff.1 g) seek run hc]
    have effect := (receive_seek (good_iff.1 g) seek).trans (if_neg (by rw [other_iff.1 o]; simp))
    have changed := effect.trans (seek_aligns hs (good_iff.1 g) seek run).1
    rw [unaligned (by rw [seek]; rfl) (good_iff.1 g)] at changed
    exact event_portChange hr hs changed ((portUsable_down (by simp)).trans (unusable _ seek (by simp)).symm)
  · refine event_setPort hr hs (x := { noted with badRun := 0, winFrames := r.winFrames + 1 }) ?_ rfl
    have down : (s.port p).state ≠ .drill ∧ (s.port p).state ≠ .up := by
      rw [show (s.port p).state = .settle from settle]
      simp
    rw [receive_down down.1 (good_iff.1 g) down.2, goodFrame_settle (by rw [port_setPort]; exact settle), port_setPort,
      setPort_setPort]
    exact congrArg (s.setPort p) (seenGood_settle (good_iff.1 g) settle)
  · refine event_setPort hr hs (x := bad) ?_ rfl
    let x : PortRec := { r with arrived := r.arrived + 1, time := arr.now }
    have counted : countBad s.start.rate x = badRec x := by
      rcases k with k | k
      · exact countBad_within (of_decide_eq_false k)
      · exact countBad_marginal k
    rw [receive_aligned_bad aligned (bad_iff.1 g), alignedBad_kept (by rw [port_setPort]; exact run), port_setPort,
      start_setPort]
    refine (congrArg (fun y => commit p .marginalSet y (s.setPort p x)) counted).trans ?_
    rw [commit_record (by rw [port_setPort]; rfl) (by rw [port_setPort]; rfl) (by rw [port_setPort]; rfl), setPort_setPort]
    rfl
  · let x : PortRec := { r with arrived := r.arrived + 1, time := arr.now }
    have effect : receive p arr s = commit p .marginalSet (countBad s.start.rate x) (s.setPort p x) := by
      rw [receive_aligned_bad aligned (bad_iff.1 g), alignedBad_kept (by rw [port_setPort]; exact run), port_setPort,
        start_setPort]
    have counted : countBad s.start.rate x = marked := countBad_sets (of_decide_eq_true k) clear
    rw [counted] at effect
    exact marginal_marked hr hs effect rfl rfl rfl rfl rfl clear rfl
  · exact duplicate_happened hr (receive_duplicate (good_iff.1 g) (own_iff.1 o) settle drill k)
  · intro aligned c hc
    rw [exec_aligned hs (good_iff.1 g) seek run hc]
    have here := (seek_aligns hs (good_iff.1 g) seek run).2
    have record := congrArg alignedRec (unaligned (by rw [seek]; rfl) (good_iff.1 g))
    obtain ⟨t, ht, blocks, -, -, -⟩ := done_blocks (f := receive p arr) hr
    refine ⟨t, ht, (port_settled blocks p).trans (here.trans record), fun k => ?_, fun k => ?_⟩
    · obtain ⟨t', ht', entered⟩ := duplicate_happened hr (receive_duplicate (good_iff.1 g) (own_iff.1 o)
        (by rw [show (s.port p).state = .seek from seek]; simp) (by rw [show (s.port p).state = .seek from seek]; simp) k)
      cases ht.symm.trans ht'
      exact entered
    · have again : receive p arr s = frameEffect p arr.frame.link (seenGood arr r) (s.setPort p (seen arr r)) := by
        rw [receive_seek (good_iff.1 g) seek, if_pos (own_iff.1 o), enterConflict_again]
        obtain ⟨_, _, _, _, _, _, _, _, _, e⟩ := (frameEffect_evented p arr.frame.link (seenGood arr r)
          (s.setPort p (seen arr r))).loop
        rw [e, loop_setPort]
        exact k
      have changed := again.trans (seek_aligns hs (good_iff.1 g) seek run).1
      rw [record] at changed
      obtain ⟨t', ht', happened⟩ := event_portChange hr hs changed
        ((portUsable_down (by simp [alignedRec])).trans (unusable _ seek (by simp)).symm)
      cases ht.symm.trans ht'
      exact happened
  · refine event_nothing hr hs (aligned_idle ?_)
    by_cases seek : (s.port p).state = .seek
    · refine .inr ?_
      rw [seek_stays seek]
      · simp
      · rcases k with k | k | k
        · exact absurd seek k
        · exact .inl (bad_iff.1 k)
        · exact .inr k
    · exact .inl seek

end Sys2Proof.Machine
end

section
/-! PROOFS. An epoch change (R61, R62): what it leaves of the queue, the pending entries, the operations, the slots and
the Talk Unit, and that what follows it keeps that. -/

namespace Sys2Proof.Machine

open Sys2Proof

/-! ### The loss of entries (R70, R85, R118) -/

/-- The items are those of the other queue, some without their operation. -/
def ItemsForgot (s t : State) : Prop :=
  ∃ f : QItem → QItem, t.queue = { s.queue with items := s.queue.items.map f } ∧
    ∀ i, f i = i ∨ f i = { i with op := none }

theorem ItemsForgot.refl (s : State) : ItemsForgot s s := ⟨id, by simp, fun _ => .inl rfl⟩

theorem ItemsForgot.of_queue {s t : State} (h : t.queue = s.queue) : ItemsForgot s t :=
  ⟨id, by simp [h], fun _ => .inl rfl⟩

theorem ItemsForgot.trans {s t u : State} (h : ItemsForgot s t) (k : ItemsForgot t u) : ItemsForgot s u := by
  obtain ⟨f, ht, hf⟩ := h
  obtain ⟨g, hu, hg⟩ := k
  refine ⟨g ∘ f, by rw [hu, ht, List.map_map], fun i => ?_⟩
  rcases hf i with e | e <;> rcases hg (f i) with e' | e' <;> simp_all

theorem forgetItem_forgot (tag : Byte) (s : State) : ItemsForgot s (forgetItem tag s) := by
  refine ⟨fun i => if i.op = some tag then { i with op := none } else i, rfl, fun i => ?_⟩
  simp only
  split
  · exact .inr rfl
  · exact .inl rfl

theorem loseHeal_forgot (op : Option Byte) (s : State) : ItemsForgot s (loseHeal op s) := by
  unfold loseHeal
  split
  · exact (ItemsForgot.of_queue (by simp)).trans (forgetItem_forgot _ _)
  · exact .refl s

theorem loseEntry_forgot (s : State) (p : PendingSwitch) : ItemsForgot s (loseEntry s p) := by
  unfold loseEntry
  split
  · exact .refl s
  · split
    · exact .refl s
    · split
      · exact loseHeal_forgot _ _
      · split
        · exact .refl s
        · exact .of_queue (by simp)
      · split
        · exact .refl s
        · exact .of_queue (by simp)
      · exact .refl s

theorem loseEntries_forgot (l : List PendingSwitch) (s : State) : ItemsForgot s (l.foldl loseEntry s) := by
  induction l generalizing s with
  | nil => exact .refl s
  | cons p l ih => exact (loseEntry_forgot s p).trans (ih _)

/-! ### An operation that no message and no entry of the table belongs to any more -/

/-- No operation of this tag is in the table, and no message of the queue belongs to one. -/
def Forgotten (tag : Byte) (s : State) : Prop :=
  (∀ o, some o ∈ s.ctl.ops → o.tag ≠ tag) ∧ ∀ i ∈ s.queue.items, i.op ≠ some tag

theorem Forgotten.of_forgot {tag : Byte} {s t : State} (h : Forgotten tag s)
    (ops : ∀ o, some o ∈ t.ctl.ops → some o ∈ s.ctl.ops) (items : ItemsForgot s t) : Forgotten tag t := by
  obtain ⟨f, e, hf⟩ := items
  refine ⟨fun o ho => h.1 o (ops o ho), fun i hi => ?_⟩
  rw [e] at hi
  obtain ⟨j, hj, rfl⟩ := List.mem_map.1 hi
  rcases hf j with k | k
  · rw [k]; exact h.2 j hj
  · rw [k]; simp

theorem Forgotten.findOp {tag : Byte} {s : State} (h : Forgotten tag s) : findOp tag s = none :=
  findOp_eq_none.2 h.1

theorem ops_forgetItem (tag : Byte) (s : State) : (forgetItem tag s).ctl.ops = s.ctl.ops := rfl

theorem ops_loseHeal {op : Option Byte} {s : State} {o : Operation} (h : some o ∈ (loseHeal op s).ctl.ops) :
    some o ∈ s.ctl.ops ∧ op ≠ some o.tag := by
  unfold loseHeal at h
  split at h
  · rw [ops_forgetItem] at h
    exact (ops_loseOp _ _ o).1 h
  · exact ⟨h, by simp⟩

theorem ops_loseEntry {s : State} {p : PendingSwitch} {o : Operation} (h : some o ∈ (loseEntry s p).ctl.ops) :
    some o ∈ s.ctl.ops := by
  unfold loseEntry at h
  split at h
  · exact h
  · split at h
    · exact h
    · split at h
      · exact (ops_loseHeal h).1
      · split at h <;> simpa using h
      · split at h
        · exact h
        · rwa [(loseGain_quiet _ _ _).ops] at h
      · exact h

theorem Forgotten.loseEntry {tag : Byte} {s : State} (h : Forgotten tag s) (p : PendingSwitch) :
    Forgotten tag (loseEntry s p) :=
  h.of_forgot (fun _ => ops_loseEntry) (loseEntry_forgot s p)

/-- A node's own UNWRAP_PLAN entry takes its operation with it. -/
theorem loseEntry_forgets {s : State} {p : PendingSwitch} {l : Link} {tag : Byte} (own : p.sender = s.start.id)
    (item : p.item = .msg (.unwrapPlan l)) (op : p.op = some tag) : Forgotten tag (loseEntry s p) := by
  have lost : Machine.loseEntry s p = forgetItem tag (loseOp (some tag) s) := by
    unfold Machine.loseEntry loseHeal
    rw [if_neg (by simp [own]), item, op]
  rw [lost]
  refine ⟨fun o ho e => ?_, fun i hi => ?_⟩
  · rw [ops_forgetItem] at ho
    exact ((ops_loseOp _ _ o).1 ho).2 (by rw [e])
  · obtain ⟨j, -, rfl⟩ := List.mem_map.1 (show i ∈ List.map _ _ from hi)
    split
    · simp
    next k => exact k

theorem loseEntries_forget {l : List PendingSwitch} {s : State} {p : PendingSwitch} {k : Link} {tag : Byte} (hp : p ∈ l)
    (own : p.sender = s.start.id) (item : p.item = .msg (.unwrapPlan k)) (op : p.op = some tag) :
    Forgotten tag (l.foldl Machine.loseEntry s) := by
  induction l generalizing s with
  | nil => cases hp
  | cons q l ih =>
    rw [List.foldl_cons]
    rcases List.mem_cons.1 hp with rfl | hp
    · exact List.foldlRecOn (motive := Forgotten tag) _ _ (loseEntry_forgets own item op) fun a ha x _ => ha.loseEntry x
    · exact ih hp (by simpa using own)

/-! ### What an epoch change leaves -/

/-- The key after the drop of every claim (R144). -/
theorem dropKey_eq (k : KeyRec) : dropKey k = if keyActive k.state then { k with
    state := .dropped, latched := false, press := none, answer := none, releaseOwed := false } else k := rfl

/-- What an epoch change to the group `g` has left of `s` (R18, R62, R77, R90, R135, R140, R144). -/
structure EpochLeft (g : OriginGroup) (s u : State) : Prop where
  start : u.start = s.start
  level : u.lock.level = s.lock.level
  supervision : u.supervision = s.supervision
  talk : u.talk = ⟨s.talk.keys.map dropKey, List.replicate 4 .clear, List.replicate 4 .empty⟩
  table : ∀ e ∈ u.slots.table, e.state = .talk → e.writer = none
  current : s.start.role ≠ .master → u.slots.current = false
  collection : u.slots.collection = none
  outstanding : u.queue.outstanding = none
  written : u.queue.written = none
  stamps : ∀ i ∈ u.queue.items, i.stamp = none
  entries : ∀ x ∈ u.switches, x.epoch = g.epoch ∧ ∀ n, x.item = .snapshot n → s.start.role = .master
  forgotten : ∀ x ∈ s.switches, x.epoch ≠ g.epoch → x.sender = s.start.id → (∃ l, x.item = .msg (.unwrapPlan l)) →
    ∀ tag, x.op = some tag → Forgotten tag u

/-- Operations that keep what an epoch change leaves. -/
theorem EpochLeft.on {g : OriginGroup} {s u v : State} (h : EpochLeft g s u) (start : v.start = u.start)
    (lock : v.lock.level = u.lock.level) (supervision : v.supervision = u.supervision) (talk : v.talk = u.talk)
    (table : v.slots.table = u.slots.table) (current : u.slots.current = false → v.slots.current = false)
    (collection : v.slots.collection = u.slots.collection) (outstanding : v.queue.outstanding = u.queue.outstanding)
    (written : v.queue.written = u.queue.written)
    (items : ∀ i ∈ v.queue.items, i ∈ u.queue.items ∨ (i.stamp = none ∧ i.op = none))
    (switches : ∀ x ∈ v.switches, x ∈ u.switches) (ops : v.ctl.ops = u.ctl.ops) : EpochLeft g s v where
  start := start.trans h.start
  level := lock.trans h.level
  supervision := supervision.trans h.supervision
  talk := talk.trans h.talk
  table := by rw [table]; exact h.table
  current := fun k => current (h.current k)
  collection := collection.trans h.collection
  outstanding := outstanding.trans h.outstanding
  written := written.trans h.written
  stamps := fun i hi => (items i hi).elim (h.stamps i) And.left
  entries := fun x hx => h.entries x (switches x hx)
  forgotten := fun x hx epoch sender item tag op => by
    obtain ⟨gone, unqueued⟩ := h.forgotten x hx epoch sender item tag op
    refine ⟨by rw [ops]; exact gone, fun i hi => ?_⟩
    rcases items i hi with k | ⟨-, k⟩
    · exact unqueued i k
    · rw [k]; simp

theorem push_items {d : QDest} {m : LoopMsg} {c : GainCause} {s : State} :
    ∀ i ∈ (push d m none c s).queue.items, i ∈ s.queue.items ∨ (i.stamp = none ∧ i.op = none) := by
  intro i hi
  rcases List.mem_append.1 hi with h | h
  · exact .inl h
  · rw [List.mem_singleton.1 h]
    exact .inr ⟨rfl, rfl⟩

theorem replaceUnsent_items {f : LoopMsg → Bool} {m : LoopMsg} {g : Option OriginGroup} {l : List QItem} :
    ∀ i ∈ replaceUnsent f m g l, ∃ j ∈ l, i.stamp = j.stamp ∧ i.op = j.op := by
  induction l with
  | nil => simp [replaceUnsent]
  | cons j l ih =>
    intro i hi
    unfold replaceUnsent at hi
    split at hi
    · rcases List.mem_cons.1 hi with rfl | h
      · exact ⟨j, by simp, rfl, rfl⟩
      · exact ⟨i, by simp [h], rfl, rfl⟩
    · rcases List.mem_cons.1 hi with rfl | h
      · exact ⟨i, by simp, rfl, rfl⟩
      · obtain ⟨k, hk, e⟩ := ih i h
        exact ⟨k, by simp [hk], e⟩

theorem askSnapshot_left {g h : OriginGroup} {s u : State} (k : EpochLeft g s u) : EpochLeft g s (askSnapshot h u) := by
  unfold askSnapshot pushSnapReq pushInternal
  repeat' split
  · exact k
  · exact k
  · exact k.on rfl rfl rfl rfl rfl id rfl rfl rfl push_items (fun _ => id) rfl
  · refine k.on ?_ ?_ ?_ ?_ ?_ ?_ ?_ ?_ ?_ ?_ ?_ ((notify_quiet _ _).ops)
    · simp
    · simp
    · simp
    · simp
    · simp
    · simp
    · simp
    · simp
    · simp
    · simp only [parts_notifyLoop]; exact fun i => .inl
    · simp only [parts_notifyLoop]; exact fun i => id
  · exact k

theorem lists_loseCurrency (s : State) : (loseCurrency s).slots.table = s.slots.table ∧
    (loseCurrency s).slots.collection = s.slots.collection ∧
    (s.slots.current = false → (loseCurrency s).slots.current = false) ∧
    (s.start.role ≠ .master → (loseCurrency s).slots.current = false) ∧ Quiet s (loseCurrency s) := by
  unfold loseCurrency clearCache
  split
  next h =>
    refine ⟨rfl, rfl, id, fun k => ?_, .refl s⟩
    simpa [State.isMaster, k] using h
  next => exact ⟨rfl, rfl, fun _ => rfl, fun _ => rfl, .of_ctl rfl⟩

theorem lists_retryCheck (s : State) : (retryCheck s).slots.table = s.slots.table ∧
    (retryCheck s).slots.collection = s.slots.collection ∧ (retryCheck s).slots.current = s.slots.current := by
  unfold retryCheck
  repeat' split
  all_goals exact ⟨rfl, rfl, rfl⟩

/-- What follows a change of the loop record keeps the slots' lists, the operations, and no more than the pending
entries. -/
theorem lists_afterLoop (c : LoopCause) (old s : State) :
    (afterLoop c old s).slots.table = s.slots.table ∧
    (afterLoop c old s).slots.collection = s.slots.collection ∧
    (s.slots.current = false → (afterLoop c old s).slots.current = false) ∧
    (∀ x ∈ (afterLoop c old s).switches, x ∈ s.switches) ∧ (afterLoop c old s).ctl.ops = s.ctl.ops := by
  have currency (a : State) : (if modeLosesCopy a then loseCurrency a else a).slots.table = a.slots.table ∧
      (if modeLosesCopy a then loseCurrency a else a).slots.collection = a.slots.collection ∧
      (a.slots.current = false → (if modeLosesCopy a then loseCurrency a else a).slots.current = false) := by
    obtain ⟨table, collection, current, -, -⟩ := lists_loseCurrency a
    split
    · exact ⟨table, collection, current⟩
    · exact ⟨rfl, rfl, id⟩
  have plans (m : LoopMode) (a : State) : ∀ x ∈ (dropPlans m a).switches, x ∈ a.switches := by
    unfold dropPlans
    split
    · exact fun x hx => (List.mem_filter.1 hx).1
    · exact fun _ => id
  have notified (d : Bool) (a : State) : (if d then notifyLoop c a else a).slots = a.slots ∧
      (if d then notifyLoop c a else a).switches = a.switches ∧
      (if d then notifyLoop c a else a).ctl.ops = a.ctl.ops := by
    cases d
    · exact ⟨rfl, rfl, rfl⟩
    · exact ⟨by simp, by simp, (notify_quiet _ _).ops⟩
  unfold afterLoop
  simp only
  generalize hd : drillWrap (loopMode old) (drillWrap (loopMode old)
      (dropPlans (loopMode old) (takeoverCheck (loopMode old) s)) .a) .b = d
  have slots : d.slots = s.slots := by rw [← hd]; simp
  have switches : ∀ x ∈ d.switches, x ∈ s.switches := by
    rw [← hd]; simp only [parts_drillWrap]
    intro x hx
    simpa using plans _ _ x hx
  have ops : d.ctl = s.ctl := by rw [← hd]; simp
  obtain ⟨table, collection, current⟩ := currency d
  obtain ⟨table', collection', current'⟩ := lists_retryCheck (rejudge (if modeLosesCopy d then loseCurrency d else d))
  obtain ⟨eSlots, eSwitches, eOps⟩ := notified (viewChanged old s || wrapsChanged old s)
    (retryCheck (rejudge (if modeLosesCopy d then loseCurrency d else d)))
  refine ⟨?_, ?_, fun h => ?_, fun x hx => switches x ?_, ?_⟩
  · rw [eSlots, table', parts_rejudge .. |>.2.2.2.2.2.2.2.1, table, slots]
  · rw [eSlots, collection', parts_rejudge .. |>.2.2.2.2.2.2.2.1, collection, slots]
  · rw [eSlots, current', parts_rejudge .. |>.2.2.2.2.2.2.2.1]
    exact current (by rw [slots]; exact h)
  · rw [eSwitches] at hx
    split at hx <;> simpa using hx
  · rw [eOps]
    split <;> simp [ops]

theorem EpochLeft.afterLoop {g : OriginGroup} {s u : State} (h : EpochLeft g s u) (c : LoopCause) (old : State) :
    EpochLeft g s (afterLoop c old u) := by
  obtain ⟨table, collection, current, switches, ops⟩ := lists_afterLoop c old u
  exact h.on (by simp) (by simp) (by simp) (by simp) table current collection (by simp) (by simp)
    (by simp only [parts_afterLoop]; exact fun i => .inl) switches ops

/-! ### The lock and the talk at an epoch change -/

theorem pushLockNote_items (s : State) : (pushLockNote s).queue.outstanding = s.queue.outstanding ∧
    (pushLockNote s).queue.written = s.queue.written ∧ (pushLockNote s).lock.level = s.lock.level ∧
    ∀ i ∈ (pushLockNote s).queue.items, (∃ j ∈ s.queue.items, i.stamp = j.stamp ∧ i.op = j.op) ∨
      (i.stamp = none ∧ i.op = none) := by
  unfold pushLockNote
  split
  · exact ⟨rfl, rfl, rfl, fun i hi => .inl (replaceUnsent_items i hi)⟩
  · split
    · exact ⟨rfl, rfl, rfl, fun i hi => (push_items i hi).imp (fun h => ⟨i, h, rfl, rfl⟩) id⟩
    · exact ⟨rfl, rfl, rfl, fun i hi => .inl ⟨i, hi, rfl, rfl⟩⟩

theorem clearLockView_quiet (s : State) : Quiet s (clearLockView s) := by
  refine Quiet.foldl (fun a n => ?_) _ _
  unfold setLockView
  split
  · exact .refl a
  · exact (Quiet.of_ctl rfl).trans (notify_quiet _ _)

theorem talk_talkEpoch (s : State) : (talkEpoch s).talk =
    ⟨s.talk.keys.map dropKey, List.replicate 4 .clear, List.replicate 4 .empty⟩ := by
  unfold talkEpoch
  simp only [parts_clearTalkEntries]
  unfold dropKeys
  simp

theorem talkEpoch_left (s : State) : (∀ e ∈ (talkEpoch s).slots.table, e.state = .talk → e.writer = none) ∧
    (talkEpoch s).slots.current = s.slots.current ∧ (talkEpoch s).slots.collection = s.slots.collection ∧
    (talkEpoch s).ctl.ops = s.ctl.ops := by
  refine ⟨fun e he => ?_, ?_, ?_, ?_⟩
  · obtain ⟨x, -, rfl⟩ := List.mem_map.1 (show e ∈ List.map _ _ from he)
    split
    · exact fun _ => rfl
    next h => exact fun k => absurd k h
  · show (dropKeys .epoch s).slots.current = _
    simp
  · show (dropKeys .epoch s).slots.collection = _
    simp
  · show (dropKeys .epoch s).ctl.ops = _
    exact (notify_quiet _ _).ops

/-- The list of entries that an epoch change discards. -/
theorem ops_loseEntries (l : List PendingSwitch) (s : State) :
    ∀ o, some o ∈ (l.foldl loseEntry s).ctl.ops → some o ∈ s.ctl.ops := by
  induction l generalizing s with
  | nil => exact fun _ => id
  | cons p l ih => exact fun o h => ops_loseEntry (ih _ o h)

theorem talk_loseEntries (l : List PendingSwitch) (s : State) : (l.foldl loseEntry s).talk = s.talk :=
  List.foldlRecOn (motive := fun (a : State) => a.talk = s.talk) _ _ rfl fun a h x _ => by
    simp only [parts_loseEntry]; exact h

theorem lock_loseEntries (l : List PendingSwitch) (s : State) : (l.foldl loseEntry s).lock = s.lock :=
  List.foldlRecOn (motive := fun (a : State) => a.lock = s.lock) _ _ rfl fun a h x _ => by
    simp only [parts_loseEntry]; exact h

/-! ### The epoch change in its two halves: the entries lost, then the blocks told (R61, R62) -/

/-- The loop record, the queue, the snapshots and the entries of the new epoch, with the entries of the old one lost. -/
def epochHead (g : OriginGroup) (r : OriginRole) (s : State) : State :=
  let s1 := { s with
    loop := epochLoop g r s
    queue := { s.queue with
      items := s.queue.items.map fun i => { i with stamp := none }
      written := none
      outstanding := none }
    snap := .idle
    switches := s.switches.filter (outlivesEpoch g s) }
  (s.switches.filter fun p => !outlivesEpoch g s p).foldl loseEntry (if s1.isMaster then needAllotSnap s1 else s1)

/-- The slots, the Talk Unit, the lock and the gain are told. -/
def epochTail (s : State) : State :=
  needGainSnap (lockEpoch (talkEpoch (loseCurrency { s with slots := { s.slots with collection := none } })))

theorem epochChange_eq (g : OriginGroup) (r : OriginRole) (s : State) :
    epochChange g r s = epochTail (epochHead g r s) := rfl

theorem epochHead_left (g : OriginGroup) (r : OriginRole) (s : State) :
    (epochHead g r s).queue.outstanding = none ∧ (epochHead g r s).queue.written = none ∧
    (∀ i ∈ (epochHead g r s).queue.items, i.stamp = none) ∧ (epochHead g r s).talk = s.talk ∧
    (epochHead g r s).start = s.start ∧
    ∀ x ∈ s.switches, x.epoch ≠ g.epoch → x.sender = s.start.id → (∃ l, x.item = .msg (.unwrapPlan l)) →
      ∀ tag, x.op = some tag → Forgotten tag (epochHead g r s) := by
  unfold epochHead
  simp only
  generalize h0 : (if State.isMaster _ = true then needAllotSnap _ else _ : State) = s0
  have queue : s0.queue = { s.queue with
      items := s.queue.items.map fun i => { i with stamp := none }, written := none, outstanding := none } := by
    rw [← h0]; split <;> simp
  have talk : s0.talk = s.talk := by rw [← h0]; split <;> simp
  have own : s0.start = s.start := by rw [← h0]; split <;> simp
  generalize hl : s.switches.filter (fun p => !outlivesEpoch g s p) = l
  obtain ⟨f, qf, hf⟩ := loseEntries_forgot l s0
  rw [talk_loseEntries, start_loseEntries, qf, queue]
  refine ⟨rfl, rfl, fun i hi => ?_, talk, own, fun x hx epoch sender item tag op => ?_⟩
  · obtain ⟨j, hj, rfl⟩ := List.mem_map.1 hi
    obtain ⟨y, -, rfl⟩ := List.mem_map.1 hj
    rcases hf { y with stamp := none } with k | k <;> rw [k]
  · obtain ⟨k, hk⟩ := item
    have mem : x ∈ l := by
      rw [← hl]
      exact List.mem_filter.2 ⟨hx, by simp [outlivesEpoch, epoch]⟩
    exact loseEntries_forget mem (sender.trans (congrArg _ own.symm)) hk op

theorem lockEpoch_left (s : State) : (lockEpoch s).queue.outstanding = s.queue.outstanding ∧
    (lockEpoch s).queue.written = s.queue.written ∧ (lockEpoch s).ctl.ops = s.ctl.ops ∧
    ∀ i ∈ (lockEpoch s).queue.items, (∃ j ∈ s.queue.items, i.stamp = j.stamp ∧ i.op = j.op) ∨
      (i.stamp = none ∧ i.op = none) := by
  have eq : lockEpoch s = pushLockNote (clearLockView s) := rfl
  obtain ⟨outstanding, written, -, items⟩ := pushLockNote_items (clearLockView s)
  rw [parts_clearLockView .. |>.2.2.2.2.1] at outstanding written items
  rw [eq]
  exact ⟨outstanding, written, by simp only [parts_pushLockNote]; exact (clearLockView_quiet s).ops, items⟩

theorem epochTail_queue (s : State) : (epochTail s).queue.outstanding = s.queue.outstanding ∧
    (epochTail s).queue.written = s.queue.written ∧ (epochTail s).ctl.ops = s.ctl.ops ∧
    ∀ i ∈ (epochTail s).queue.items, (∃ j ∈ s.queue.items, i.stamp = j.stamp ∧ i.op = j.op) ∨
      (i.stamp = none ∧ i.op = none) := by
  have quiet : (loseCurrency { s with slots := { s.slots with collection := none } }).ctl.ops = s.ctl.ops := by simp
  have queue : (loseCurrency { s with slots := { s.slots with collection := none } }).queue = s.queue := by simp
  unfold epochTail
  generalize loseCurrency { s with slots := { s.slots with collection := none } } = a at *
  obtain ⟨-, -, -, ops⟩ := talkEpoch_left a
  have q : (talkEpoch a).queue = s.queue := by simp [queue]
  generalize talkEpoch a = b at *
  have left := lockEpoch_left b
  rw [q, ops, quiet] at left
  simpa only [parts_needGainSnap] using left

theorem epochTail_told (s : State) : (epochTail s).talk =
      ⟨s.talk.keys.map dropKey, List.replicate 4 .clear, List.replicate 4 .empty⟩ ∧
    (∀ e ∈ (epochTail s).slots.table, e.state = .talk → e.writer = none) ∧
    (s.start.role ≠ .master → (epochTail s).slots.current = false) ∧ (epochTail s).slots.collection = none := by
  obtain ⟨-, collection, -, current, -⟩ := lists_loseCurrency { s with slots := { s.slots with collection := none } }
  have talk : (loseCurrency { s with slots := { s.slots with collection := none } }).talk = s.talk := by simp
  unfold epochTail
  generalize loseCurrency { s with slots := { s.slots with collection := none } } = a at *
  obtain ⟨table', current', collection', -⟩ := talkEpoch_left a
  have talk' := talk_talkEpoch a
  rw [talk] at talk'
  generalize talkEpoch a = b at *
  simp only [parts_needGainSnap, parts_lockEpoch]
  exact ⟨talk', table', fun k => current'.trans (current k), collection'.trans collection⟩

/-- What an epoch change leaves (R61, R62). -/
theorem epochChange_left (g : OriginGroup) (r : OriginRole) (s : State) : EpochLeft g s (epochChange g r s) := by
  have entries := mem_switches_epochChange g r s
  have start : (epochChange g r s).start = s.start := by simp
  have supervision : (epochChange g r s).supervision = s.supervision := by simp
  have level := (epochChange_keeps g r s).lock
  rw [epochChange_eq] at *
  obtain ⟨outstanding, written, stamps, talk, own, forgotten⟩ := epochHead_left g r s
  generalize epochHead g r s = h at *
  obtain ⟨outstanding', written', ops, items⟩ := epochTail_queue h
  obtain ⟨talk', table, current, collection⟩ := epochTail_told h
  generalize epochTail h = u at *
  refine ⟨start, level, supervision, talk'.trans (by rw [talk]), table, fun k => current (by rw [own]; exact k),
    collection, outstanding'.trans outstanding, written'.trans written, fun i hi => ?_,
    fun x hx => ⟨(entries x hx).1, fun n hn => by simpa [State.isMaster] using (entries x hx).2 n hn⟩,
    fun x hx epoch sender item tag op => ?_⟩
  · rcases items i hi with ⟨j, hj, e, -⟩ | ⟨e, -⟩
    · exact e.trans (stamps j hj)
    · exact e
  · obtain ⟨gone, unqueued⟩ := forgotten x hx epoch sender item tag op
    refine ⟨by rw [ops]; exact gone, fun i hi => ?_⟩
    rcases items i hi with ⟨j, hj, -, e⟩ | ⟨-, e⟩
    · rw [e]; exact unqueued j hj
    · rw [e]; simp

end Sys2Proof.Machine
end

section
/-! PROOFS. The three ways to a new group and the entry to CONFLICT (R50, R65 to R68), for O29. -/

namespace Sys2Proof.Machine

open Sys2Proof

/-! ### The ask for a snapshot (R92) -/

@[simp] theorem parts_pushSnapReq (s : State) : (pushSnapReq s).start = s.start ∧ (pushSnapReq s).portA = s.portA ∧
    (pushSnapReq s).portB = s.portB ∧ (pushSnapReq s).loop = s.loop ∧ (pushSnapReq s).snap = s.snap ∧
    (pushSnapReq s).switches = s.switches ∧ (pushSnapReq s).slots = s.slots ∧ (pushSnapReq s).lanes = s.lanes ∧
    (pushSnapReq s).gain = s.gain ∧ (pushSnapReq s).talk = s.talk ∧ (pushSnapReq s).safety = s.safety ∧
    (pushSnapReq s).lock = s.lock ∧ (pushSnapReq s).supervision = s.supervision := by
  unfold pushSnapReq pushInternal push
  repeat' split
  all_goals simp only [parts_notifyLoop, and_self]

@[simp] theorem parts_askSnapshot (g : OriginGroup) (s : State) : (askSnapshot g s).start = s.start ∧
    (askSnapshot g s).portA = s.portA ∧ (askSnapshot g s).portB = s.portB ∧ (askSnapshot g s).loop = s.loop ∧
    (askSnapshot g s).snap = s.snap ∧ (askSnapshot g s).switches = s.switches ∧
    (askSnapshot g s).slots = s.slots ∧ (askSnapshot g s).lanes = s.lanes ∧ (askSnapshot g s).gain = s.gain ∧
    (askSnapshot g s).talk = s.talk ∧ (askSnapshot g s).safety = s.safety ∧ (askSnapshot g s).lock = s.lock ∧
    (askSnapshot g s).supervision = s.supervision := by
  unfold askSnapshot
  split <;> simp

/-! ### A node that follows an origin, or is in CONFLICT, is no orphan (R45) -/

theorem loopMode_following {s : State} (h : s.loop.following = true) : loopMode s ≠ .orphan := by
  unfold loopMode
  simp only [h]
  repeat' split
  all_goals simp_all

theorem loopMode_inConflict {s : State} {c : ConflictCause} (h : s.loop.conflict = some c) : loopMode s ≠ .orphan := by
  unfold loopMode
  simp only [h]
  split <;> simp

/-- The takeover timer does not run where a node follows (R63). -/
theorem afterLoop_following (c : LoopCause) {old s : State} (h : s.loop.following = true) :
    (afterLoop c old s).loop = { s.loop with takeover := none } := by
  obtain ⟨x, e⟩ := loop_afterLoop c old s
  have none := takeover_afterLoop c old s (loopMode_following h)
  rw [e] at none
  rw [e]
  exact congrArg (fun y => { s.loop with takeover := y }) none

/-! ### The new group (R50, R65, R66) -/

/-- A new group taken from a frame: the node follows it, in a loop record and blocks of the new epoch. -/
structure GroupTaken (g : OriginGroup) (s u : State) : Prop where
  loop : u.loop = { epochLoop g .follower s with takeover := none }
  left : EpochLeft g s u

theorem groupTaken_epochChange (c : LoopCause) (old : State) (g : OriginGroup) (ask : Bool) (s : State) :
    GroupTaken g s (afterLoop c old (if ask then askSnapshot g (epochChange g .follower s)
      else epochChange g .follower s)) := by
  have left := epochChange_left g .follower s
  have loop : (if ask then askSnapshot g (epochChange g .follower s) else epochChange g .follower s).loop =
      epochLoop g .follower s := by
    split <;> simp
  refine ⟨?_, EpochLeft.afterLoop ?_ _ _⟩
  · rw [afterLoop_following _ (by rw [loop]; rfl), loop]
  · split
    · exact askSnapshot_left left
    · exact left

theorem groupTaken_switchTo (g : OriginGroup) (ask : Bool) (s : State) : GroupTaken g s (switchTo g ask s) :=
  groupTaken_epochChange _ _ _ _ _

theorem groupTaken_yieldTo (g : OriginGroup) (s : State) : GroupTaken g s (yieldTo g s) :=
  groupTaken_epochChange .yielded s g true s

theorem groupTaken_adopt {g : OriginGroup} {s : State} (h : s.loop.group ≠ some g) :
    GroupTaken g { s with loop := { s.loop with following := true, timeout := 0, takeover := none } } (adopt g s) := by
  have eq : adopt g s = afterLoop .adopted s (askSnapshot g (epochChange g .follower
      { s with loop := { s.loop with following := true, timeout := 0, takeover := none } })) := by
    unfold adopt
    simp only
    rw [if_neg h]
  rw [eq]
  exact groupTaken_epochChange .adopted s g true _

/-- The adoption of the group the node already has: no new epoch (R50). -/
theorem adopt_same {g : OriginGroup} {s : State} (h : s.loop.group = some g)
    (mode : loopMode s = .seeking ∨ loopMode s = .orphan) :
    (adopt g s).loop = { s.loop with following := true, timeout := 0, takeover := none } ∧ (adopt g s).talk = s.talk ∧
      (adopt g s).switches = s.switches ∧ (adopt g s).start = s.start ∧ (adopt g s).snap = s.snap ∧
      (adopt g s).gain = s.gain ∧ (adopt g s).lock = s.lock := by
  unfold adopt
  simp only
  rw [if_pos h]
  refine ⟨?_, by simp, ?_, by simp, by simp, by simp, by simp⟩
  · rw [afterLoop_following _ (by simp)]
    simp
  · have undropped (a : State) : dropPlans (loopMode s) a = a := by
      unfold dropPlans
      rw [if_neg]
      rcases mode with e | e <;> simp [e]
    unfold afterLoop
    simp only [undropped]
    split <;> split <;> simp

/-- The entry to CONFLICT (R67, R68, R135, R144). -/
theorem enterConflict_parts {c : ConflictCause} {s : State} (h : s.loop.conflict = none) :
    (enterConflict c s).loop = { s.loop with
      conflict := some c, role := .follower, following := false, takeover := none, restart := .idle
      formerOwn := formerAfter s } ∧
    (enterConflict c s).talk = ⟨s.talk.keys.map dropKey, s.talk.views, List.replicate 4 .empty⟩ ∧
    (enterConflict c s).start = s.start ∧ (enterConflict c s).queue = s.queue ∧ (enterConflict c s).gain = s.gain ∧
    (enterConflict c s).lock = s.lock := by
  obtain ⟨x, loop⟩ := loop_enterConflict (c := c) h
  have none : (enterConflict c s).loop.takeover = none := by
    unfold enterConflict
    rw [if_neg (by simp [h])]
    have base (a : State) (ha : a.loop.conflict = some c) :
        (afterLoop (.conflict c) s a).loop.takeover = Option.none :=
      takeover_afterLoop _ _ _ (loopMode_inConflict ha)
    simp only
    split
    · exact base _ (by simp)
    · simp only [parts_notifyLoop]; exact base _ (by simp)
  refine ⟨?_, ?_⟩
  · rw [loop] at none
    rw [loop]
    exact congrArg (fun y => { s.loop with
      conflict := some c, role := .follower, following := false, takeover := y, restart := .idle
      formerOwn := formerAfter s }) none
  · have talk (a : State) : (dropKeys .conflict a).talk = { a.talk with keys := a.talk.keys.map dropKey } := by
      unfold dropKeys; simp
    unfold enterConflict
    rw [if_neg (by simp [h])]
    simp only
    split <;> simp [talk]

/-- O29's clauses about a group taken. -/
theorem GroupTaken.clauses {g : OriginGroup} {s u : State} (h : GroupTaken g s u) :
    u.loop.role = .follower ∧ u.loop.group = some g ∧ u.loop.following = true ∧
      u.loop.epoch = g.epoch ∧ u.loop.count = s.loop.count ∧ u.loop.timeout = 0 ∧ u.loop.takeover = none ∧
      u.loop.lastActed = List.replicate 8 none ∧
      u.loop.wrapA = s.loop.wrapA ∧ u.loop.wrapB = s.loop.wrapB ∧ u.loop.conflict = s.loop.conflict ∧
      (∀ x, s.loop.role = .origin → s.loop.group = some x → u.loop.formerOwn = some (x.rank, x.epoch)) ∧
      u.talk = ⟨s.talk.keys.map dropKey, List.replicate 4 .clear, List.replicate 4 .empty⟩ ∧
      (∀ e ∈ u.slots.table, e.state = .talk → e.writer = none) ∧
      (s.start.role ≠ .master → u.slots.current = false ∧ ∀ x ∈ u.switches, ∀ n, x.item ≠ .snapshot n) ∧
      u.slots.collection = none ∧ u.queue.outstanding = none ∧ u.queue.written = none ∧
      (∀ i ∈ u.queue.items, i.stamp = none) ∧ (∀ x ∈ u.switches, x.epoch = g.epoch) ∧
      (∀ x ∈ s.switches, x.epoch ≠ g.epoch → x.sender = s.start.id → (∃ l, x.item = .msg (.unwrapPlan l)) →
        ∀ tag, x.op = some tag → findOp tag u = none ∧ ∀ i ∈ u.queue.items, i.op ≠ some tag) ∧
      u.start = s.start ∧ u.lock.level = s.lock.level ∧ u.supervision = s.supervision := by
  obtain ⟨loop, left⟩ := h
  have former (x : OriginGroup) (origin : s.loop.role = .origin) (group : s.loop.group = some x) :
      formerAfter s = some (x.rank, x.epoch) := by
    simp [formerAfter, State.isOrigin, origin, group]
  rw [loop]
  exact ⟨rfl, rfl, rfl, rfl, rfl, rfl, rfl, rfl, rfl, rfl, rfl, former, left.talk, left.table,
    fun k => ⟨left.current k, fun x hx n e => k ((left.entries x hx).2 n e)⟩, left.collection, left.outstanding,
    left.written, left.stamps, fun x hx => (left.entries x hx).1,
    fun x hx epoch sender item tag op =>
      have gone := left.forgotten x hx epoch sender item tag op
      ⟨gone.findOp, gone.2⟩,
    left.start, left.level, left.supervision⟩

/-! ### Numbers and groups (R2, R19, R48, R61) -/

theorem reached_iff (c f : FrameNo) : reached c f = true ↔ (c - f).toNat < 2 ^ 31 := by
  simp [reached]

theorem passed_iff (c f : FrameNo) : passed c f = true ↔ (c - f).toNat < 2 ^ 31 ∧ c ≠ f := by
  simp [passed, reached_iff]

theorem newer16_iff (a b : BitVec 16) : newer16 a b = true ↔ 1 ≤ (a - b).toNat ∧ (a - b).toNat ≤ 32767 := by
  simp [newer16]

theorem newer8_iff (a b : BitVec 8) : newer8 a b = true ↔ 1 ≤ (a - b).toNat ∧ (a - b).toNat ≤ 127 := by
  simp [newer8]

theorem groupWins_iff (g f : OriginGroup) : groupWins g f = true ↔
    (g.rank = .master ∧ f.rank = .deputy) ∨ (g.rank = f.rank ∧ g.id.val < f.id.val) := by
  obtain ⟨gid, grank, _⟩ := g
  obtain ⟨fid, frank, _⟩ := f
  cases grank <;> cases frank <;> simp [groupWins]

theorem groupWins_antisymm (g f : OriginGroup) : ¬ (groupWins g f = true ∧ groupWins f g = true) ∧
    (groupWins g f = false → groupWins f g = false → g.id = f.id ∧ g.rank = f.rank) := by
  simp only [Bool.eq_false_iff, ne_eq, groupWins_iff]
  obtain ⟨gid, grank, _⟩ := g
  obtain ⟨fid, frank, _⟩ := f
  cases grank <;> cases frank <;> simp [Fin.ext_iff] <;> omega

end Sys2Proof.Machine
end

section
/-! PROOFS. The relay, the transmission and the dispatch of a frame, case by case (R47 to R49), for O29. -/

namespace Sys2Proof.Machine

open Sys2Proof

/-! ### Relay and transmission (R47, R24) -/

theorem relay_some {s : State} {p q : PortId} {f : Frame} (h : relayPort s p = some q) : relay p f s = route q f s := by
  unfold relay
  rw [h]

theorem relay_none {s : State} {p : PortId} {f : Frame} (h : relayPort s p = none) : relay p f s = s := by
  unfold relay
  rw [h]

theorem relayPort_unwrapped {s : State} {p : PortId} (a : s.loop.wrapA = .none) (b : s.loop.wrapB = .none) :
    relayPort s p = some (portOther p) := by
  unfold relayPort
  rw [a, b]

theorem relayPort_wrapA {s : State} (a : s.loop.wrapA ≠ .none) : relayPort s .a = none ∧ relayPort s .b = some .b := by
  unfold relayPort
  cases h : s.loop.wrapA
  · exact absurd h a
  · exact ⟨rfl, rfl⟩
  · exact ⟨rfl, rfl⟩

theorem relayPort_wrapB {s : State} (a : s.loop.wrapA = .none) (b : s.loop.wrapB ≠ .none) :
    relayPort s .a = some .a ∧ relayPort s .b = none := by
  unfold relayPort
  rw [a]
  cases h : s.loop.wrapB
  · exact absurd h b
  · exact ⟨rfl, rfl⟩
  · exact ⟨rfl, rfl⟩

theorem transmit_on {now : Nanos} {s : State} {p : PortId} (h : (s.port p).txOn = true) :
    transmit now s p = s.setPort p { s.port p with
      routed := none
      txLine := some ({ (s.port p).routed.getD (standby s) with link := some (linkFieldOf p now s) },
        frameCheck { (s.port p).routed.getD (standby s) with link := some (linkFieldOf p now s) }) } := by
  unfold transmit
  simp only
  rw [if_pos h]

theorem transmit_off {now : Nanos} {s : State} {p : PortId} (h : (s.port p).txOn = false) :
    transmit now s p = s.setPort p { s.port p with routed := none, txLine := none } := by
  unfold transmit
  simp only
  rw [if_neg (by simp [h])]

/-- A port that transmits sends the routed frame, or a standby frame, with the link field of this port. -/
theorem transmit_sends {now : Nanos} {s : State} {p : PortId} (h : (s.port p).txOn = true) :
    ∃ g, ((transmit now s p).port p).txLine = some (g, frameCheck g) ∧ ((transmit now s p).port p).routed = none ∧
      (∃ l, g.link = some l ∧ l.sender = s.start.id ∧ l.port = p) ∧
      (∀ r, (s.port p).routed = some r → g.header = r.header ∧ g.cells = r.cells ∧ g.slots = r.slots) ∧
      ((s.port p).routed = none → g.slots = none ∧ g.cells = List.replicate 8 none) := by
  rw [transmit_on h, port_setPort]
  refine ⟨_, rfl, rfl, ⟨_, rfl, rfl, rfl⟩, fun r hr => ?_, fun hr => ?_⟩
  · rw [hr]
    exact ⟨rfl, rfl, rfl⟩
  · rw [hr]
    exact ⟨rfl, rfl⟩

theorem transmit_silent {now : Nanos} {s : State} {p : PortId} (h : (s.port p).txOn = false) :
    ((transmit now s p).port p).txLine = none ∧ ((transmit now s p).port p).routed = none := by
  rw [transmit_off h, port_setPort]
  exact ⟨rfl, rfl⟩

/-! ### Case 1 of R49: the mode -/

theorem dispatch_rate {p : PortId} {f : Frame} {now : Nanos} {s : State} (h : f.header.rate ≠ s.start.rate) :
    dispatch p f now s = s := if_pos h

theorem dispatch_relays {p : PortId} {f : Frame} {now : Nanos} {s : State} (rate : f.header.rate = s.start.rate)
    (h : loopMode s = .held ∨ loopMode s = .conflict) : dispatch p f now s = relay p f s := by
  unfold dispatch
  rw [if_neg (not_not.2 rate)]
  rcases h with h | h <;> rw [h]

/-- A node that is neither in HELD nor in CONFLICT looks at the wrap of the port. -/
theorem dispatch_takes {p : PortId} {f : Frame} {now : Nanos} {s : State} (rate : f.header.rate = s.start.rate)
    (h : loopMode s ≠ .held ∧ loopMode s ≠ .conflict) : dispatch p f now s = match s.wrapAt p with
      | .none => dispatchRest p f now s
      | .loss => s
      | .planned _ => wrappedArrival p f now s := by
  unfold dispatch
  rw [if_neg (not_not.2 rate)]
  obtain ⟨held, conflict⟩ := h
  cases hm : loopMode s
  case held => exact absurd hm held
  case conflict => exact absurd hm conflict
  all_goals rfl

theorem dispatch_free {p : PortId} {f : Frame} {now : Nanos} {s : State} (rate : f.header.rate = s.start.rate)
    (h : loopMode s ≠ .held ∧ loopMode s ≠ .conflict) (w : s.wrapAt p = .none) :
    dispatch p f now s = dispatchRest p f now s := by
  rw [dispatch_takes rate h, w]

theorem dispatch_loss {p : PortId} {f : Frame} {now : Nanos} {s : State} (rate : f.header.rate = s.start.rate)
    (h : loopMode s ≠ .held ∧ loopMode s ≠ .conflict) (w : s.wrapAt p = .loss) : dispatch p f now s = s := by
  rw [dispatch_takes rate h, w]

theorem dispatch_planned {p : PortId} {f : Frame} {now : Nanos} {s : State} (rate : f.header.rate = s.start.rate)
    (h : loopMode s ≠ .held ∧ loopMode s ≠ .conflict) (w : isPlanned (s.wrapAt p) = true) :
    dispatch p f now s = wrappedArrival p f now s := by
  rw [dispatch_takes rate h]
  cases e : s.wrapAt p
  · simp [e, isPlanned] at w
  · simp [e, isPlanned] at w
  · rfl

/-! ### Case 2 of R49: arrival at a port that holds a PLANNED wrap -/

/-- The entry unwraps the port at the arrival of the frame. -/
def Unwraps (s : State) (p : PortId) (f : Frame) (e : PendingSwitch) : Prop :=
  ∃ l, e.item = .msg (.unwrapPlan l) ∧ linkPortOf l s.start.id = some p ∧ reached f.header.count e.frame = true

/-- The model's test of an entry for R49 case 2. -/
theorem unwraps_iff (s : State) (p : PortId) (f : Frame) (e : PendingSwitch) : (match e.item with
    | .msg (.unwrapPlan l) => decide (linkPortOf l s.start.id = some p) && reached f.header.count e.frame
    | .msg _ | .snapshot _ => false) = true ↔ Unwraps s p f e := by
  unfold Unwraps
  split
  next l h => simp [h]
  next h => simp_all
  next h => simp [h]

theorem unwrapDue_none {s : State} {p : PortId} {f : Frame} (h : ∀ e ∈ s.switches, ¬ Unwraps s p f e) :
    unwrapDue s p f = none :=
  List.find?_eq_none.2 fun e he k => h e he ((unwraps_iff s p f e).1 k)

theorem unwrapDue_some {s : State} {p : PortId} {f : Frame} {e : PendingSwitch} {before after : List PendingSwitch}
    (list : s.switches = before ++ e :: after) (due : Unwraps s p f e) (first : ∀ x ∈ before, ¬ Unwraps s p f x) :
    unwrapDue s p f = some e := by
  refine (List.find?_eq_some_iff_append).2 ⟨(unwraps_iff s p f e).2 due, before, after, list, fun x hx => ?_⟩
  rw [Bool.not_eq_true']
  exact Bool.eq_false_iff.2 fun k => first x hx ((unwraps_iff s p f x).1 k)

theorem mergeDue_iff (s : State) (p : PortId) (f : Frame) : mergeDue s p f = true ↔
    s.usable p = true ∧ ∀ own, followedGroup s = some own → groupWins f.header.origin own = true := by
  unfold mergeDue
  cases h : followedGroup s <;> simp

theorem wrappedArrival_merge {s : State} {p : PortId} {f : Frame} {now : Nanos}
    (h : (∀ e ∈ s.switches, ¬ Unwraps s p f e) ∨ followedGroup s ≠ some f.header.origin) :
    wrappedArrival p f now s = if mergeDue s p f then dispatchRest p f now (mergeRelease p s) else s := by
  unfold wrappedArrival
  rcases h with h | h
  · rw [unwrapDue_none h]
  · cases unwrapDue s p f
    · rfl
    · exact if_neg h

theorem loopMode_wrapOff {s : State} {p : PortId} (h : loopMode s ≠ .held ∧ loopMode s ≠ .conflict) :
    loopMode (s.setWrap p .none) ≠ .held ∧ loopMode (s.setWrap p .none) ≠ .conflict := by
  have held : s.start.held = false := by
    have k := h.1
    unfold loopMode at k
    cases e : s.start.held
    · rfl
    · simp [e] at k
  have conflict : s.loop.conflict = none := by
    have k := h.2
    unfold loopMode at k
    cases e : s.loop.conflict
    · rfl
    · simp [e, held] at k
  unfold loopMode
  cases p
  all_goals
    simp only [State.setWrap, held, conflict]
    constructor <;> (repeat' split) <;> simp_all

theorem wrapAt_mergeRelease (p : PortId) (s : State) : (mergeRelease p s).wrapAt p = .none := by
  unfold mergeRelease
  rw [wrapAt_of_loop (loop_afterLoop _ _ _)]
  cases p <;> rfl

theorem dispatch_merge {p : PortId} {f : Frame} {now : Nanos} {s : State} (rate : f.header.rate = s.start.rate)
    (h : loopMode s ≠ .held ∧ loopMode s ≠ .conflict) :
    dispatch p f now (mergeRelease p s) = dispatchRest p f now (mergeRelease p s) := by
  refine dispatch_free (rate.trans (by unfold mergeRelease; simp)) ?_ (wrapAt_mergeRelease p s)
  unfold mergeRelease
  rw [loopMode_afterLoop]
  exact loopMode_wrapOff h

theorem followedGroup_of_loop {s t : State} (f : t.loop.following = s.loop.following) (g : t.loop.group = s.loop.group) :
    followedGroup t = followedGroup s := by
  unfold followedGroup
  rw [f, g]

theorem followedGroup_afterLoop (c : LoopCause) (old s : State) : followedGroup (afterLoop c old s) = followedGroup s := by
  obtain ⟨x, e⟩ := loop_afterLoop c old s
  exact followedGroup_of_loop (by rw [e]) (by rw [e])

theorem followedGroup_healApplied (l : Link) (op : Option Byte) (s : State) :
    followedGroup (healApplied l op s) = followedGroup s := by
  have judged : Linked s (if endStillUsable s l.node l.port && endStillUsable s l.farNode l.farPort then
      judgeLinks (modifyLink l.node l.port (fun e => { e with wrapped := false })
        (modifyLink l.farNode l.farPort (fun e => { e with wrapped := false }) s))
    else s) := by
    split
    · exact ((modifyLink_linked _ _ _ _).trans (modifyLink_linked _ _ _ _)).trans (judgeLinks_linked _)
    · exact .refl s
  unfold healApplied
  simp only
  generalize (if endStillUsable s l.node l.port && endStillUsable s l.farNode l.farPort then
      judgeLinks (modifyLink l.node l.port (fun e => { e with wrapped := false })
        (modifyLink l.farNode l.farPort (fun e => { e with wrapped := false }) s))
    else s) = a at judged
  obtain ⟨k, o, e⟩ := judged
  split
  · exact followedGroup_of_loop (by simp [e, forgetItem]) (by simp [e, forgetItem])
  · exact followedGroup_of_loop (by rw [e]) (by rw [e])

theorem followedGroup_setWrap (s : State) (p : PortId) (w : Wrap) : followedGroup (s.setWrap p w) = followedGroup s := by
  cases p <;> rfl

theorem applyUnwrapPlan_followed (n : NodeId) (l : Link) (op : Option Byte) (s : State) :
    followedGroup (applyUnwrapPlan n l op s) = followedGroup s := by
  have heal (a : State) :
      followedGroup (if a.isMaster && n = a.start.id then healApplied l op a else a) = followedGroup a := by
    split
    · exact followedGroup_healApplied _ _ _
    · rfl
  unfold applyUnwrapPlan
  simp only
  rw [heal]
  split
  · rfl
  · split
    · rw [followedGroup_afterLoop, followedGroup_setWrap]
    · rfl

theorem applyUnwrapPlan_wrapOff {s : State} {l : Link} {p : PortId} (hl : linkPortOf l s.start.id = some p)
    (hw : isPlanned (s.wrapAt p) = true) (hu : s.usable p = true) (n : NodeId) (op : Option Byte) :
    (applyUnwrapPlan n l op s).wrapAt p = .none := by
  obtain ⟨far, planned⟩ : ∃ far, s.wrapAt p = .planned far := by
    cases e : s.wrapAt p
    · simp [e, isPlanned] at hw
    · simp [e, isPlanned] at hw
    · exact ⟨_, rfl⟩
  have off : (afterLoop .unwrap s (s.setWrap p .none)).wrapAt p = .none := by
    rw [wrapAt_of_loop (loop_afterLoop _ _ _)]
    cases p <;> rfl
  rw [applyUnwrapPlan_due hl planned hu]
  split
  · exact ((healApplied_leaves _ _ _).1 p).trans off
  · exact off

/-- The entry due at the arrival: it is the one of its sender, and its application releases the wrap. -/
theorem dispatch_unwraps {p : PortId} {f : Frame} {now : Nanos} {s : State} {e : PendingSwitch}
    {before after : List PendingSwitch} (rate : f.header.rate = s.start.rate)
    (h : loopMode s ≠ .held ∧ loopMode s ≠ .conflict) (w : isPlanned (s.wrapAt p) = true)
    (list : s.switches = before ++ e :: after) (due : Unwraps s p f e)
    (first : ∀ x ∈ before, x.sender ≠ e.sender ∧ ¬ Unwraps s p f x)
    (group : followedGroup s = some f.header.origin) :
    dispatch p f now s = takeFrame p f (applyPending e.sender s) ∧
      followedGroup (applyPending e.sender s) = some f.header.origin ∧
      (s.usable p = true → (applyPending e.sender s).wrapAt p = .none) ∧
      ∀ x ∈ (applyPending e.sender s).switches, x.sender ≠ e.sender := by
  have found : pendingOf s e.sender = some e :=
    List.find?_eq_some_iff_append.2 ⟨by simp, before, after, list, fun x hx => by simpa using (first x hx).1⟩
  obtain ⟨l, item, port, -⟩ := id due
  have applied : applyPending e.sender s = applyUnwrapPlan e.sender l e.op
      { s with switches := s.switches.filter fun y => decide (y.sender ≠ e.sender) } := by
    rw [applyPending_some found]
    unfold applySwitch
    rw [item]
  have followed : followedGroup (applyPending e.sender s) = some f.header.origin := by
    rw [applied, applyUnwrapPlan_followed]
    exact group
  refine ⟨?_, followed, fun hu => ?_, fun x hx same => ?_⟩
  · rw [dispatch_planned rate h w]
    unfold wrappedArrival
    rw [unwrapDue_some list due fun x hx => (first x hx).2]
    simp only
    rw [if_pos group]
    unfold dispatchOrigin
    rw [followed]
    exact if_pos rfl
  · rw [applied]
    exact applyUnwrapPlan_wrapOff
      (s := { s with switches := s.switches.filter fun y => decide (y.sender ≠ e.sender) }) port w hu _ _
  · exact applyPending_none e.sender s (List.mem_map.2 ⟨x, hx, same⟩)

/-! ### Cases 3 to 7 of R49: the origin of the frame -/

/-- The node's own id at a frame (R49 case 3). -/
theorem dispatchRest_own {p : PortId} {f : Frame} {now : Nanos} {s : State} (id : f.header.origin.id = s.start.id) :
    (s.loop.role = .origin → s.loop.group = some f.header.origin → p = (if s.loop.wrapA = .none then .a else .b) →
      dispatchRest p f now s = circuitEnd f now s) ∧
    (s.loop.role = .origin → s.loop.group = some f.header.origin → p ≠ (if s.loop.wrapA = .none then .a else .b) →
      dispatchRest p f now s = relay p f s) ∧
    (s.loop.role = .follower ∨ s.loop.group ≠ some f.header.origin →
      (s.loop.formerOwn = some (f.header.origin.rank, f.header.origin.epoch) → dispatchRest p f now s = s) ∧
      (s.loop.formerOwn ≠ some (f.header.origin.rank, f.header.origin.epoch) →
        dispatchRest p f now s = relay p f (enterConflict .duplicateId s))) := by
  have rest : dispatchRest p f now s = ownIdFrame p f now s := if_pos id
  rw [rest]
  have own (role : s.loop.role = .origin) (group : s.loop.group = some f.header.origin) :
      ownIdFrame p f now s = if p = circuitPort s then circuitEnd f now s else relay p f s :=
    if_pos (by simp [State.isOrigin, role, group])
  refine ⟨fun role group port => ?_, fun role group port => ?_, fun other => ?_⟩
  · rw [own role group]
    exact if_pos port
  · rw [own role group]
    exact if_neg port
  · have foreign : ownIdFrame p f now s =
        if s.loop.formerOwn = some (f.header.origin.rank, f.header.origin.epoch) then s
        else relay p f (enterConflict .duplicateId s) := by
      refine if_neg ?_
      rcases other with k | k <;> simp [State.isOrigin, k]
    rw [foreign]
    exact ⟨fun former => if_pos former, fun former => if_neg former⟩

theorem dispatchRest_other {p : PortId} {f : Frame} {now : Nanos} {s : State} (id : f.header.origin.id ≠ s.start.id) :
    dispatchRest p f now s = dispatchOrigin p f s := if_neg id

theorem dispatchOrigin_followed {p : PortId} {f : Frame} {s : State} (h : followedGroup s = some f.header.origin) :
    dispatchOrigin p f s = takeFrame p f s := by
  unfold dispatchOrigin
  rw [h]
  exact if_pos rfl

theorem dispatchOrigin_epoch {p : PortId} {f : Frame} {s : State} {own : OriginGroup} (h : followedGroup s = some own)
    (ne : own ≠ f.header.origin) (id : own.id = f.header.origin.id) (rank : own.rank = f.header.origin.rank) :
    dispatchOrigin p f s =
      if newer16 f.header.origin.epoch own.epoch then takeFrame p f (switchTo f.header.origin false s)
      else relay p f s := by
  unfold dispatchOrigin
  rw [h]
  exact (if_neg ne).trans (if_pos (by simp [id, rank]))

theorem dispatchOrigin_other {p : PortId} {f : Frame} {s : State} {own : OriginGroup} (h : followedGroup s = some own)
    (ne : own.id ≠ f.header.origin.id ∨ own.rank ≠ f.header.origin.rank) :
    (groupWins f.header.origin own = false → dispatchOrigin p f s = s) ∧
    (groupWins f.header.origin own = true → s.loop.role = .follower →
      dispatchOrigin p f s = takeFrame p f (switchTo f.header.origin true s)) ∧
    (groupWins f.header.origin own = true → s.loop.role = .origin → own.rank = .deputy →
      dispatchOrigin p f s = takeFrame p f (yieldTo f.header.origin s)) ∧
    (groupWins f.header.origin own = true → s.loop.role = .origin → own.rank = .master →
      dispatchOrigin p f s = relay p f (enterConflict .masterMet s)) := by
  have other : dispatchOrigin p f s = otherOrigin p f s := by
    unfold dispatchOrigin
    rw [h]
    refine (if_neg ?_).trans (if_neg ?_)
    · rintro rfl
      simp at ne
    · rcases ne with k | k <;> simp [k]
  rw [other]
  unfold otherOrigin
  rw [h]
  simp only [State.isOrigin]
  refine ⟨fun win => ?_, fun win role => ?_, fun win role rank => ?_, fun win role rank => ?_⟩
  · simp [win]
  · simp [win, role]
  · simp [win, role, rank]
  · simp [win, role, rank]

theorem dispatchOrigin_none {p : PortId} {f : Frame} {s : State} (h : followedGroup s = none) :
    dispatchOrigin p f s =
      if loopMode s = .seeking ∨ loopMode s = .orphan then takeFrame p f (adopt f.header.origin s) else s := by
  unfold dispatchOrigin
  rw [h]
  cases loopMode s <;> simp

end Sys2Proof.Machine
end

section
/-! PROOFS. A good loop frame at a port that stays UP is handed over (R37), for O29. -/

namespace Sys2Proof.Machine

open Sys2Proof

/-- The record after a good frame's count, delay and stamp (R25, R34, R36). -/
def counted (f : Option LinkField) (now : Nanos) (r : PortRec) : PortRec := noteStamp f now (measureDelay f now (countGood r))

theorem counted_keeps (f : Option LinkField) (now : Nanos) (r : PortRec) : (counted f now r).state = r.state ∧
    (counted f now r).flags = r.flags ∧ (counted f now r).partner = r.partner ∧
    (counted f now r).clearRun = r.clearRun ∧
    (counted f now r).counters = { r.counters with good := bump r.counters.good } := by
  have count : (countGood r).state = r.state ∧ (countGood r).flags = r.flags ∧ (countGood r).partner = r.partner ∧
      (countGood r).clearRun = r.clearRun ∧
      (countGood r).counters = { r.counters with good := bump r.counters.good } := by
    unfold countGood
    simp only
    split <;> exact ⟨rfl, rfl, rfl, rfl, rfl⟩
  have delay (a : PortRec) : (measureDelay f now a).state = a.state ∧ (measureDelay f now a).flags = a.flags ∧
      (measureDelay f now a).partner = a.partner ∧ (measureDelay f now a).clearRun = a.clearRun ∧
      (measureDelay f now a).counters = a.counters := by
    unfold measureDelay
    split
    · split <;> exact ⟨rfl, rfl, rfl, rfl, rfl⟩
    all_goals exact ⟨rfl, rfl, rfl, rfl, rfl⟩
  have stamp (a : PortRec) : (noteStamp f now a).state = a.state ∧ (noteStamp f now a).flags = a.flags ∧
      (noteStamp f now a).partner = a.partner ∧ (noteStamp f now a).clearRun = a.clearRun ∧
      (noteStamp f now a).counters = a.counters := by
    unfold noteStamp
    split <;> exact ⟨rfl, rfl, rfl, rfl, rfl⟩
  obtain ⟨c1, c2, c3, c4, c5⟩ := count
  obtain ⟨d1, d2, d3, d4, d5⟩ := delay (countGood r)
  obtain ⟨s1, s2, s3, s4, s5⟩ := stamp (measureDelay f now (countGood r))
  exact ⟨s1.trans (d1.trans c1), s2.trans (d2.trans c2), s3.trans (d3.trans c3), s4.trans (d4.trans c4),
    s5.trans (d5.trans c5)⟩

/-- The frame leaves an UP port's state and flags as they are: no offer at a FIXED port or below the limit of the
hear-you-clear run, or the offer of the held partner that hears this node (R30, R31). -/
def KeepsUp (s : State) (r : PortRec) (f : Option LinkField) : Prop :=
  (f = none ∧ (r.flags.fixed = true ∨ r.clearRun + 1 < 48)) ∨
    (r.flags.fixed = false ∧ r.flags.remoteFault = false ∧
      ∃ l k, f = some l ∧ r.partner = some k ∧ l.sender = k.sender ∧ l.port = k.port ∧
        l.offer.origin = k.offer.origin ∧ l.sender ≠ s.start.id ∧ l.offer.hearYou = true ∧
        l.offer.loopName = s.start.loopName ∧ l.offer.rate = s.start.rate)

/-- The record of a port that stays UP. -/
structure StaysUp (old : PortRec) (f : Option LinkField) (r : PortRec) : Prop where
  state : r.state = .up
  flags : r.flags = old.flags
  partner : r.partner = match f with
    | none => old.partner
    | some l => some l
  counters : r.counters = { old.counters with good := bump old.counters.good }

theorem hearClear_below {r : PortRec} (h : r.clearRun + 1 < 48) : (hearClear r).state = r.state ∧
    (hearClear r).flags = r.flags ∧ (hearClear r).partner = r.partner ∧ (hearClear r).counters = r.counters := by
  have run : ¬ Config.clearFrames ≤ bump r.clearRun := by
    have clear : Config.clearFrames = 48 := rfl
    have top : Config.countTop = 4294967295 := rfl
    unfold bump
    split <;> omega
  exact ⟨rfl, by simp [hearClear, run], rfl, rfl⟩

theorem frameEffect_up {p : PortId} {f : Option LinkField} {r : PortRec} (up : r.state = .up) (s : State) :
    (r.flags.fixed = true → frameEffect p none r s = s.setPort p r) ∧
      (r.flags.fixed = false → frameEffect p f r s = upFrame p f r s) := by
  unfold frameEffect
  rw [up]
  exact ⟨fun h => if_pos h, fun h => if_neg (by simp [h])⟩

theorem goodFrame_up {p : PortId} {f : Option LinkField} {now : Nanos} {s : State} (up : (s.port p).state = .up)
    (h : KeepsUp s (s.port p) f) : ∃ r, goodFrame p f now s = s.setPort p r ∧ StaysUp (s.port p) f r := by
  obtain ⟨state, flags, partner, run, counters⟩ := counted_keeps f now (s.port p)
  have other : sightsSelf s f = false := by
    rcases h with ⟨e, -⟩ | ⟨-, -, l, _, e, -, -, -, -, ne, -⟩
    · simp [e, sightsSelf]
    · simp [e, sightsSelf, ne]
  have eq : goodFrame p f now s = frameEffect p f (counted f now (s.port p)) s := by
    rw [goodFrame_eq (by simp [up]) (by simp [up]), other]
    rfl
  rw [eq]
  generalize counted f now (s.port p) = r at *
  rcases h with ⟨rfl, h⟩ | ⟨fixed, fault, l, k, rfl, hk, sender, port, origin, -, hear, name, rate⟩
  · by_cases fixed : (s.port p).flags.fixed = true
    · exact ⟨r, (frameEffect_up (f := none) (state.trans up) s).1 (by rw [flags]; exact fixed), state.trans up, flags, partner, counters⟩
    · obtain ⟨state', flags', partner', counters'⟩ := hearClear_below (r := r) (by rw [run]; exact h.resolve_left fixed)
      refine ⟨hearClear r, ((frameEffect_up (state.trans up) s).2 (by rw [flags]; simpa using fixed)).trans ?_, state'.trans (state.trans up), flags'.trans flags,
        partner'.trans partner, counters'.trans counters⟩
      exact commit_record (state'.trans state) (flags'.trans flags)
        (by unfold partnerGroup; rw [partner', partner])
  · have agrees : offerAgrees s l.offer = true := by simp [offerAgrees, name, rate]
    have same : sameSender r l = true := by simp [sameSender, partner, hk, sender, port]
    have clear : ({ r.flags with remoteFault := false } : PortFlags) = (s.port p).flags := by
      rw [flags, ← fault]
    refine ⟨{ r with partner := some l, clearRun := 0, flags := { r.flags with remoteFault := false } }, ?_,
      state.trans up, clear, rfl, counters⟩
    rw [(frameEffect_up (state.trans up) s).2 (by rw [flags]; exact fixed)]
    unfold upFrame
    simp only [agrees, same, hear, Bool.not_true, Bool.false_eq_true, if_false, if_true]
    exact commit_record state clear (by simp [partnerGroup, hk, origin])

/-- The handover of a loop frame (R37). -/
theorem receive_up {p : PortId} {a : Arrival} {s : State} (up : (s.port p).state = .up)
    (good : frameCheck a.frame = a.check) (loop : a.frame.slots.isSome = true)
    (h : KeepsUp s (s.port p) a.frame.link) :
    ∃ r, receive p a s = dispatch p a.frame a.now (s.setPort p r) ∧ StaysUp (s.port p) a.frame.link r := by
  have passes := (passesCheck_iff a).2 good
  obtain ⟨r, eq, stays⟩ := goodFrame_up (p := p) (f := a.frame.link) (now := a.now)
    (s := s.setPort p (seen a (s.port p))) (by rw [port_setPort]; exact up) (by
      rw [port_setPort]
      unfold KeepsUp at h ⊢
      rw [show (s.setPort p (seen a (s.port p))).start = s.start by simp]
      exact h)
  rw [port_setPort] at stays
  rw [setPort_setPort] at eq
  refine ⟨r, ?_, stays.state, stays.flags, stays.partner, stays.counters⟩
  unfold receive
  simp only
  rw [markArrived_seen (by simp [up]), if_pos passes, eq, port_setPort]
  exact if_pos (by simp [up, stays.state, loop])

end Sys2Proof.Machine
end

section
/-! PROOFS. The first visit, the lock at a visit and the node's own slots (R2, R9, R93, R165, R167), and O29. -/

namespace Sys2Proof.Machine

open Sys2Proof

/-! ### A frame of the followed origin (R9, R67) -/

theorem takeFrame_visits {p : PortId} {f : Frame} {s : State} (h : s.start.id ∉ f.header.visited) :
    takeFrame p f s = relay p (firstVisit f (arrivalDir p) (hearFollowed p s)).2
      (firstVisit f (arrivalDir p) (hearFollowed p s)).1 := by
  unfold takeFrame
  simp only
  exact if_neg (by simpa using h)

theorem takeFrame_again {p : PortId} {f : Frame} {s : State} (h : s.start.id ∈ f.header.visited) :
    (f.header.count ∈ s.loop.visits → takeFrame p f s = relay p f (hearFollowed p s)) ∧
      (f.header.count ∉ s.loop.visits →
        takeFrame p f s = relay p f (enterConflict .duplicateId (hearFollowed p s))) := by
  have again : takeFrame p f s = if s.loop.visits.contains f.header.count then relay p f (hearFollowed p s)
      else relay p f (enterConflict .duplicateId (hearFollowed p s)) := by
    unfold takeFrame
    simp only
    exact if_pos (by simpa using h)
  rw [again]
  exact ⟨fun k => if_pos (by simpa using k), fun k => if_neg (by simpa using k)⟩

/-- The frame a first visit writes, the service area apart. -/
theorem firstVisit_frame (f : Frame) (d : Direction) (s : State) :
    (firstVisit f d s).2.header = { f.header with
      visited := f.header.visited ++ [s.start.id], hops := f.header.hops ++ [⟨s.start.id, d⟩] } ∧
    (firstVisit f d s).2.link = f.link ∧
    (firstVisit f d s).2.slots = f.slots.map (fun l => writeTalk (visitRead f (visitStart f.header s))
      (writeSlots (visitRead f (visitStart f.header s)) l)) ∧
    (firstVisit f d s).2.cells = (writeCell f (visitRead f (visitStart f.header s))).2 := by
  have id : (visitRead f (visitStart f.header s)).start = s.start :=
    ((visitRead_keeps f _).start).trans (visitStart_steady f.header s).start
  have frame : (firstVisit f d s).2 = (visitWrite f d (visitRead f (visitStart f.header s))).2 := by
    cases h : visitWrite f d (visitRead f (visitStart f.header s))
    simp [firstVisit, h]
  rw [frame, ← id]
  generalize visitRead f (visitStart f.header s) = u
  cases h : writeCell f u
  simp [visitWrite, h]

theorem firstVisit_noted (f : Frame) (d : Direction) (s : State) : (firstVisit f d s).1.loop.visited = true ∧
    f.header.count ∈ (firstVisit f d s).1.loop.visits ∧
    (firstVisit f d s).1.loop.lastVisit = some (f.header.count, f.header.origin.epoch) := by
  rw [firstVisit_fst]
  exact ⟨rfl, List.mem_cons_self, rfl⟩

theorem firstVisit_cells (f : Frame) (d : Direction) (s : State) (i : Nat) (h : i ≠ s.start.id.val) :
    (firstVisit f d s).2.cells[i]? = f.cells[i]? := by
  have id : (visitRead f (visitStart f.header s)).start = s.start :=
    ((visitRead_keeps f _).start).trans (visitStart_steady f.header s).start
  obtain ⟨-, -, -, cells⟩ := firstVisit_frame f d s
  rw [cells]
  exact (writeCell_cells f _).2 i (by rw [id]; exact h)

/-! ### The lock at a visit (R165, R167) -/

theorem list_set_same {α : Type} {l : List (Option α)} {n : Nat} {v : α} (h : l.getD n none = some v) :
    l.set n (some v) = l := by
  refine List.ext_getElem? fun i => ?_
  rw [List.getElem?_set]
  split
  next e =>
    subst e
    rw [List.getD_eq_getElem?_getD] at h
    cases k : l[n]? with
    | none => simp [k] at h
    | some x =>
      rw [k] at h
      have bound : n < l.length := (List.getElem?_eq_some_iff.1 k).1
      simp only [Option.getD_some] at h
      simp [bound, h]
  · rfl

/-- An entry of the lock view takes a value, told where it moves. -/
theorem setLockView_told (n : NodeId) (v : Nat) (s : State) :
    (setLockView n (some v) s).lock = { s.lock with
      view := if n = s.start.id then s.lock.view else s.lock.view.set n.val (some v) } ∧
    SameBlocks { s with lock := (setLockView n (some v) s).lock } (setLockView n (some v) s) ∧
    Raised (if n = s.start.id ∨ s.lock.view.getD n.val none = some v then [] else [.lockNote n (some v)]) s
      (setLockView n (some v) s) := by
  by_cases own : n = s.start.id
  · have same : setLockView n (some v) s = s := if_pos (by simp [own])
    rw [same, if_pos own, if_pos (.inl own)]
    exact ⟨rfl, .refl s, .refl s⟩
  · rw [if_neg own]
    by_cases known : s.lock.view.getD n.val none = some v
    · have same : setLockView n (some v) s = s := by
        unfold setLockView
        exact if_pos (by simp only [known, decide_true, Bool.or_true])
      rw [same, if_pos (.inr known), list_set_same known]
      exact ⟨rfl, .refl s, .refl s⟩
    · have told : setLockView n (some v) s =
          notify (.lockNote n (some v)) { s with lock := { s.lock with view := s.lock.view.set n.val (some v) } } := by
        unfold setLockView
        refine if_neg ?_
        simp only [own, known, decide_false, Bool.or_false, Bool.false_eq_true, not_false_eq_true]
      rw [told, if_neg (not_or.2 ⟨own, known⟩)]
      refine ⟨by simp, ?_, Raised.notify_of _ rfl rfl⟩
      have lock : (notify (.lockNote n (some v))
          { s with lock := { s.lock with view := s.lock.view.set n.val (some v) } }).lock =
          { s.lock with view := s.lock.view.set n.val (some v) } := by simp
      rw [lock]
      exact (notify_same _ _).1

/-- The recorded loop level takes the frame's lock level, told where it moves. -/
def heedLevel (level : Nat) (s : State) : State :=
  if s.lock.loopLevel = some level then s
  else notify (.lockLoop level) { s with lock := { s.lock with loopLevel := some level } }

theorem lockVisit_master {h : Header} (rank : h.origin.rank = .master) (s : State) :
    lockVisit h s = setLockView h.origin.id (some h.lock) (heedLevel h.lock s) := by
  unfold lockVisit
  rw [rank]
  rfl

theorem lockVisit_deputy {h : Header} (rank : h.origin.rank = .deputy) (s : State) : lockVisit h s = s := by
  unfold lockVisit
  rw [rank]

theorem heedLevel_told (level : Nat) (s : State) :
    (heedLevel level s).lock = { s.lock with loopLevel := some level } ∧
    SameBlocks { s with lock := (heedLevel level s).lock } (heedLevel level s) ∧
    Raised (if s.lock.loopLevel = some level then [] else [.lockLoop level]) s (heedLevel level s) := by
  by_cases h : s.lock.loopLevel = some level
  · have same : heedLevel level s = s := if_pos h
    rw [same, if_pos h]
    exact ⟨by rw [← h], .refl s, .refl s⟩
  · have told : heedLevel level s =
        notify (.lockLoop level) { s with lock := { s.lock with loopLevel := some level } } := if_neg h
    rw [told, if_neg h]
    refine ⟨by simp, ?_, Raised.notify_of _ rfl rfl⟩
    have lock : (notify (.lockLoop level) { s with lock := { s.lock with loopLevel := some level } }).lock =
        { s.lock with loopLevel := some level } := by simp
    rw [lock]
    exact (notify_same _ _).1

theorem SameBlocks.withLock {s t : State} (h : SameBlocks { s with lock := t.lock } t) (k : LockRec) :
    SameBlocks { s with lock := k } { t with lock := k } where
  start := h.start
  portA := h.portA
  portB := h.portB
  loop := h.loop
  queue := h.queue
  snap := h.snap
  switches := h.switches
  slots := h.slots
  lanes := h.lanes
  gain := h.gain
  talk := h.talk
  safety := h.safety
  lock := rfl
  supervision := h.supervision
  overflow := h.overflow
  ops := h.ops
  ended := h.ended
  openFrame := h.openFrame
  lineOut := h.lineOut

theorem lockVisit_told {h : Header} (rank : h.origin.rank = .master) (s : State) :
    (lockVisit h s).lock = { s.lock with
      loopLevel := some h.lock
      view := if h.origin.id = s.start.id then s.lock.view else s.lock.view.set h.origin.id.val (some h.lock) } ∧
    SameBlocks { s with lock := (lockVisit h s).lock } (lockVisit h s) ∧
    Raised ((if s.lock.loopLevel = some h.lock then [] else [.lockLoop h.lock]) ++
      if h.origin.id = s.start.id ∨ s.lock.view.getD h.origin.id.val none = some h.lock then []
      else [.lockNote h.origin.id (some h.lock)]) s (lockVisit h s) := by
  obtain ⟨lock, blocks, raised⟩ := heedLevel_told h.lock s
  rw [lockVisit_master rank]
  have id : (heedLevel h.lock s).start = s.start := blocks.start
  obtain ⟨lock', blocks', raised'⟩ := setLockView_told h.origin.id h.lock (heedLevel h.lock s)
  rw [id, lock] at lock' raised'
  refine ⟨lock', ?_, raised.trans raised'⟩
  exact (blocks.withLock _).trans blocks'

/-! ### The node's own slots (R93, R95) -/

theorem foldl_set_other {g : Nat → Sample} {n : Nat} (ps : List (Nat × Nat)) (l : List Sample)
    (h : ∀ x ∈ ps, x.1 ≠ n) : (ps.foldl (fun l (k, i) => l.set k (g i)) l)[n]? = l[n]? := by
  induction ps generalizing l with
  | nil => rfl
  | cons x ps ih =>
    rw [List.foldl_cons, ih _ fun y hy => h y (by simp [hy]), List.getElem?_set_ne (h x (by simp))]

theorem foldl_set_own {g : Nat → Sample} {n i : Nat} (ps : List (Nat × Nat)) (l : List Sample) (bound : n < l.length)
    (mem : (n, i) ∈ ps) (one : ∀ x ∈ ps, x.1 = n → x.2 = i) :
    (ps.foldl (fun l (k, i) => l.set k (g i)) l)[n]? = some (g i) := by
  induction ps generalizing l with
  | nil => cases mem
  | cons x ps ih =>
    rw [List.foldl_cons]
    by_cases later : (n, i) ∈ ps
    · exact ih _ (by simpa using bound) later fun y hy => one y (by simp [hy])
    · obtain rfl : (n, i) = x := (List.mem_cons.1 mem).resolve_right later
      have others : ∀ y ∈ ps, y.1 ≠ n := by
        rintro ⟨k, j⟩ hy rfl
        obtain rfl : j = i := one _ (by simp [hy]) rfl
        exact later hy
      rw [foldl_set_other ps _ others]
      simp [bound]

theorem copyCurrent_reads (s : State) :
    copyCurrent s = true ↔ s.start.role = .master ∨ s.slots.current = true := by
  simp [copyCurrent, State.isMaster]

theorem writeSlots_own {l : List Sample} {n i : Nat} {s : State} {e : SlotEntry} (bound : n < l.length)
    (reads : s.start.role = .master ∨ s.slots.current = true) (he : s.slots.table[n]? = some e)
    (assigned : e.state = .assigned) (writer : e.writer = some s.start.id) (input : e.input = some i) :
    (writeSlots s l)[n]? = some (delivered s i) := by
  unfold writeSlots
  rw [if_pos ((copyCurrent_reads s).2 reads)]
  refine foldl_set_own (g := delivered s) _ l bound (mem_slotsOf.2 ⟨e, he, assigned, writer, input⟩) ?_
  rintro ⟨k, j⟩ hx rfl
  obtain ⟨x, hx, -, -, hj⟩ := mem_slotsOf.1 hx
  cases he.symm.trans hx
  exact Option.some.inj (hj.symm.trans input)

theorem writeSlots_other {l : List Sample} {n : Nat} {s : State}
    (h : ¬ (s.start.role = .master ∨ s.slots.current = true) ∨
      ∀ e, s.slots.table[n]? = some e → e.state ≠ .assigned ∨ e.writer ≠ some s.start.id) :
    (writeSlots s l)[n]? = l[n]? := by
  unfold writeSlots
  split
  next reads =>
    refine foldl_set_other (g := delivered s) _ l ?_
    rintro ⟨k, j⟩ hx rfl
    obtain ⟨e, he, assigned, writer, -⟩ := mem_slotsOf.1 hx
    rcases h with h | h
    · exact h ((copyCurrent_reads s).1 reads)
    · exact (h e he).elim (fun k => k assigned) fun k => k writer
  · rfl

theorem delivered_muted (s : State) (i : Nat) : (muted s i = true → delivered s i = 0) ∧
    (muted s i = false → delivered s i = s.lanes.present.getD i 0) :=
  ⟨fun h => if_pos h, fun h => if_neg (by simp [h])⟩

/-- Settles O29: case by case of the dispatch, and by what an epoch change, a handover, a visit and a lock level
leave. -/
theorem numbersGroupsRelay : Obligations.NumbersGroupsRelay := by
  refine ⟨⟨fun c f => ⟨reached_iff c f, passed_iff c f⟩, newer16_iff, newer8_iff, groupWins_iff, groupWins_antisymm⟩,
    ?_, ?_, fun s p f now h => dispatch_rate h, ?_, ?_, ?_, ?_, ?_⟩
  · intro s p f now
    exact ⟨relayPort_unwrapped, relayPort_wrapA, relayPort_wrapB,
      fun q port usable => (relay_some port).trans (if_pos usable),
      fun q port unusable => (relay_some port).trans (if_neg (by simp [unusable])), relay_none, transmit_sends,
      transmit_silent⟩
  · intro s p f now rate g takes free unwraps merges
    refine ⟨dispatch_relays rate, fun h w => dispatch_loss rate h w, fun h w other => ?_,
      fun e before after h w list due first group => dispatch_unwraps rate h w list due first group,
      fun ⟨h, w⟩ id => ?_, fun ⟨h, w⟩ id => ?_⟩
    · rw [dispatch_planned rate h w, wrappedArrival_merge other, dispatch_merge rate h]
      exact ⟨fun k => if_neg fun m => k ((mergeDue_iff s p f).1 m),
        fun k => ⟨if_pos ((mergeDue_iff s p f).2 k), wrapAt_mergeRelease p s⟩⟩
    · rw [dispatch_free rate h w]
      exact dispatchRest_own id
    · rw [dispatch_free rate h w, dispatchRest_other id]
      exact ⟨dispatchOrigin_followed, fun own => dispatchOrigin_epoch, fun own => dispatchOrigin_other,
        dispatchOrigin_none⟩
  · intro g s u drop
    refine ⟨fun h => ?_, fun h group mode => ?_, fun c h calm => ?_⟩
    · rcases h with ⟨ask, rfl⟩ | rfl | ⟨rfl, ne⟩
      · exact (groupTaken_switchTo g ask s).clauses
      · exact (groupTaken_yieldTo g s).clauses
      · exact (groupTaken_adopt ne).clauses
    · subst h
      exact adopt_same group mode
    · subst h
      obtain ⟨loop, talk, start, queue, gain, lock⟩ := enterConflict_parts (c := c) calm
      rw [loop]
      exact ⟨rfl, rfl, rfl, rfl, rfl, rfl, rfl, talk, start, queue, gain, lock⟩
  · intro p arr s hr _ good loop up h
    obtain ⟨r, eq, stays⟩ := receive_up up good loop h
    obtain ⟨t, next, blocks, -⟩ := done_blocks (f := receive p arr) hr
    rw [eq] at blocks
    exact ⟨t, r, next, stays.state, stays.flags, stays.partner, stays.counters, blocks⟩
  · intro p f d s h v u t
    obtain ⟨header, link, slots, -⟩ := firstVisit_frame f d s
    obtain ⟨visited, visits, last⟩ := firstVisit_noted f d s
    have keeps := firstVisit_keeps f d s
    have count := count_firstVisit f d s
    have cells := firstVisit_cells f d s
    generalize ht : firstVisit f d s = t' at *
    have same : t = t' := ht
    clear_value t
    subst same
    refine ⟨fun k => (takeFrame_visits k).trans ?_, fun k => (takeFrame_again k).1, fun k => (takeFrame_again k).2,
      header, link, slots, cells, count, visited, visits, last, keeps.start,
      keeps.lock⟩
    cases p <;> rfl
  · intro h s t n
    exact ⟨fun rank => lockVisit_deputy rank s, fun rank => lockVisit_told rank s⟩
  · intro l n s bound reads
    exact ⟨fun e i k he assigned writer input => writeSlots_own bound k he assigned writer input, writeSlots_other,
      delivered_muted s⟩

end Sys2Proof.Machine
end

section
/-! PROOFS. What the blocks' own operations keep of the loop record, the ports and the supervision: the frame rule of
the visits, for O55. -/

namespace Sys2Proof.Machine

open Sys2Proof

/-! ### The relation -/

/-- The parts that no block but the Loop Engine and the ports moves. -/
def fixedParts (s : State) :=
  (s.start, s.supervision, s.safety.panicT, s.portA, s.portB, s.loop.role, s.loop.group, s.loop.epoch,
    s.loop.conflict, s.loop.visited, s.loop.originated, s.loop.restart, s.loop.takeoverMs, s.lanes.present,
    s.lanes.out, s.gain.laneUsed)

/-- The operation keeps the start record, the supervision, the PANIC filter, the lanes' inputs and outputs, the ports but
for their drill records and routed frames, and of the loop record what says whether the node originates, and as what. -/
structure Calm (s t : State) : Prop where
  start : t.start = s.start
  supervision : t.supervision = s.supervision
  panicT : t.safety.panicT = s.safety.panicT
  ports : ∀ p, ∃ d f, t.port p = { s.port p with drill := d, routed := f }
  role : t.loop.role = s.loop.role
  group : t.loop.group = s.loop.group
  epoch : t.loop.epoch = s.loop.epoch
  conflict : t.loop.conflict = s.loop.conflict
  visited : t.loop.visited = s.loop.visited
  originated : t.loop.originated = s.loop.originated
  restart : t.loop.restart = s.loop.restart
  takeoverMs : t.loop.takeoverMs = s.loop.takeoverMs
  present : t.lanes.present = s.lanes.present
  out : t.lanes.out = s.lanes.out
  laneUsed : t.gain.laneUsed = s.gain.laneUsed

theorem Calm.of_fixed {s t : State} (h : fixedParts t = fixedParts s) : Calm s t := by
  simp only [fixedParts, Prod.mk.injEq] at h
  obtain ⟨start, supervision, panicT, a, b, role, group, epoch, conflict, visited, originated, restart, takeoverMs,
    present, out, laneUsed⟩ := h
  exact ⟨start, supervision, panicT, fun p => ⟨(s.port p).drill, (s.port p).routed, port_of_parts a b p⟩, role,
    group, epoch, conflict, visited, originated, restart, takeoverMs, present, out, laneUsed⟩

theorem Calm.refl (s : State) : Calm s s := .of_fixed rfl

theorem Calm.trans {s t u : State} (h : Calm s t) (k : Calm t u) : Calm s u where
  start := k.start.trans h.start
  supervision := k.supervision.trans h.supervision
  panicT := k.panicT.trans h.panicT
  ports := fun p => by
    obtain ⟨_, _, e⟩ := h.ports p
    obtain ⟨d, f, e'⟩ := k.ports p
    exact ⟨d, f, by rw [e', e]⟩
  role := k.role.trans h.role
  group := k.group.trans h.group
  epoch := k.epoch.trans h.epoch
  conflict := k.conflict.trans h.conflict
  visited := k.visited.trans h.visited
  originated := k.originated.trans h.originated
  restart := k.restart.trans h.restart
  takeoverMs := k.takeoverMs.trans h.takeoverMs
  present := k.present.trans h.present
  out := k.out.trans h.out
  laneUsed := k.laneUsed.trans h.laneUsed

/-- An operation on the outcome of another: the outer one first. -/
theorem Calm.on {s t u : State} (k : Calm t u) (h : Calm s t) : Calm s u := h.trans k

/-- An operation on a state that agrees with `s` in the fixed parts. -/
theorem Calm.after {s t u : State} (k : Calm t u) (h : fixedParts t = fixedParts s) : Calm s u := k.on (.of_fixed h)

theorem Calm.ite {c : Prop} [Decidable c] {s t u : State} (h : Calm s t) (k : Calm s u) :
    Calm s (if c then t else u) := by
  split <;> assumption

theorem Calm.foldl {α : Type} {f : State → α → State} (h : ∀ a x, Calm a (f a x)) (l : List α) (s : State) :
    Calm s (l.foldl f s) := by
  induction l generalizing s with
  | nil => exact .refl s
  | cons x l ih => exact (h s x).trans (ih _)

theorem Calm.usable {s t : State} (h : Calm s t) (p : PortId) : t.usable p = s.usable p := by
  obtain ⟨d, f, e⟩ := h.ports p
  unfold State.usable
  rw [e]
  rfl

theorem Admits.calm {s t : State} (h : Admits s t) : Calm s t := by
  obtain ⟨_, _, _, _, _, _, _, _, _, _, _, rfl⟩ := h
  exact .of_fixed rfl

theorem LinksJudged.calm {s t : State} (h : LinksJudged s t) : Calm s t := by
  obtain ⟨_, _, _, _, _, _, _, rfl⟩ := h
  exact .of_fixed rfl

theorem Linked.calm {s t : State} (h : Linked s t) : Calm s t := by
  obtain ⟨_, _, rfl⟩ := h
  exact .of_fixed rfl

/-- States in which all these blocks stand. -/
theorem Calm.of_blocks {s t : State} (start : t.start = s.start) (a : t.portA = s.portA) (b : t.portB = s.portB)
    (loop : t.loop = s.loop) (supervision : t.supervision = s.supervision) (safety : t.safety = s.safety)
    (lanes : t.lanes = s.lanes) (gain : t.gain = s.gain) : Calm s t :=
  .of_fixed (by simp only [fixedParts, start, a, b, loop, supervision, safety, lanes, gain])

/-! ### Operations of the Control Port and the queue -/

theorem notify_calm (n : Notice) (s : State) : Calm s (notify n s) := (notify_admits n s).calm

theorem push_calm (d : QDest) (m : LoopMsg) (o : Option Byte) (c : GainCause) (s : State) : Calm s (push d m o c s) :=
  .of_fixed rfl

theorem pushInternal_calm (d : QDest) (m : LoopMsg) (s : State) : Calm s (pushInternal d m s) :=
  (pushInternal_admits d m s).calm

theorem endOp_calm (tag : Byte) (v : Verdict) (r : OpResult) (s : State) : Calm s (endOp tag v r s) := by
  refine .of_blocks ?_ ?_ ?_ ?_ ?_ ?_ ?_ ?_ <;> simp

theorem loseOp_calm (o : Option Byte) (s : State) : Calm s (loseOp o s) := by
  refine .of_blocks ?_ ?_ ?_ ?_ ?_ ?_ ?_ ?_ <;> simp

theorem goDone_calm (e : GoEnd) (s : State) : Calm s (goDone e s) := by
  refine .of_blocks ?_ ?_ ?_ ?_ ?_ ?_ ?_ ?_ <;> simp

theorem modifyOp_calm (tag : Byte) (f : Operation → Operation) (s : State) : Calm s (modifyOp tag f s) := .of_fixed rfl

theorem snapshotStart_calm (s : State) : Calm s (snapshotStart s) := by
  refine .of_blocks ?_ ?_ ?_ ?_ ?_ ?_ ?_ ?_ <;> simp

theorem needAllotSnap_calm (s : State) : Calm s (needAllotSnap s) := (snapshotStart_calm _).after rfl

theorem needGainSnap_calm (s : State) : Calm s (needGainSnap s) := by
  unfold needGainSnap
  exact .ite ((snapshotStart_calm _).after rfl) (.refl s)

theorem setCount_calm (c : FrameNo) (s : State) : Calm s (setCount c s) := by
  unfold setCount endOutstanding
  simp only
  split
  · exact .of_fixed rfl
  · exact .ite (.of_fixed rfl) (.of_fixed rfl)

/-! ### Lanes and tracking -/

theorem rejudge_calm (s : State) : Calm s (rejudge s) := .of_fixed rfl

theorem noticeLimit_calm (i : Nat) (a b : Tap) (s : State) : Calm s (noticeLimit i a b s) := by
  refine .of_blocks ?_ ?_ ?_ ?_ ?_ ?_ ?_ ?_ <;> simp

theorem updateTaps_calm (f : Tap → Tap) (s : State) : Calm s (updateTaps f s) :=
  (Calm.foldl (fun _ _ => noticeLimit_calm _ _ _ _) _ _).after rfl

theorem setCache_calm (n : Nat) (e : CacheEntry) (s : State) : Calm s (setCache n e s) := by
  unfold setCache
  exact .ite (.refl s) ((updateTaps_calm _ _).after rfl)

theorem refreshOwnCache_calm (s : State) : Calm s (refreshOwnCache s) := by
  unfold refreshOwnCache
  refine .ite (.foldl (fun a x => ?_) _ _) (.refl s)
  obtain ⟨slot, input⟩ := x
  simp only
  split
  · exact setCache_calm _ _ _
  · exact .refl a

theorem cacheUpdate_calm (n : NodeId) (i : Nat) (g : GainSetting) (e : GainSerial) (s : State) :
    Calm s (cacheUpdate n i g e s) := .foldl (fun _ _ => setCache_calm _ _ _) _ _

theorem refreshInputCache_calm (i : Nat) (s : State) : Calm s (refreshInputCache i s) := by
  unfold refreshInputCache
  exact .ite (.foldl (fun _ _ => setCache_calm _ _ _) _ _) (.refl s)

theorem visitSamples_calm (l : List Sample) (s : State) : Calm s (visitSamples l s) := .of_fixed rfl

/-! ### Slot Router (Section 4) -/

theorem retryCheck_calm (s : State) : Calm s (retryCheck s) := by
  refine .of_blocks ?_ ?_ ?_ ?_ ?_ ?_ ?_ ?_ <;> simp

theorem loseCurrency_calm (s : State) : Calm s (loseCurrency s) := by
  unfold loseCurrency
  exact .ite (.refl s) (.of_fixed rfl)

theorem pushSnapReq_calm (s : State) : Calm s (pushSnapReq s) := by
  refine .of_blocks ?_ ?_ ?_ ?_ ?_ ?_ ?_ ?_ <;> simp

theorem issueChanges_calm (l : List SlotChange) (s : State) : Calm s (issueChanges l s) := by
  unfold issueChanges
  exact .ite (.refl s) ((pushInternal_calm _ _ _).after rfl)

theorem pushAnswer_calm (w : NodeId) (tag : Byte) (r : List PairResult) (s : State) : Calm s (pushAnswer w tag r s) :=
  pushInternal_calm _ _ _

theorem recordAnswer_calm (w : NodeId) (tag : Byte) (n : MsgNo) (r : List PairResult) (s : State) :
    Calm s (recordAnswer w tag n r s) := .of_fixed rfl

theorem takeSlotAsk_calm (w : NodeId) (tag : Byte) (n : MsgNo) (a : SlotAsk) (s : State) :
    Calm s (takeSlotAsk w tag n a s) := by
  have fresh : Calm s (if queueLen s = 15 then
      recordAnswer w tag n (List.replicate (askSize a) (.refused .state))
        (pushAnswer w tag (List.replicate (askSize a) (.refused .state)) s)
    else if 16 ≤ queueLen s then s
    else recordAnswer w tag n (arbitrate s w a).1
      (pushAnswer w tag (arbitrate s w a).1 (issueChanges (arbitrate s w a).2 s))) :=
    .ite ((recordAnswer_calm _ _ _ _ _).on (pushAnswer_calm _ _ _ _)) (.ite (.refl s)
      ((recordAnswer_calm _ _ _ _ _).on ((pushAnswer_calm _ _ _ _).on (issueChanges_calm _ _))))
  unfold takeSlotAsk
  simp only
  split
  · exact .ite (pushAnswer_calm _ _ _ _) (.refl s)
  · split
    · exact .ite (pushAnswer_calm _ _ _ _) fresh
    · exact fresh

theorem replaceTable_calm (l : List SlotEntry) (told : List Nat) (s : State) : Calm s (replaceTable l told s) :=
  (refreshOwnCache_calm _).on ((Calm.foldl (fun _ _ => setCache_calm _ _ _) _ _).after rfl)

theorem makeChanges_calm (e : Serial) (l : List SlotChange) (s : State) : Calm s (makeChanges e l s) := by
  unfold makeChanges
  simp only
  split
  · exact (rejudge_calm _).on ((needGainSnap_calm _).on (replaceTable_calm _ _ _))
  · exact (rejudge_calm _).on (replaceTable_calm _ _ _)

theorem applyAllot_calm (e : Serial) (l : List SlotChange) (c : Bool) (s : State) : Calm s (applyAllot e l c s) := by
  have made : Calm s (makeChanges e l s) := makeChanges_calm e l s
  unfold applyAllot
  simp only
  split
  · exact made.trans (.of_fixed rfl)
  · split
    · exact .ite (made.trans (.of_fixed rfl)) (.refl s)
    · exact .ite (made.trans (.of_fixed rfl)) (.refl s)

theorem snapViews_calm (a b : List SlotEntry) (s : State) : Calm s (snapViews a b s) := .of_fixed rfl

theorem retryRestart_calm (s : State) : Calm s (retryRestart s) := .of_fixed rfl

theorem applySnapshot_calm (f : FrameNo) (s : State) : Calm s (applySnapshot f s) := by
  unfold applySnapshot
  split
  · exact .ite ((needGainSnap_calm _).after rfl) (.refl s)
  · split
    · exact .refl s
    · simp only
      repeat' split
      · exact (goDone_calm _ _).on ((rejudge_calm _).on ((retryCheck_calm _).on
          ((needGainSnap_calm _).on ((snapViews_calm _ _ _).on ((replaceTable_calm _ _ _).after rfl)))))
      · exact (goDone_calm _ _).on ((rejudge_calm _).on ((retryCheck_calm _).on
          ((needGainSnap_calm _).on ((snapViews_calm _ _ _).on ((replaceTable_calm _ _ _).after rfl)))))
      · exact .of_fixed rfl
      · exact (retryRestart_calm _).on ((pushSnapReq_calm _).after rfl)

theorem takeSnapReq_calm (w : NodeId) (l : Option Serial) (s : State) : Calm s (takeSnapReq w l s) := by
  unfold takeSnapReq
  exact .ite ((needAllotSnap_calm _).after rfl) (.refl s)

/-! ### Gain Controller (Section 6) -/

theorem applyGainQuiet_calm (i : Nat) (g : GainSetting) (e : GainSerial) (s : State) : Calm s (applyGainQuiet i g e s) := by
  unfold applyGainQuiet
  simp only
  split
  · exact .refl s
  · exact .ite ((refreshInputCache_calm _ _).after rfl) (.refl s)

theorem applyGain_calm (i : Nat) (g : GainSetting) (e : GainSerial) (c : GainCause) (s : State) :
    Calm s (applyGain i g e c s) := by
  unfold applyGain
  split
  · exact .refl s
  · exact .ite ((notify_calm _ _).on (applyGainQuiet_calm _ _ _ _)) (.refl s)

theorem applyNote_calm (n : NodeId) (i : Nat) (g : GainSetting) (e : GainSerial) (c : GainCause) (s : State) :
    Calm s (applyNote n i g e c s) := by
  unfold applyNote
  exact .ite (applyGain_calm _ _ _ _ _) (.ite (.refl s) ((notify_calm _ _).on (cacheUpdate_calm _ _ _ _ _)))

theorem takeGainSnap_calm (n : NodeId) (p : Nat) (l : List (GainSetting × GainSerial)) (s : State) :
    Calm s (takeGainSnap n p l s) := .foldl (fun _ _ => cacheUpdate_calm _ _ _ _ _) _ _

theorem answerGain_calm (w : NodeId) (tag : Byte) (n : MsgNo) (v : Verdict) (s : State) :
    Calm s (answerGain w tag n v s) := (pushInternal_calm _ _ s).trans (.of_fixed rfl)

theorem decideGain_calm (i : Nat) (g : GainSetting) (c : GainCause) (s : State) : Calm s (decideGain i g c s) := by
  unfold decideGain pushGainNote
  exact .ite (.of_fixed rfl) ((notify_calm _ _).after rfl)

theorem decideAsk_calm (w : NodeId) (tag : Byte) (n : MsgNo) (i : Nat) (a : GainAsk) (s : State) :
    Calm s (decideAsk w tag n i a s) := by
  unfold decideAsk
  split
  · exact answerGain_calm _ _ _ _ _
  · exact (answerGain_calm _ _ _ _ _).on (.ite (decideGain_calm _ _ _ _) (.refl s))

theorem takeGainAsk_calm (w : NodeId) (tag : Byte) (n : MsgNo) (i : Nat) (a : GainAsk) (s : State) :
    Calm s (takeGainAsk w tag n i a s) := by
  have fresh : Calm s (if queueLen s = 15 then answerGain w tag n (.no .state) s
      else if 16 ≤ queueLen s then s else decideAsk w tag n i a s) :=
    .ite (answerGain_calm _ _ _ _ _) (.ite (.refl s) (decideAsk_calm _ _ _ _ _ _))
  unfold takeGainAsk
  simp only
  split
  · exact .refl s
  · split
    · exact .ite (pushInternal_calm _ _ _) fresh
    · exact fresh

theorem takeGainAnswer_calm (tag : Byte) (v : Verdict) (s : State) : Calm s (takeGainAnswer tag v s) := by
  unfold takeGainAnswer
  split
  case h_1 => exact .refl s
  case h_2 o _ =>
    split
    · exact endOp_calm _ _ _ _
    · exact endOp_calm _ _ _ _
    · exact endOp_calm _ _ _ _
    · exact .refl s

/-! ### Talk Unit (Section 7) -/

theorem modifyKey_calm (k : KeyName) (f : KeyRec → KeyRec) (s : State) : Calm s (modifyKey k f s) := .of_fixed rfl

theorem endKey_calm (k : KeyName) (st : KeyState) (c : KeyCause) (s : State) : Calm s (endKey k st c s) :=
  (endKey_admits k st c s).calm

theorem moveKey_calm (k : KeyName) (st : KeyState) (c : KeyCause) (s : State) : Calm s (moveKey k st c s) :=
  (notify_calm _ _).on (modifyKey_calm _ _ _)

theorem applyRefuse_calm (b : Bus) (n : NodeId) (k : KeyName) (w : TalkReason) (s : State) :
    Calm s (applyRefuse b n k w s) := by
  unfold applyRefuse
  exact .ite (endKey_calm _ _ _ _) (.refl s)

theorem takeTalkClaim_calm (b : Bus) (c : Claim) (s : State) : Calm s (takeTalkClaim b c s) := by
  unfold takeTalkClaim
  split
  · exact (carryOut_admits _ _ _ _).calm.after rfl
  · exact .refl s

theorem purgeBus_calm (n : NodeId) (s : State) (b : Bus) : Calm s (purgeBus n s b) := by
  unfold purgeBus
  simp only
  repeat' split
  · exact (issueGrant_admits _ _).calm.after rfl
  · exact .of_fixed rfl
  · exact .of_fixed rfl

theorem purgeTalk_calm (l : List NodeId) (s : State) : Calm s (purgeTalk l s) :=
  .foldl (fun _ _ => .foldl (fun _ _ => purgeBus_calm _ _ _) _ _) _ _

theorem grantKey_calm (b : Bus) (t : Option Talker) (s : State) (k : KeyName) : Calm s (grantKey b t s k) := by
  have release : Calm s (sendRelease k s) := (sendRelease_admits k s).calm
  unfold grantKey
  simp only
  split
  · exact .refl s
  · split
    · split
      · exact (moveKey_calm _ _ _ _).on (modifyKey_calm _ _ _)
      · exact moveKey_calm _ _ _ _
      · exact .refl s
      · exact release
      · exact release
      · exact release
    · split
      · split
        · exact moveKey_calm _ _ _ _
        all_goals exact .refl s
      · split
        · exact endKey_calm _ _ _ _
        · exact endKey_calm _ _ _ _
        all_goals exact .refl s

theorem applyGrant_calm (n : NodeId) (b : Bus) (t : Option Talker) (e : Serial) (d : Nat) (s : State) :
    Calm s (applyGrant n b t e d s) := by
  have view : Calm s (setView b e t (setTalkWriter b (t.map (·.node)) s)) := .of_fixed rfl
  unfold applyGrant
  refine .ite (.refl s) ((notify_calm _ _).on ((rejudge_calm _).on
    ((Calm.foldl (fun _ _ => grantKey_calm _ _ _ _) _ _).on (.ite (view.trans (.of_fixed rfl)) view))))

theorem grantHeard_calm (t : Option Talker) (s : State) : Calm s (grantHeard t s) := by
  unfold grantHeard
  split
  · exact .ite (modifyKey_calm _ _ _) (.refl s)
  · exact .refl s

theorem dropKeys_calm (c : DropCause) (s : State) : Calm s (dropKeys c s) := (notify_calm _ _).after rfl

/-! ### Lock (Section 9) -/

theorem setLockView_calm (n : NodeId) (v : Option Nat) (s : State) : Calm s (setLockView n v s) := by
  unfold setLockView
  exact .ite (.refl s) ((notify_calm _ _).after rfl)

theorem lockVisit_calm (h : Header) (s : State) : Calm s (lockVisit h s) := by
  cases rank : h.origin.rank
  · rw [lockVisit_master rank]
    exact (setLockView_calm _ _ _).on (.ite (.refl s) ((notify_calm _ _).after rfl))
  · rw [lockVisit_deputy rank]
    exact .refl s

end Sys2Proof.Machine
end

section
/-! PROOFS. The frame rule of the visits, continued: the pending switches, the cells read and written, the map and the
circuit end, for O55. -/

namespace Sys2Proof.Machine

open Sys2Proof

/-! ### After a change of the loop record -/

theorem drillWrap_calm (m : LoopMode) (s : State) (p : PortId) : Calm s (drillWrap m s p) := by
  unfold drillWrap
  simp only
  split
  · exact .refl s
  · refine .ite ⟨by simp, by simp, by simp, fun q => ?_, ?_, ?_, ?_, ?_, ?_, ?_, ?_, ?_, ?_, ?_, ?_⟩ (.refl s)
    · cases p <;> cases q <;> exact ⟨_, _, rfl⟩
    all_goals simp

theorem afterLoop_calm (c : LoopCause) (old s : State) : Calm s (afterLoop c old s) := by
  have takeover (m : LoopMode) (a : State) : Calm a (takeoverCheck m a) := by
    unfold takeoverCheck
    exact .ite (.of_fixed rfl) (.ite (.of_fixed rfl) (.refl a))
  have plans (m : LoopMode) (a : State) : Calm a (dropPlans m a) := by
    unfold dropPlans
    exact .ite (.of_fixed rfl) (.refl a)
  unfold afterLoop
  simp only
  have base : Calm s (drillWrap (loopMode old) (drillWrap (loopMode old)
      (dropPlans (loopMode old) (takeoverCheck (loopMode old) s)) .a) .b) :=
    (drillWrap_calm _ _ _).on ((drillWrap_calm _ _ _).on ((plans _ _).on (takeover _ _)))
  have currency (a : State) : Calm a (if modeLosesCopy a then loseCurrency a else a) :=
    .ite (loseCurrency_calm a) (.refl a)
  have judged := (base.trans (currency _)).trans
    ((retryCheck_calm _).on (rejudge_calm _))
  exact .ite ((notify_calm _ _).on judged) judged

theorem setWrap_calm (p : PortId) (w : Wrap) (s : State) : Calm s (s.setWrap p w) := by
  cases p <;> exact .of_fixed rfl

/-! ### The pending switch list (R18) -/

theorem applyWrapPlan_calm (n : NodeId) (l : Link) (s : State) : Calm s (applyWrapPlan n l s) := by
  have mark (a : State) : Calm a (if a.isMaster && n = a.start.id then
      modifyLink l.node l.port (fun e => { e with wrapped := true })
        (modifyLink l.farNode l.farPort (fun e => { e with wrapped := true }) a) else a) :=
    .ite (.of_fixed rfl) (.refl _)
  unfold applyWrapPlan
  simp only
  split
  · exact mark s
  · exact .ite ((afterLoop_calm _ _ _).on ((mark _).on (setWrap_calm _ _ _))) (.refl s)

theorem healApplied_calm (l : Link) (o : Option Byte) (s : State) : Calm s (healApplied l o s) := by
  have judged : Calm s (if endStillUsable s l.node l.port && endStillUsable s l.farNode l.farPort then
      judgeLinks (modifyLink l.node l.port (fun e => { e with wrapped := false })
        (modifyLink l.farNode l.farPort (fun e => { e with wrapped := false }) s)) else s) :=
    .ite ((judgeLinks_linked _).calm.after rfl) (.refl s)
  unfold healApplied
  simp only
  cases o
  · exact judged
  · exact judged.trans ((endOp_calm _ _ _ _).on (.of_fixed rfl))

theorem applyUnwrapPlan_calm (n : NodeId) (l : Link) (o : Option Byte) (s : State) :
    Calm s (applyUnwrapPlan n l o s) := by
  have heal (a : State) : Calm a (if a.isMaster && n = a.start.id then healApplied l o a else a) :=
    .ite (healApplied_calm _ _ _) (.refl _)
  unfold applyUnwrapPlan
  simp only
  cases linkPortOf l s.start.id with
  | none => exact heal s
  | some p => exact (heal _).on (.ite ((afterLoop_calm _ _ _).on (setWrap_calm _ _ _)) (.refl s))

theorem applySwitch_calm (p : PendingSwitch) (s : State) : Calm s (applySwitch p s) := by
  unfold applySwitch
  split
  · exact applySnapshot_calm _ _
  · split
    · exact .ite (.refl s) (applyAllot_calm _ _ _ _)
    · exact applyNote_calm _ _ _ _ _ _
    · exact applyGrant_calm _ _ _ _ _ _
    · exact applyWrapPlan_calm _ _ _
    · exact applyUnwrapPlan_calm _ _ _ _
    · exact .refl s

theorem applyPending_calm (n : NodeId) (s : State) : Calm s (applyPending n s) := by
  unfold applyPending
  split
  · exact (applySwitch_calm _ _).after rfl
  · exact .refl s

theorem applyDue_calm (s : State) : Calm s (applyDue s) := .foldl (fun _ _ => applyPending_calm _ _) _ _

theorem enterSwitch_calm (p : PendingSwitch) (s : State) : Calm s (enterSwitch p s) :=
  (applyPending_calm p.sender s).trans (.of_fixed rfl)

/-! ### The loop map (R58 to R60) -/

theorem setCopy_calm (e : Serial) (l : List MapEntry) (s : State) : Calm s (setCopy e l s) := by
  have leaves (a : State) (n : NodeId) : Calm a (nodeLeaves a n) := (setLockView_calm _ _ _).after rfl
  unfold setCopy
  simp only
  refine (rejudge_calm _).on ((notify_calm _ _).on (Calm.trans ?_
    (.ite ((pushLockNote_admits _).calm.on (needGainSnap_calm _)) (.refl _))))
  exact (Calm.foldl leaves _ _).after rfl

theorem takeMap_calm (e : Serial) (l : List MapEntry) (s : State) : Calm s (takeMap e l s) :=
  .ite (setCopy_calm _ _ _) ((dropKeys_calm _ _).on (setCopy_calm _ _ _))

theorem circuitMap_calm (l : List Hop) (s : State) : Calm s (circuitMap l s) := by
  unfold circuitMap
  simp only
  split
  · exact .of_fixed rfl
  · refine (judgeLinks_linked _).calm.on (Calm.trans ?_ (.ite (needAllotSnap_calm _) (.refl _)))
    exact (purgeTalk_calm _ _).on ((setCopy_calm _ _ _).on ((publishMap_admits _).calm.after rfl))

/-! ### The cells read, at an acting origin (R11, R12) -/

theorem enterReceived_calm (n : NodeId) (h : Header) (i : SwitchItem) (f : FrameNo) (s : State) :
    Calm s (enterReceived n h i f s) := by
  unfold enterReceived
  exact .ite (enterSwitch_calm _ _) (.refl s)

theorem takeAllot_calm (n : NodeId) (h : Header) (m : Message) (e : Serial) (s : State) :
    Calm s (takeAllot n h m e s) := by
  unfold takeAllot
  exact .ite (.refl s) ((enterReceived_calm _ _ _ _ _).on (.ite ((retryCheck_calm _).on ((rejudge_calm _).on
    ((pushSnapReq_calm _).on (loseCurrency_calm _)))) (.refl s)))

theorem supersede_calm (n : NodeId) (s : State) : Calm s (supersede n s) := by
  unfold supersede
  split
  · exact .refl s
  · split
    · exact .ite (.refl s) (.of_fixed rfl)
    · exact .refl s

theorem takeSnap_calm (n : NodeId) (h : Header) (m : Message) (e : Serial) (p : Nat) (l : List SlotEntry) (s : State) :
    Calm s (takeSnap n h m e p l s) := by
  have begin_ (a : State) : Calm a (beginCollection e (switchOf m s) p l a) := .of_fixed rfl
  unfold takeSnap
  exact .ite (.refl s) (.ite (.of_fixed rfl)
    ((begin_ _).on ((enterReceived_calm _ _ _ _ _).on (supersede_calm _ _))))

theorem takeSlotAnswer_calm (t : Byte) (l : List PairResult) (s : State) : Calm s (takeSlotAnswer t l s) := by
  unfold takeSlotAnswer
  refine .ite (.refl s) ?_
  split
  case h_1 => exact .refl s
  case h_2 o _ =>
    split
    · exact endOp_calm _ _ _ _
    · exact endOp_calm _ _ _ _
    · exact .refl s

/-- An origin passes a RESTART over (log entry 35). -/
theorem takeRestart_origin {e : Epoch} {s : State} (h : s.loop.role = .origin) : takeRestart e s = s := by
  unfold takeRestart
  split
  · rfl
  · exact if_pos (by simp [State.isOrigin, h])

theorem actOn_calm (n : NodeId) (h : Header) (m : Message) {s : State} (origin : s.loop.role = .origin) :
    Calm s (actOn n h m s) := by
  unfold actOn
  split
  · exact takeMap_calm _ _ _
  · exact takeAllot_calm _ _ _ _ _
  · exact takeSnap_calm _ _ _ _ _ _ _
  · exact takeSnapReq_calm _ _ _
  · exact takeSlotAsk_calm _ _ _ _ _
  · exact takeSlotAsk_calm _ _ _ _ _
  · exact takeSlotAnswer_calm _ _ _
  · exact takeGainAsk_calm _ _ _ _ _ _
  · exact takeGainAsk_calm _ _ _ _ _ _
  · exact takeGainAsk_calm _ _ _ _ _ _
  · exact takeGainAnswer_calm _ _ _
  · exact enterReceived_calm _ _ _ _ _
  · exact takeGainSnap_calm _ _ _ _
  · exact takeTalkClaim_calm _ _ _
  · exact (takeTalkRelease_admits _ _ _).calm
  · exact .ite ((enterReceived_calm _ _ _ _ _).on (grantHeard_calm _ _)) (.refl s)
  · exact .ite (applyRefuse_calm _ _ _ _ _) (.refl s)
  · exact (takeLinkNote_judged _ _ _ _ _ _ _).calm
  · exact enterReceived_calm _ _ _ _ _
  · exact enterReceived_calm _ _ _ _ _
  · rw [takeRestart_origin origin]
    exact .refl s
  · exact setLockView_calm _ _ _

theorem readCell_calm (h : Header) {s : State} (origin : s.loop.role = .origin) (n : NodeId) (c : Option Message) :
    Calm s (readCell h s n c) := by
  unfold readCell
  split
  · exact .refl s
  · exact .ite (.refl s) (.ite (.refl s) ((actOn_calm _ _ _ (by exact origin)).after rfl))

theorem readCells_calm (f : Frame) {s : State} (origin : s.loop.role = .origin) : Calm s (readCells f s) :=
  List.foldlRecOn (motive := fun (a : State) => Calm s a) _ _ (.refl s) fun _ ha _ _ =>
    (readCell_calm _ (ha.role.trans origin) _ _).on ha

theorem advancePiece_calm (s : State) : Calm s (advancePiece s) := by
  unfold advancePiece
  split
  · exact .refl s
  · exact .ite ((snapshotStart_calm _).after rfl) (.of_fixed rfl)

theorem confirmHead_calm (s : State) : Calm s (confirmHead s) := by
  unfold confirmHead
  split
  · exact .refl s
  · simp only
    split <;> exact .of_fixed rfl

theorem tellConfirmed_calm (f : Frame) (s : State) : Calm s (tellConfirmed f s) := by
  unfold tellConfirmed
  split
  · split
    · exact .ite (modifyOp_calm _ _ _) (.refl s)
    · exact .refl s
  · exact .refl s

theorem assess_calm (f : Frame) (s : State) : Calm s (assess f s) := by
  unfold assess
  split
  · exact .refl s
  · exact .ite (.ite ((advancePiece_calm _).after rfl) ((confirmHead_calm _).after rfl)) (.of_fixed rfl)

/-! ### The cell written (R13, R15, R73) -/

theorem dropEffect_calm (i : QItem) (s : State) : Calm s (dropEffect i s) := by
  have lost := loseOp_calm i.op s
  unfold dropEffect
  simp only
  split
  · exact lost.trans ((needAllotSnap_calm _).after rfl)
  · exact (needGainSnap_calm _).on lost
  · exact (claimDropped_admits _ _).calm.on lost
  · exact lost.trans (.of_fixed rfl)
  · exact lost.trans (.of_fixed rfl)
  · exact lost.trans (.of_fixed rfl)
  · exact lost

theorem dropSpent_calm (s : State) : Calm s (dropSpent s) := by
  unfold dropSpent
  refine Calm.trans ?_ (.ite (advancePiece_calm _) (.refl _))
  refine .ite ?_ (.refl s)
  split
  · exact .refl s
  · exact (dropEffect_calm _ _).after rfl

theorem dropStale_calm (s : State) : Calm s (dropStale s) := .of_fixed rfl

/-- The state in which the cell's item is chosen. -/
def chooseIn (s : State) : State := dropStale (dropSpent (dropStale (admitOwed s)))

theorem chooseIn_calm (s : State) : Calm s (chooseIn s) :=
  (dropStale_calm _).on ((dropSpent_calm _).on ((dropStale_calm _).on (admitOwed_admits s).calm))

theorem stampHead_calm (i : QItem) (s : State) : Calm s (stampHead i s).2 := by
  unfold stampHead
  simp only
  split
  · exact (enterSwitch_calm _ _).after rfl
  · exact .refl s

theorem firstSend_calm (i : QItem) (s : State) : Calm s (firstSend i s) := by
  have op : Calm s (match i.op with
      | some t => modifyOp t (fun o => { o with stage := .sent }) s
      | none => s) := by
    cases i.op
    · exact .refl s
    · exact modifyOp_calm _ _ _
  unfold firstSend
  simp only
  split
  · exact op.trans (.of_fixed rfl)
  · exact op

theorem sendHead_calm (h : Header) (s : State) : Calm s (sendHead h s).1 := by
  unfold sendHead
  split
  · exact .refl s
  · next i l _ =>
    have snap (a : State) : Calm a (match i.body with
        | .snapReq _ => retryRestart a
        | _ => a) := by
      split
      · exact retryRestart_calm _
      · exact .refl _
    have first (a : State) : Calm a (if i.sends = 0 then firstSend i a else a) :=
      .ite (firstSend_calm i a) (.refl a)
    have sent := (stampHead_calm i s).trans ((snap _).on (first _))
    exact sent.trans (.of_fixed rfl)

theorem stampSnap_calm (r : SnapRun) (s : State) : Calm s (stampSnap r s).2 := by
  unfold stampSnap
  split
  · exact (enterSwitch_calm _ _).after rfl
  · exact .refl s
  · exact .refl s

theorem sendPiece_calm (h : Header) (s : State) : Calm s (sendPiece h s).1 := by
  unfold sendPiece
  split
  · exact .refl s
  · next r _ =>
    refine (stampSnap_calm r s).trans ?_
    obtain ⟨r1, s1⟩ := stampSnap r s
    cases hm : r1.msg <;> simp only [hm] <;> exact .of_fixed rfl

/-- A node that has no RESTART prepared writes a cell as every node does. -/
theorem chooseCell_calm (h : Header) {s : State} (none_ : ∀ e, s.loop.restart ≠ .prepared e) :
    Calm s (chooseCell h s).1 := by
  have turn : Calm s (match cellTurn s with
      | .queue => sendHead h s
      | .piece => sendPiece h s
      | .neither => ({ s with queue := { s.queue with written := none, last := .neither } }, none)).1 := by
    split
    · exact sendHead_calm _ _
    · exact sendPiece_calm _ _
    · exact .of_fixed rfl
  unfold chooseCell
  cases hr : s.loop.restart with
  | prepared e => exact absurd hr (none_ e)
  | idle => exact turn
  | written e => exact turn

theorem writeCell_calm (f : Frame) {s : State} (none_ : ∀ e, s.loop.restart ≠ .prepared e) :
    Calm s (writeCell f s).1 := by
  rw [writeCell_fst]
  have last (a : State) : Calm a { a with queue := { a.queue with last := .neither } } := .of_fixed rfl
  refine .ite ?_ ((last _).on (admitOwed_admits s).calm)
  have chosen := chooseIn_calm s
  exact (chooseCell_calm f.header fun e k => none_ e (chosen.restart.symm.trans k)).on chosen

/-- The RESTART is written in place of any other item (R73). -/
theorem chooseCell_restart {h : Header} {s : State} {e : Epoch} (prepared : s.loop.restart = .prepared e)
    (origin : s.loop.role = .origin) : (chooseCell h s).1 = { s with
      loop := { s.loop with restart := .written e }
      queue := { s.queue with nextNum := s.queue.nextNum + 1, written := none, last := .neither } } := by
  unfold chooseCell
  rw [prepared]
  simp only
  rw [if_pos (by simp [State.isOrigin, origin])]
  rfl

/-! ### A first visit at an acting origin (R9) -/

theorem visitStart_calm (h : Header) (s : State) : Calm s (visitStart h s) :=
  (lockVisit_calm _ _).on ((snapshotStart_calm _).on ((applyDue_calm _).on (setCount_calm _ _)))

theorem visitRead_calm (f : Frame) {s : State} (origin : s.loop.role = .origin) : Calm s (visitRead f s) := by
  have told := (tellConfirmed_calm f _).on (visitSamples_calm (f.slots.getD []) s)
  exact (assess_calm _ _).on ((readCells_calm f (told.role.trans origin)).on told)

/-- The state in which a first visit writes. -/
def visitIn (f : Frame) (s : State) : State := visitRead f (visitStart f.header s)

theorem visitIn_calm (f : Frame) {s : State} (origin : s.loop.role = .origin) : Calm s (visitIn f s) :=
  (visitRead_calm f ((visitStart_calm f.header s).role.trans origin)).on (visitStart_calm f.header s)

theorem firstVisit_state (f : Frame) (d : Direction) (s : State) :
    (firstVisit f d s).1 = noteVisit f.header (writeCell f (visitIn f s)).1 := by
  rw [firstVisit_fst, visitWrite_fst]
  rfl

theorem circuitEnd_calm (f : Frame) (now : Nanos) (s : State) : Calm s (circuitEnd f now s) := by
  unfold circuitEnd
  exact .ite ((circuitMap_calm _ _).after rfl) (.refl s)

end Sys2Proof.Machine
end

section
/-! PROOFS. An origination (R8, R48, R73): what it keeps, for O55. -/

namespace Sys2Proof.Machine

open Sys2Proof

/-! ### The modes in which an origin writes cells (R13, R45) -/

theorem writesCells_origin {s : State} (h : s.loop.role = .origin) : writesCells (loopMode s) =
    (!s.start.held && s.loop.conflict.isNone && (s.usable .a || s.usable .b)) := by
  unfold loopMode
  simp only [h, State.isOrigin]
  cases s.start.held <;> cases s.loop.conflict <;> cases s.usable .a <;> cases s.usable .b <;>
    simp [writesCells]
  all_goals
    by_cases a : s.loop.wrapA = .none <;> by_cases b : s.loop.wrapB = .none <;> simp [a, b]

theorem Calm.writesCells {s t : State} (h : Calm s t) (origin : s.loop.role = .origin) :
    writesCells (loopMode t) = writesCells (loopMode s) := by
  rw [writesCells_origin origin, writesCells_origin (h.role.trans origin), h.start, h.conflict, h.usable, h.usable]

/-! ### The visit of an origination -/

/-- The state with the visit noted and the RESTART's record as the visit leaves it. -/
def markVisit (r : Restart) (s : State) : State :=
  { s with loop := { s.loop with visited := true, restart := r } }

theorem Calm.marked {s t : State} (h : Calm s t) (r : Restart) : Calm (markVisit r s) (markVisit r t) where
  start := h.start
  supervision := h.supervision
  panicT := h.panicT
  ports := h.ports
  role := h.role
  group := h.group
  epoch := h.epoch
  conflict := h.conflict
  visited := rfl
  originated := h.originated
  restart := rfl
  takeoverMs := h.takeoverMs
  present := h.present
  out := h.out
  laneUsed := h.laneUsed

/-- The restart record after an origination in the given state (R73). -/
def restartAfter (s : State) : Restart :=
  match s.loop.restart with
  | .prepared e => if writesCells (loopMode s) then .written e else .prepared e
  | r => r

theorem firstVisit_calm (f : Frame) (d : Direction) {s : State} (origin : s.loop.role = .origin) :
    Calm (markVisit (restartAfter s) s) (firstVisit f d s).1 := by
  have visit := visitIn_calm f origin
  have role := visit.role.trans origin
  rw [firstVisit_state]
  generalize visitIn f s = u at *
  have noted (r : Restart) (a : State) (h : a.loop.restart = r) : Calm (markVisit r a) (noteVisit f.header a) :=
    .of_fixed (by simp [fixedParts, markVisit, noteVisit, h])
  by_cases prepared : ∃ e, s.loop.restart = .prepared e
  · obtain ⟨e, he⟩ := prepared
    have mode : writesCells (loopMode (admitOwed u)) = writesCells (loopMode s) :=
      ((admitOwed_admits u).calm.on visit).writesCells origin
    have last (a : State) : Calm a { a with queue := { a.queue with last := .neither } } := .of_fixed rfl
    rw [writeCell_fst, mode]
    cases hm : writesCells (loopMode s)
    · have same : restartAfter s = .prepared e := by unfold restartAfter; rw [he]; simp [hm]
      have kept := (last _).on ((admitOwed_admits u).calm.on visit)
      rw [same, if_neg (by simp)]
      exact (noted _ _ (kept.restart.trans he)).on (kept.marked _)
    · have same : restartAfter s = .written e := by unfold restartAfter; rw [he]; simp [hm]
      have chosen := (chooseIn_calm u).on visit
      have wrote := chooseCell_restart (h := f.header) (chosen.restart.trans he) (chosen.role.trans origin)
      rw [same, if_pos rfl]
      change Calm _ (noteVisit f.header (chooseCell f.header (chooseIn u)).1)
      rw [wrote]
      generalize chooseIn u = c at *
      exact (chosen.marked _).trans (.of_fixed rfl)
  · have same : restartAfter s = s.loop.restart := by
      unfold restartAfter
      split
      next e h => exact absurd ⟨e, h⟩ prepared
      · rfl
    have kept := (writeCell_calm f fun e k => prepared ⟨e, visit.restart.symm.trans k⟩).on visit
    rw [same]
    exact (noted _ _ kept.restart).on (kept.marked _)

theorem route_calm (p : PortId) (f : Frame) (s : State) : Calm s (route p f s) := by
  unfold route
  refine .ite ⟨by simp, by simp, by simp, fun q => ?_, ?_, ?_, ?_, ?_, ?_, ?_, ?_, ?_, ?_, ?_, ?_⟩ (.refl s)
  · cases p <;> cases q <;> exact ⟨_, _, rfl⟩
  all_goals simp

theorem sendOriginated_calm (f : Frame) (now : Nanos) (s : State) : Calm s (sendOriginated f now s) :=
  .ite ((route_calm _ _ _).after rfl) ((circuitEnd_calm _ _ _).after rfl)

/-! ### An origination (R8, R48) -/

/-- The state in which the frame is built: the count risen, a written RESTART's epoch taken (R2, R73). -/
def originateIn (s : State) : State := takeEpoch (setCount (s.loop.count + 1) s)

/-- The visit of the origination. -/
def originateVisit (g : OriginGroup) (s : State) : State × Frame :=
  firstVisit (buildFrame g (originateIn s)) .forward (originateIn s)

theorem originate_eq {now : Nanos} {s : State} {g : OriginGroup} (h : (originateIn s).loop.group = some g) :
    originate now s = sendOriginated (ownHop (originateVisit g s).1 (originateVisit g s).2) now
      (originateVisit g s).1 := by
  unfold originate
  simp only
  change (match (originateIn s).loop.group with
    | none => originateIn s
    | some g => sendOriginated (ownHop (originateVisit g s).1 (originateVisit g s).2) now
        (originateVisit g s).1) = _
  rw [h]

theorem originate_calm (now : Nanos) {s : State} {g : OriginGroup} (group : (originateIn s).loop.group = some g)
    (origin : (originateIn s).loop.role = .origin) :
    Calm (markVisit (restartAfter (originateIn s)) (originateIn s)) (originate now s) := by
  rw [originate_eq group]
  exact (sendOriginated_calm _ _ _).on (firstVisit_calm _ _ origin)

/-- Without a written RESTART the count alone has risen. -/
theorem originateIn_unwritten {s : State} (h : ∀ e, s.loop.restart ≠ .written e) :
    originateIn s = setCount (s.loop.count + 1) s := by
  have restart : (setCount (s.loop.count + 1) s).loop.restart = s.loop.restart := (setCount_calm _ s).restart
  unfold originateIn takeEpoch
  generalize setCount (s.loop.count + 1) s = a at *
  cases hr : a.loop.restart with
  | idle => rfl
  | prepared e => rfl
  | written e => exact absurd (restart.symm.trans hr) (h e)

end Sys2Proof.Machine
end

section
/-! PROOFS. The refutation of O37: a RESTART that ends ORPHAN beside a wrap at a drilled port writes that port's drill
record (R40). -/

namespace Sys2Proof.Machine

open Sys2Proof

/-- A follower in ORPHAN: its origin is lost, port B is UP, and port A, which holds a wrap, is drilled and has not seen
the entry to the wrap. -/
def orphanDrilled : State :=
  { State.reset with
    start := { State.reset.start with powerHeld := false, pinHeld := false, held := false }
    portA := { State.reset.portA with state := .drill, drill := some ⟨0, 1000, none, 0⟩ }
    portB := { State.reset.portB with state := .up }
    loop := { State.reset.loop with
      role := .follower, group := some ⟨1, .master, 0⟩, following := false, wrapA := .loss } }

theorem orphanDrilled_mode : loopMode orphanDrilled = .orphan := by decide

/-- The RESTART of the node's group with the next epoch. -/
def restartMessage : Message := ⟨none, 0, .restart 1, none⟩

/-- The frame that brings it. -/
def restartHeader : Header := ⟨0, ⟨1, .master, 0⟩, 0, .k48, 0, [], []⟩

theorem restart_writes_wrapFrame :
    (actOn 1 restartHeader restartMessage orphanDrilled).portA.drill = some ⟨0, 1000, some 0, 0⟩ := by decide

/-- Refutes O37: the node that the RESTART takes out of ORPHAN enters the wrap at its drilled port A, and the drill
record there receives the wrap frame, so that the port record does not stand. -/
theorem not_restartCarriedOut : ¬ Obligations.RestartCarriedOut := by
  rintro ⟨-, acts⟩
  obtain ⟨-, follower⟩ := acts 1 restartHeader restartMessage 1 orphanDrilled rfl
  obtain ⟨-, -, -, -, -, -, -, -, -, -, -, -, -, -, -, -, -, -, -, portA, -⟩ := follower ⟨1, .master, 0⟩ rfl rfl
  have drill := restart_writes_wrapFrame
  rw [portA] at drill
  exact absurd drill (by decide)

end Sys2Proof.Machine
end

section
/-! PROOFS. What the events that fall due at the end of a frame period keep (R2, R63, R157, R168), for O55. -/

namespace Sys2Proof.Machine

open Sys2Proof

/-! ### An epoch change, its loop record apart -/

theorem loseEntry_calm (s : State) (p : PendingSwitch) : Calm s (loseEntry s p) := by
  have gain (i : Nat) (n : GainSerial) : Calm s (loseGain i n s) := by
    unfold loseGain
    split
    · exact .refl s
    · split
      · exact .refl s
      · exact .ite ((notify_calm _ _).on ((needGainSnap_calm _).on ((refreshInputCache_calm _ _).after rfl))) (.refl s)
  unfold loseEntry
  refine .ite (.refl s) ?_
  split
  · exact .refl s
  · split
    · unfold loseHeal
      split
      · exact (loseOp_calm _ s).trans (.of_fixed rfl)
      · exact .refl s
    · exact .ite (.refl s) (.of_fixed rfl)
    · exact .ite (.refl s) (gain _ _)
    · exact .refl s

theorem epochHead_calm (g : OriginGroup) (r : OriginRole) (s : State) :
    Calm { s with loop := epochLoop g r s } (epochHead g r s) := by
  unfold epochHead
  simp only
  refine (Calm.foldl loseEntry_calm _ _).on ?_
  split
  · exact (needAllotSnap_calm _).after rfl
  · exact .of_fixed rfl

theorem epochTail_calm (s : State) : Calm s (epochTail s) := by
  have talk (a : State) : Calm a (talkEpoch a) := (dropKeys_calm .epoch a).trans (.of_fixed rfl)
  have lock (a : State) : Calm a (lockEpoch a) :=
    (pushLockNote_admits _).calm.on (Calm.foldl (fun b n => setLockView_calm n none b) allNodes a)
  unfold epochTail
  exact (needGainSnap_calm _).on ((lock _).on ((talk _).on ((loseCurrency_calm _).after rfl)))

/-- Of the fixed parts an epoch change moves the loop record alone (R62). -/
theorem epochChange_calm (g : OriginGroup) (r : OriginRole) (s : State) :
    Calm { s with loop := epochLoop g r s } (epochChange g r s) := by
  rw [epochChange_eq]
  exact (epochTail_calm _).on (epochHead_calm g r s)

/-! ### What lasts through the end of a period -/

/-- A timer that runs and has not run out stands as it is: its time passes in the next period. -/
def Runs (x y : Timer) : Prop := ∀ n, x = some n → n ≠ 0 → y = some n

theorem Runs.refl (x : Timer) : Runs x x := fun _ h _ => h

theorem Runs.trans {x y z : Timer} (h : Runs x y) (k : Runs y z) : Runs x z := fun n e ne => k n (h n e ne) ne

/-- Through the end of a period the start record lasts, the running timers of supervision and PANIC, the period's marks,
and the RESTART is not taken to be written. -/
structure Timed (s t : State) : Prop where
  start : t.start = s.start
  silence : Runs s.supervision.timer t.supervision.timer
  panicT : Runs s.safety.panicT t.safety.panicT
  visited : t.loop.visited = s.loop.visited
  originated : t.loop.originated = s.loop.originated
  unwritten : (∀ e, s.loop.restart ≠ .written e) → ∀ e, t.loop.restart ≠ .written e

/-- With no takeover the node's part on the loop lasts, too. -/
structure Lasting (s t : State) : Prop extends Timed s t where
  role : t.loop.role = s.loop.role
  group : t.loop.group = s.loop.group
  conflict : t.loop.conflict = s.loop.conflict
  takeoverMs : t.loop.takeoverMs = s.loop.takeoverMs

theorem Timed.trans {s t u : State} (h : Timed s t) (k : Timed t u) : Timed s u :=
  ⟨k.start.trans h.start, h.silence.trans k.silence, h.panicT.trans k.panicT, k.visited.trans h.visited,
    k.originated.trans h.originated, fun x => k.unwritten (h.unwritten x)⟩

theorem Lasting.trans {s t u : State} (h : Lasting s t) (k : Lasting t u) : Lasting s u :=
  ⟨h.toTimed.trans k.toTimed, k.role.trans h.role, k.group.trans h.group, k.conflict.trans h.conflict,
    k.takeoverMs.trans h.takeoverMs⟩

theorem Calm.lasting {s t : State} (h : Calm s t) : Lasting s t :=
  ⟨⟨h.start, by rw [h.supervision]; exact .refl _, by rw [h.panicT]; exact .refl _, h.visited, h.originated,
    by rw [h.restart]; exact id⟩, h.role, h.group, h.conflict, h.takeoverMs⟩

theorem Evented.lasting {s t : State} (h : Evented s t) : Lasting s t := by
  obtain ⟨start, -, -, -, supervision, ⟨o, safety⟩, ⟨_, _, _, _, _, _, _, _, _, loop⟩, -⟩ := h
  exact ⟨⟨start, by rw [supervision]; exact .refl _, by rw [safety]; exact .refl _, by rw [loop], by rw [loop],
    by rw [loop]; exact id⟩, by rw [loop], by rw [loop], by rw [loop], by rw [loop]⟩

theorem Lasting.refl (s : State) : Lasting s s := (Calm.refl s).lasting

theorem Lasting.on {s t u : State} (k : Lasting t u) (h : Lasting s t) : Lasting s u := h.trans k

theorem Lasting.ite {c : Prop} [Decidable c] {s t u : State} (h : Lasting s t) (k : Lasting s u) :
    Lasting s (if c then t else u) := by
  split <;> assumption

theorem Lasting.foldl {α : Type} {f : State → α → State} (h : ∀ a x, Lasting a (f a x)) (l : List α) (s : State) :
    Lasting s (l.foldl f s) := by
  induction l generalizing s with
  | nil => exact .refl s
  | cons x l ih => exact (h s x).trans (ih _)

/-- Settling and the report of the outputs leave it all. -/
theorem event_lasting {f : State → State} {s : State} : Lasting (f s) (event f s) := by
  have settled : Lasting (f s) (settle (f s)) := by
    obtain ⟨x, loop⟩ := loop_settle_takeover (f s)
    exact ⟨⟨by simp, by simp only [parts_settle]; exact .refl _, by rw [safety_settle]; exact .refl _, by rw [loop],
      by rw [loop], by rw [loop]; exact id⟩, by rw [loop], by rw [loop], by rw [loop], by rw [loop]⟩
  have reported (o : List OutRec) (a : State) : Calm a (reportOutputs o a) := by
    obtain ⟨l, b, d, e⟩ := reportOutputs_eq o a
    rw [e]
    exact .of_fixed rfl
  exact settled.trans (reported _ _).lasting

/-! ### The events, one by one -/

theorem missingAt_evented (p : PortId) (k : Nat) (s : State) : Evented s (missingAt p k s) := by
  unfold missingAt missingFrame
  exact .ite (.ite (alignedBad_evented p s) (.refl s)) (.refl s)

theorem settleExpired_evented (p : PortId) (s : State) : Evented s (settleExpired p s) :=
  .ite (commit_evented _ _ _ s) (.refl s)

theorem offerExpired_evented (p : PortId) (s : State) : Evented s (offerExpired p s) :=
  .ite (.ite (setPort_evented _ _ s) (commit_evented _ _ _ s)) (.refl s)

theorem relockExpired_evented (p : PortId) (s : State) : Evented s (relockExpired p s) := by
  unfold relockExpired
  refine .ite ?_ (.refl s)
  simp only
  split
  · exact .ite (setPort_evented _ _ s) ((setPort_evented _ _ s).trans (endDrill_evented _ _ _ _ _))
  · exact setPort_evented _ _ s

theorem windowEnded_evented (p : PortId) (s : State) : Evented s (windowEnded p s) :=
  .ite (commit_evented _ _ _ s) (.refl s)

theorem drillExpired_evented (p : PortId) (s : State) : Evented s (drillExpired p s) :=
  .ite (commit_evented _ _ _ s) (.refl s)

/-- The end of the origin timeout moves following, the timeout and what an event moves (R51). -/
theorem countTimeout_evented (s : State) :
    countTimeout s = s ∨ ∃ n, Evented { s with loop := { s.loop with timeout := n } } (countTimeout s) := by
  unfold countTimeout
  split
  · refine .inr ⟨s.loop.timeout + 1, ?_⟩
    simp only
    split
    · have ends (a : State) : Evented a { a with loop := { a.loop with following := false } } :=
        ⟨rfl, rfl, rfl, rfl, rfl, ⟨_, rfl⟩, ⟨_, _, _, _, _, _, _, _, _, rfl⟩, .inl rfl⟩
      unfold originLost
      exact ((ends _).trans (dropKeys_evented _ _)).trans (afterLoop_evented _ _ _)
    · exact .refl _
  · exact .inl rfl

theorem countTimeout_lasting (s : State) : Lasting s (countTimeout s) := by
  rcases countTimeout_evented s with same | ⟨n, h⟩
  · rw [same]
    exact .refl s
  · have counted : Calm s { s with loop := { s.loop with timeout := n } } := .of_fixed rfl
    exact h.lasting.on counted.lasting

theorem retryExpired_calm (s : State) : Calm s (retryExpired s) :=
  .ite ((pushSnapReq_calm s).trans (.of_fixed rfl)) (.refl s)

theorem healExpired_calm (n : NodeId) (p : PortId) (s : State) : Calm s (healExpired n p s) := by
  have healable (a : State) (e : LinkEntry) : Calm a (modifyLink n p (fun e => { e with heal := none, healable := true }) a) :=
    .of_fixed rfl
  unfold healExpired
  split
  · exact .refl s
  · next e _ =>
    refine .ite ?_ (.refl s)
    simp only
    split
    · exact (sendUnwrap_admits _ _).calm.on (healable s e)
    · exact healable s e
    · exact healable s e

theorem endMute_lasting (i : Nat) (s : State) : Lasting s (endMute i s) := by
  unfold endMute
  exact .ite ⟨⟨rfl, .refl _, .refl _, rfl, rfl, id⟩, rfl, rfl, rfl, rfl⟩ (.refl s)

theorem sendClaim_calm (k : KeyName) (s : State) : Calm s (sendClaim k s) := by
  unfold sendClaim
  exact .ite (takeTalkClaim_calm _ _ _) (.ite (push_calm _ _ _ _ _)
    ((modifyKey_calm _ _ _).on ((endKey_calm _ _ _ _).on (pushInternal_calm _ _ _))))

theorem pressKey_calm (k : KeyName) (s : State) : Calm s (pressKey k s) := by
  have lifted : Calm s (if (keyAt s k).latched then sendRelease k (endKey k .idle .lift s) else s) :=
    .ite ((sendRelease_admits _ _).calm.on (endKey_calm _ _ _ _)) (.refl s)
  unfold pressKey
  refine .ite (.refl s) ?_
  split
  · exact .ite ((sendClaim_calm _ _).on ((notify_calm _ _).on (modifyKey_calm _ _ _))) (endKey_calm _ _ _ _)
  · exact lifted
  · exact lifted
  · exact lifted
  · exact .refl s
  · exact .refl s

theorem liftKey_calm (k : KeyName) (s : State) : Calm s (liftKey k s) := by
  have active : Calm s (if (keyAt s k).latched then s else if latches (keyAt s k) then
        notifyKey k .latch (modifyKey k (fun r => { r with latched := true, press := none }) s)
      else sendRelease k (endKey k .idle .lift s)) :=
    .ite (.refl s) (.ite ((notify_calm _ _).on (modifyKey_calm _ _ _))
      ((sendRelease_admits _ _).calm.on (endKey_calm _ _ _ _)))
  unfold liftKey
  refine .ite (.refl s) ?_
  split
  · exact active
  · exact active
  · exact active
  · exact endKey_calm _ _ _ _
  · exact endKey_calm _ _ _ _
  · exact .refl s

theorem keySettled_calm (k : KeyName) (s : State) : Calm s (keySettled k s) := by
  unfold keySettled filterTo
  exact .ite (.ite ((pressKey_calm _ _).on (modifyKey_calm _ _ _)) ((liftKey_calm _ _).on (modifyKey_calm _ _ _)))
    (.refl s)

theorem answerExpired_calm (k : KeyName) (s : State) : Calm s (answerExpired k s) := by
  unfold answerExpired
  exact .ite (.ite ((sendRelease_admits _ _).calm.on (endKey_calm _ _ _ _)) (modifyKey_calm _ _ _)) (.refl s)

/-- The PANIC filter's timer ends where it has run out, and not before (R157). -/
theorem panicSettled_lasting (s : State) : Lasting s (panicSettled s) := by
  unfold panicSettled
  split
  next due =>
    refine ⟨⟨rfl, .refl _, fun n e ne => ?_, rfl, rfl, id⟩, rfl, rfl, rfl, rfl⟩
    simp only [isDue, beq_iff_eq] at due
    rw [due] at e
    exact absurd (Option.some.inj e).symm ne
  · exact .refl s

/-- The silence timer ends where it has run out, and not before (R168). -/
theorem silenceExpired_lasting (s : State) : Lasting s (silenceExpired s) := by
  unfold silenceExpired
  split
  next due =>
    refine ⟨⟨rfl, fun n e ne => ?_, .refl _, rfl, rfl, id⟩, rfl, rfl, rfl, rfl⟩
    simp only [isDue, beq_iff_eq] at due
    rw [due] at e
    exact absurd (Option.some.inj e).symm ne
  · exact .refl s

theorem mapOuts_calm (f : Nat → Tap → OutRec → OutRec) (s : State) : Calm s (mapOuts f s) := .of_fixed rfl

theorem opsDue_calm (s : State) : Calm s (opsDue s) := by
  have answer (tag : Byte) (a : State) : Calm a (answerTimeout tag a) := by
    unfold answerTimeout
    split
    · exact .refl a
    · exact .ite (endOp_calm _ _ _ _) (.refl a)
  have go (tag : Byte) (a : State) : Calm a (goTimeout tag a) := by
    unfold goTimeout
    split
    · exact .refl a
    · exact .ite (endOp_calm _ _ _ _) (.refl a)
  refine .foldl (fun a o => ?_) _ _
  cases o
  · exact .refl a
  · exact (go _ _).on (answer _ a)

theorem uartGap_calm (s : State) : Calm s (uartGap s) := by
  have damaged (a : State) : Calm a (answerDamaged a) := by
    unfold answerDamaged overflowReply
    exact .of_fixed rfl
  exact .ite ((damaged _).after rfl) (.refl s)

/-! ### The takeover (R63) -/

/-- No takeover may fall due: the node is no DEPUTY, or the timer has not run out and does not start at 0. -/
def NoTakeover (s : State) : Prop :=
  s.start.role ≠ .deputy ∨ (s.loop.takeover ≠ some 0 ∧ 0 < s.loop.takeoverMs)

theorem NoTakeover.kept {s t : State} (h : NoTakeover s) (start : t.start = s.start)
    (ms : t.loop.takeoverMs = s.loop.takeoverMs)
    (timer : t.loop.takeover = s.loop.takeover ∨ t.loop.takeover = none ∨
      t.loop.takeover = some (ticksOf s.loop.takeoverMs)) : NoTakeover t := by
  unfold NoTakeover at *
  rw [start, ms]
  refine h.imp_right fun ⟨due, pos⟩ => ⟨?_, pos⟩
  rcases timer with e | e | e <;> rw [e]
  · exact due
  · exact fun k => by cases k
  · have ticks : ticksOf s.loop.takeoverMs = s.loop.takeoverMs * 96 := rfl
    rw [ticks]
    exact fun k => by have := Option.some.inj k; omega

theorem Evented.noTakeover {s t : State} (e : Evented s t) (h : NoTakeover s) : NoTakeover t :=
  h.kept e.start e.lasting.takeoverMs e.takeover

theorem event_noTakeover {f : State → State} {s : State} (h : NoTakeover (f s)) : NoTakeover (event f s) := by
  have lasting := event_lasting (f := f) (s := s)
  obtain ⟨l, b, d, e⟩ := reportOutputs_eq s.safety.outs (settle (f s))
  refine h.kept lasting.start lasting.takeoverMs ?_
  have stop : (settle (f s)).loop.takeover = (f s).loop.takeover ∨ (settle (f s)).loop.takeover = none := by
    have mode (a : State) : (stopTakeover a).loop.takeover = a.loop.takeover ∨ (stopTakeover a).loop.takeover = none := by
      unfold stopTakeover
      split
      · exact .inl rfl
      · exact .inr rfl
    have copy : (if modeLosesCopy (f s) then loseCurrency (f s) else f s).loop = (f s).loop := by
      split <;> simp
    have checked := mode (if modeLosesCopy (f s) then loseCurrency (f s) else f s)
    rw [copy] at checked
    unfold settle modeCheck
    simpa only [parts_retryCheck, parts_rejudge] using checked
  unfold event
  rw [e]
  exact stop.imp_right .inl

/-- A node that does not lead to a takeover does not become ORIGIN. -/
theorem takeoverExpired_idle {s : State} (h : s.loop.role = .origin ∨ NoTakeover s) : takeoverExpired s = s := by
  unfold takeoverExpired
  refine if_neg fun k => ?_
  simp only [Bool.and_eq_true, isDue, beq_iff_eq, decide_eq_true_eq] at k
  obtain ⟨⟨due, deputy⟩, mode⟩ := k
  rcases h with origin | role | ⟨timer, -⟩
  · revert mode
    unfold loopMode
    simp only [origin, State.isOrigin]
    repeat' split
    all_goals simp_all
  · exact role deputy
  · exact timer due

theorem takeoverExpired_timed (s : State) : Timed s (takeoverExpired s) := by
  unfold takeoverExpired
  split
  · unfold becomeOrigin
    have taken := (goDone_calm .origin _).on ((afterLoop_calm .takeover s _).on
      (epochChange_calm ⟨s.start.id, .deputy, s.loop.epoch + 1⟩ .origin s))
    refine Timed.trans (t := { s with loop := epochLoop ⟨s.start.id, .deputy, s.loop.epoch + 1⟩ .origin s }) ?_
      taken.lasting.toTimed
    exact ⟨rfl, .refl _, .refl _, rfl, rfl, fun _ e k => by cases k⟩
  · exact (Lasting.refl s).toTimed

end Sys2Proof.Machine
end

section
/-! PROOFS. The end of a frame period and the origination that starts the next (R2, R8, R48, R96), for O55. -/

namespace Sys2Proof.Machine

open Sys2Proof

/-! ### The end of the period -/

/-- The events before the takeover timer's. -/
def dueBefore : List (State → State) :=
  [missingAt .a 0, missingAt .a 1, missingAt .b 0, missingAt .b 1,
    settleExpired .a, settleExpired .b, offerExpired .a, offerExpired .b,
    relockExpired .a, relockExpired .b, windowEnded .a, windowEnded .b, drillExpired .a, drillExpired .b, countTimeout]

/-- The events after the takeover timer's. -/
def dueAfter : List (State → State) :=
  [retryExpired, healsDue, mutesDue,
    fun s => (List.range 8).foldl (fun a i => keySettled (allKeys.getD i .k0) a) s,
    fun s => allKeys.foldl (fun a k => answerExpired k a) s,
    panicSettled, allFadesEnd, allHoldsEnd, silenceExpired, opsDue, uartGap]

theorem dueEvents_eq : dueEvents = dueBefore ++ takeoverExpired :: dueAfter := rfl

theorem runEvents_append (l k : List (State → State)) (s : State) :
    runEvents (l ++ k) s = runEvents k (runEvents l s) := List.foldl_append

theorem runEvents_cons (f : State → State) (l : List (State → State)) (s : State) :
    runEvents (f :: l) s = runEvents l (event f s) := rfl

theorem dueBefore_lasting : ∀ f ∈ dueBefore, ∀ s, Lasting s (f s) ∧ (NoTakeover s → NoTakeover (f s)) := by
  have port {f : State → State} (h : ∀ s, Evented s (f s)) (s : State) :
      Lasting s (f s) ∧ (NoTakeover s → NoTakeover (f s)) := ⟨(h s).lasting, (h s).noTakeover⟩
  intro f hf
  simp only [dueBefore, List.mem_cons, List.not_mem_nil, or_false] at hf
  rcases hf with h | h | h | h | h | h | h | h | h | h | h | h | h | h | h <;> subst h
  · exact port (missingAt_evented _ _)
  · exact port (missingAt_evented _ _)
  · exact port (missingAt_evented _ _)
  · exact port (missingAt_evented _ _)
  · exact port (settleExpired_evented _)
  · exact port (settleExpired_evented _)
  · exact port (offerExpired_evented _)
  · exact port (offerExpired_evented _)
  · exact port (relockExpired_evented _)
  · exact port (relockExpired_evented _)
  · exact port (windowEnded_evented _)
  · exact port (windowEnded_evented _)
  · exact port (drillExpired_evented _)
  · exact port (drillExpired_evented _)
  · refine fun s => ⟨countTimeout_lasting s, fun h => ?_⟩
    rcases countTimeout_evented s with same | ⟨n, e⟩
    · rw [same]
      exact h
    · exact e.noTakeover h

theorem dueAfter_lasting : ∀ f ∈ dueAfter, ∀ s, Lasting s (f s) := by
  intro f hf s
  simp only [dueAfter, List.mem_cons, List.not_mem_nil, or_false] at hf
  rcases hf with h | h | h | h | h | h | h | h | h | h | h <;> subst h
  · exact (retryExpired_calm s).lasting
  · exact (Calm.foldl (fun a (x : NodeId × PortId) => healExpired_calm x.1 x.2 a) _ s).lasting
  · exact .foldl (fun a i => endMute_lasting i a) _ s
  · exact (Calm.foldl (fun a i => keySettled_calm (allKeys.getD i .k0) a) _ s).lasting
  · exact (Calm.foldl (fun a k => answerExpired_calm k a) _ s).lasting
  · exact panicSettled_lasting s
  · exact (mapOuts_calm _ s).lasting
  · exact (mapOuts_calm _ s).lasting
  · exact silenceExpired_lasting s
  · exact (opsDue_calm s).lasting
  · exact (uartGap_calm s).lasting

theorem runEvents_lasting {l : List (State → State)} (h : ∀ f ∈ l, ∀ s, Lasting s (f s)) (s : State) :
    Lasting s (runEvents l s) := by
  induction l generalizing s with
  | nil => exact .refl s
  | cons f l ih =>
    exact ((h f (by simp) s).trans event_lasting).trans (ih (fun g hg => h g (by simp [hg])) _)

theorem runBefore_noTakeover {l : List (State → State)} (h : ∀ f ∈ l, ∀ s, NoTakeover s → NoTakeover (f s)) {s : State}
    (k : NoTakeover s) : NoTakeover (runEvents l s) := by
  induction l generalizing s with
  | nil => exact k
  | cons f l ih =>
    exact ih (fun g hg => h g (by simp [hg])) (event_noTakeover (h f (by simp) s k))

theorem sendRecord_lasting (s : State) : Lasting s (sendRecord s) := by
  unfold sendRecord
  refine .ite ?_ (.refl s)
  split
  · exact .refl s
  · exact ⟨⟨rfl, .refl _, .refl _, rfl, rfl, id⟩, rfl, rfl, rfl, rfl⟩

theorem countAlone_calm (s : State) : Calm s (countAlone s) :=
  .ite (.refl s) ((snapshotStart_calm _).on ((applyDue_calm _).on (setCount_calm _ s)))

/-- What follows the events at the end of the period. -/
theorem closing_lasting (s : State) : Lasting s (sendRecord (laneFrame (event countAlone s))) := by
  have shown (a : State) : Lasting a (laneFrame a) := ⟨⟨rfl, .refl _, .refl _, rfl, rfl, id⟩, rfl, rfl, rfl, rfl⟩
  exact (sendRecord_lasting _).on ((shown _).on ((countAlone_calm s).lasting.trans event_lasting))

theorem closePeriod_timed (s : State) : Timed s (closePeriod s) := by
  unfold closePeriod
  rw [dueEvents_eq, runEvents_append, runEvents_cons]
  have before := runEvents_lasting (fun f hf a => (dueBefore_lasting f hf a).1) s
  have takeover := (takeoverExpired_timed (runEvents dueBefore s)).trans event_lasting.toTimed
  have after := runEvents_lasting dueAfter_lasting (event takeoverExpired (runEvents dueBefore s))
  exact ((before.toTimed.trans takeover).trans after.toTimed).trans (closing_lasting _).toTimed

theorem closePeriod_lasting {s : State} (h : s.loop.role = .origin ∨ NoTakeover s) : Lasting s (closePeriod s) := by
  unfold closePeriod
  rw [dueEvents_eq, runEvents_append, runEvents_cons]
  have before := runEvents_lasting (fun f hf a => (dueBefore_lasting f hf a).1) s
  have idle : takeoverExpired (runEvents dueBefore s) = runEvents dueBefore s :=
    takeoverExpired_idle (h.imp before.role.trans
      (runBefore_noTakeover fun f hf a => (dueBefore_lasting f hf a).2))
  have takeover : Lasting (runEvents dueBefore s) (event takeoverExpired (runEvents dueBefore s)) := by
    have kept := event_lasting (f := takeoverExpired) (s := runEvents dueBefore s)
    rwa [idle] at kept
  have after := runEvents_lasting dueAfter_lasting (event takeoverExpired (runEvents dueBefore s))
  exact ((before.trans takeover).trans after).trans (closing_lasting _)

theorem count_event (f : State → State) (s : State) : (event f s).loop.count = (f s).loop.count := by
  unfold event
  obtain ⟨l, b, d, e⟩ := reportOutputs_eq s.safety.outs (settle (f s))
  rw [e]
  exact count_settle (f s)

theorem Evented.count {s t : State} (h : Evented s t) : t.loop.count = s.loop.count := by
  obtain ⟨-, -, -, -, -, -, ⟨_, _, _, _, _, _, _, _, _, loop⟩, -⟩ := h
  rw [loop]

theorem count_dueBefore : ∀ f ∈ dueBefore, ∀ s, (f s).loop.count = s.loop.count := by
  intro f hf s
  simp only [dueBefore, List.mem_cons, List.not_mem_nil, or_false] at hf
  rcases hf with h | h | h | h | h | h | h | h | h | h | h | h | h | h | h <;> subst h
  · exact (missingAt_evented _ _ s).count
  · exact (missingAt_evented _ _ s).count
  · exact (missingAt_evented _ _ s).count
  · exact (missingAt_evented _ _ s).count
  · exact (settleExpired_evented _ s).count
  · exact (settleExpired_evented _ s).count
  · exact (offerExpired_evented _ s).count
  · exact (offerExpired_evented _ s).count
  · exact (relockExpired_evented _ s).count
  · exact (relockExpired_evented _ s).count
  · exact (windowEnded_evented _ s).count
  · exact (windowEnded_evented _ s).count
  · exact (drillExpired_evented _ s).count
  · exact (drillExpired_evented _ s).count
  · rcases countTimeout_evented s with same | ⟨n, h⟩
    · rw [same]
    · exact h.count

theorem count_opsDue (s : State) : (opsDue s).loop.count = s.loop.count := by
  refine count_foldl (fun a o => ?_) _ s
  cases o
  · rfl
  · simp only [goTimeout, answerTimeout]
    repeat' split
    all_goals simp

theorem count_dueAfter : ∀ f ∈ dueAfter, ∀ s, (f s).loop.count = s.loop.count := by
  intro f hf s
  simp only [dueAfter, List.mem_cons, List.not_mem_nil, or_false] at hf
  rcases hf with h | h | h | h | h | h | h | h | h | h | h <;> subst h
  · unfold retryExpired
    split <;> simp
  · unfold healsDue
    exact count_foldl (fun a _ => by exact count_healExpired _ _ a) _ s
  · unfold mutesDue
    exact count_foldl (fun a i => count_endMute i a) _ s
  · beta_reduce
    exact count_foldl (fun a _ => by exact count_keySettled _ a) _ s
  · beta_reduce
    exact count_foldl (fun a _ => by exact count_answerExpired _ a) _ s
  · unfold panicSettled
    split <;> simp
  · exact count_mapOuts _ s
  · exact count_mapOuts _ s
  · exact count_silenceExpired s
  · exact count_opsDue s
  · unfold uartGap
    split <;> rfl

theorem count_runEvents {l : List (State → State)} (h : ∀ f ∈ l, ∀ s, (f s).loop.count = s.loop.count) (s : State) :
    (runEvents l s).loop.count = s.loop.count := by
  induction l generalizing s with
  | nil => rfl
  | cons f l ih =>
    exact ((ih (fun g hg => h g (by simp [hg])) _).trans (count_event f s)).trans (h f (by simp) s)

/-- The free-running count: a period without a first visit counts alone (R2). -/
theorem count_closePeriod (s : State) :
    (closePeriod s).loop.count = if s.loop.visited then s.loop.count else s.loop.count + 1 := by
  have run (a : State) : (runEvents dueEvents a).loop.count = a.loop.count ∧
      (runEvents dueEvents a).loop.visited = a.loop.visited := by
    rw [dueEvents_eq, runEvents_append, runEvents_cons]
    have before := (runEvents_lasting (fun f hf b => (dueBefore_lasting f hf b).1) a).visited
    have takeover := ((takeoverExpired_timed (runEvents dueBefore a)).trans event_lasting.toTimed).visited
    have after := (runEvents_lasting dueAfter_lasting (event takeoverExpired (runEvents dueBefore a))).visited
    exact ⟨by rw [count_runEvents count_dueAfter, count_event, count_takeoverExpired, count_runEvents count_dueBefore],
      (after.trans takeover).trans before⟩
  obtain ⟨count, visited⟩ := run s
  have alone (a : State) : (countAlone a).loop.count = if a.loop.visited then a.loop.count else a.loop.count + 1 := by
    unfold countAlone
    split
    · rfl
    · simp [setCount]
  unfold closePeriod
  rw [count_sendRecord, count_laneFrame, count_event, alone, count, visited]

end Sys2Proof.Machine
end

section
/-! PROOFS. What one frame period does to the timers, the frame an origin builds and the taps' samples (R7, R8, R101,
R103, R104), for O55. -/

namespace Sys2Proof.Machine

open Sys2Proof

/-! ### The timers -/

theorem port_tickAll (d : Nat) (s : State) (p : PortId) : (tickAll d s).port p = tickPort d (s.port p) := by
  cases p <;> rfl

theorem linkAt_tickAll (d : Nat) (s : State) (n : NodeId) (p : PortId) :
    linkAt (tickAll d s) n p = (linkAt s n p).map (tickLink d) := by
  simp only [linkAt, tickAll, List.getD_eq_getElem?_getD, List.getElem?_map]
  cases s.loop.links[linkIndex n p]? <;> rfl

theorem findOp_tickAll (d : Nat) (s : State) (tag : Byte) : findOp tag (tickAll d s) = (findOp tag s).map (tickOp d) := by
  simp only [findOp, tickAll]
  induction s.ctl.ops with
  | nil => rfl
  | cons o l ih =>
    cases o with
    | none => exact ih
    | some o =>
      by_cases k : o.tag = tag
      · simp [k, tickOp]
      · simp only [List.map_cons, List.findSome?_cons, Option.map_some, tickOp, k, if_false]
        exact ih

/-! ### The frame an origin builds (R7, R8) -/

theorem nextCells_empty {s : State} (h : s.loop.orig.returned = none ∨ s.loop.orig.inTime = false) :
    nextCells s = List.replicate 8 none := by
  unfold nextCells
  split
  next f e =>
    rcases h with none' | late
    · rw [e] at none'
      cases none'
    · rw [late, if_neg Bool.false_ne_true]
  · rfl

/-- The cell of a node that did not visit the returned frame is emptied. -/
theorem nextCells_returned {s : State} {r : Frame} {i : NodeId} {c : Option Message}
    (returned : s.loop.orig.returned = some r) (inTime : s.loop.orig.inTime = true) (h : r.cells[i.val]? = some c) :
    (nextCells s)[i.val]? = some (if i ∈ r.header.visited then c else none) := by
  have any : (r.header.visited.any fun n => decide (n.val = i.val)) = decide (i ∈ r.header.visited) := by
    rw [Bool.eq_iff_iff]
    simp [← Fin.ext_iff]
  unfold nextCells
  rw [returned]
  simp only [inTime, if_true, List.getElem?_map, List.getElem?_zipIdx, h, Option.map_some, Nat.zero_add, any,
    decide_eq_true_eq]

theorem zeroSlots_at {s : State} {l : List Sample} {i : Nat} {x : Sample} (h : l[i]? = some x) :
    (zeroSlots s l)[i]? = some (if (entryAt s i).state = .free ∨
      ((entryAt s i).state = .talk ∧ (entryAt s i).writer = none) then 0 else x) := by
  simp only [zeroSlots, List.getElem?_map, List.getElem?_zipIdx, h, Option.map_some, Nat.zero_add]
  cases state : (entryAt s i).state with
  | free => simp
  | assigned => simp
  | talk => cases writer : (entryAt s i).writer <;> simp

/-! ### The taps' samples (R101, R103, R104) -/

theorem visitSamples_slot {l : List Sample} {i n : Nat} {x : Tap} {s : State} (h : s.lanes.taps[i]? = some x)
    (source : x.source = .slot n) (mode : loopMode s ≠ .isolated) (valid : x.valid = true) :
    (visitSamples l s).lanes.taps[i]? = some { x with held := l.getD n 0 } := by
  simp [visitSamples, List.getElem?_map, h, source, mode, valid]

theorem visitSamples_other {l : List Sample} {i : Nat} {x : Tap} {s : State} (h : s.lanes.taps[i]? = some x)
    (other : (∀ n, x.source ≠ .slot n) ∨ loopMode s = .isolated ∨ x.valid = false) :
    (visitSamples l s).lanes.taps[i]? = some x := by
  simp only [visitSamples, List.getElem?_map, h, Option.map_some]
  split
  next n source =>
    rcases other with no | mode | valid
    · exact absurd source (no n)
    · simp [mode]
    · simp [valid]
  all_goals rfl

theorem visitSamples_talk (l : List Sample) (b : Bus) (s : State) :
    (visitSamples l s).lanes.heldTalk[busIndex b]? =
      some (if heard s b then l.getD (talkSlot s.start.rate b) 0 else 0) := by
  cases b <;> rfl

theorem periodSamples_loc {i n : Nat} {x : Tap} {s : State} (h : s.lanes.taps[i]? = some x) (source : x.source = .loc n) :
    (periodSamples s).lanes.taps[i]? = some { x with held := delivered s n } := by
  simp [periodSamples, List.getElem?_map, h, source]

theorem periodSamples_isolated {i n k : Nat} {x : Tap} {s : State} (h : s.lanes.taps[i]? = some x)
    (source : x.source = .slot n) (mode : loopMode s = .isolated) (valid : x.valid = true)
    (input : (entryAt s n).input = some k) :
    (periodSamples s).lanes.taps[i]? = some { x with held := delivered s k } := by
  simp [periodSamples, List.getElem?_map, h, source, mode, valid, input]

theorem periodSamples_other {i : Nat} {x : Tap} {s : State} (h : s.lanes.taps[i]? = some x)
    (noInput : ∀ n, x.source ≠ .loc n) (other : loopMode s ≠ .isolated ∨ x.valid = false ∨ ∀ n, x.source ≠ .slot n) :
    (periodSamples s).lanes.taps[i]? = some x := by
  simp only [periodSamples, List.getElem?_map, h, Option.map_some]
  split
  next n source => exact absurd source (noInput n)
  next n source =>
    rcases other with mode | valid | no
    · simp [mode]
    · simp [valid]
    · exact absurd source (no n)
  all_goals rfl

end Sys2Proof.Machine
end

section
/-! PROOFS. The start of a frame period: its marks and samples, the origination, and what both ports send (R2, R8, R21,
R25, R48), for O55. -/

namespace Sys2Proof.Machine

open Sys2Proof

/-! ### The state in which the period's origination finds the node -/

/-- The new period before its origination. -/
def periodOpened (inp : PeriodInput) (s : State) : State :=
  fadesMove (periodSamples (takeLanes inp.lanes
    (clearMarks (tickAll (frameTicks s.start.rate) (takePins inp s)))))

theorem openPeriod_eq (inp : PeriodInput) (s : State) :
    openPeriod inp s = event (originateOnce inp.now) (periodOpened inp s) := rfl

/-- What the origination finds. -/
structure Opened (inp : PeriodInput) (s t : State) : Prop where
  start : t.start = { s.start with holdn := inp.holdn }
  lock : t.lock = s.lock
  timer : t.supervision.timer = tick (frameTicks s.start.rate) s.supervision.timer
  panicT : t.safety.panicT = tick (frameTicks s.start.rate) s.safety.panicT
  ports : ∀ p, t.port p = nextPosition s.start.rate
    { tickPort (frameTicks s.start.rate) (s.port p) with time := inp.now }
  count : t.loop.count = s.loop.count
  role : t.loop.role = s.loop.role
  group : t.loop.group = s.loop.group
  conflict : t.loop.conflict = s.loop.conflict
  restart : t.loop.restart = s.loop.restart
  originated : t.loop.originated = s.loop.originated
  present : t.lanes.present = (List.range 64).map fun i => inp.lanes.getD i 0
  out : t.lanes.out = s.lanes.out
  laneUsed : t.gain.laneUsed = false

theorem supervision_timer_spanTick (d : Nat) (r : SuperRec) : (spanTick d r).timer = r.timer := by
  unfold spanTick
  repeat' split
  all_goals rfl

theorem periodOpened_opened (inp : PeriodInput) (s : State) : Opened inp s (periodOpened inp s) where
  start := rfl
  lock := rfl
  timer := supervision_timer_spanTick _ _
  panicT := rfl
  ports := fun p => by cases p <;> rfl
  count := rfl
  role := rfl
  group := rfl
  conflict := rfl
  restart := rfl
  originated := rfl
  present := rfl
  out := rfl
  laneUsed := rfl

/-! ### The origination -/

/-- A settled state, and its report, keep all that a visit keeps. -/
theorem event_calm (f : State → State) (s : State) : Calm (f s) (event f s) := by
  have stop (a : State) : Calm a (stopTakeover a) := .ite (.refl a) (.of_fixed rfl)
  have lost (a : State) : Calm a (if modeLosesCopy a then loseCurrency a else a) :=
    .ite (loseCurrency_calm a) (.refl a)
  have settled (a : State) : Calm a (settle a) :=
    (retryCheck_calm _).on ((rejudge_calm _).on ((stop _).on (lost a)))
  obtain ⟨l, b, d, e⟩ := reportOutputs_eq s.safety.outs (settle (f s))
  unfold event
  rw [e]
  exact (settled (f s)).trans (.of_fixed rfl)

/-- Every origination keeps the start record, the PANIC timer, the lanes and the ports but for drill and route. -/
structure Lined (s t : State) : Prop where
  start : t.start = s.start
  panicT : t.safety.panicT = s.safety.panicT
  ports : ∀ p, ∃ d f, t.port p = { s.port p with drill := d, routed := f }
  originated : t.loop.originated = s.loop.originated
  present : t.lanes.present = s.lanes.present
  out : t.lanes.out = s.lanes.out
  laneUsed : t.gain.laneUsed = s.gain.laneUsed

theorem Calm.lined {s t : State} (h : Calm s t) : Lined s t :=
  ⟨h.start, h.panicT, h.ports, h.originated, h.present, h.out, h.laneUsed⟩

theorem Lined.trans {s t u : State} (h : Lined s t) (k : Lined t u) : Lined s u :=
  ⟨k.start.trans h.start, k.panicT.trans h.panicT, fun p => by
    obtain ⟨_, _, e⟩ := h.ports p
    obtain ⟨d, f, e'⟩ := k.ports p
    exact ⟨d, f, by rw [e', e]⟩, k.originated.trans h.originated, k.present.trans h.present, k.out.trans h.out,
    k.laneUsed.trans h.laneUsed⟩

/-- The epoch of a RESTART is taken, or nothing happens (R73). -/
theorem originateIn_lined {s : State} (origin : s.loop.role = .origin) :
    Lined s (originateIn s) ∧ (originateIn s).loop.role = .origin := by
  have counted := setCount_calm (s.loop.count + 1) s
  have role := counted.role.trans origin
  unfold originateIn takeEpoch
  generalize setCount (s.loop.count + 1) s = a at *
  split
  next e g _ _ =>
    have after := (afterLoop_calm .restart a _).on
      (epochChange_calm { g with epoch := e } .origin (supervisionLoopReset a))
    have base (b : State) (p : OriginGroup) : Lined b { b with loop := epochLoop p .origin b } :=
      ⟨rfl, rfl, fun q => ⟨(b.port q).drill, (b.port q).routed, by cases q <;> rfl⟩, rfl, rfl, rfl, rfl⟩
    have reset (b : State) : Lined b (supervisionLoopReset b) :=
      ⟨rfl, rfl, fun q => ⟨(b.port q).drill, (b.port q).routed, by cases q <;> rfl⟩, rfl, rfl, rfl, rfl⟩
    exact ⟨((counted.lined.trans (reset a)).trans (base _ _)).trans after.lined, after.role⟩
  all_goals exact ⟨counted.lined, role⟩

/-- Without a group nothing is sent. -/
theorem originate_alone {now : Nanos} {s : State} (group : (originateIn s).loop.group = none) :
    originate now s = originateIn s := by
  unfold originate
  simp only
  change (match (originateIn s).loop.group with
    | none => originateIn s
    | some g => sendOriginated (ownHop (originateVisit g s).1 (originateVisit g s).2) now
        (originateVisit g s).1) = _
  rw [group]

theorem originate_lined (now : Nanos) {s : State} (origin : s.loop.role = .origin) : Lined s (originate now s) := by
  obtain ⟨begun, role⟩ := originateIn_lined origin
  cases group : (originateIn s).loop.group with
  | none =>
    rw [originate_alone group]
    exact begun
  | some g =>
    have marked (r : Restart) (a : State) : Lined a (markVisit r a) :=
      ⟨rfl, rfl, fun q => ⟨(a.port q).drill, (a.port q).routed, by cases q <;> rfl⟩, rfl, rfl, rfl, rfl⟩
    exact (begun.trans (marked _ _)).trans (originate_calm now group role).lined

theorem role_of_originates {s : State} (h : originates s = true) : s.loop.role = .origin := by
  simp only [originates, Bool.and_eq_true, State.isOrigin, beq_iff_eq] at h
  exact h.1.1

/-- The period's one origination, or the end of its mark (R8; log entry 6). -/
theorem originateOnce_lined (now : Nanos) (s : State) :
    Lined { s with loop := { s.loop with originated := false } } (originateOnce now s) := by
  have plain (a : State) (b : Bool) (h : a.loop.originated = b) :
      { a with loop := { a.loop with originated := b } } = a := by rw [← h]
  unfold originateOnce
  split
  · exact (Calm.refl _).lined
  next early =>
    rw [plain s false (by simpa using early)]
    split
    next h => exact originate_lined now (role_of_originates h)
    · exact (Calm.refl _).lined

end Sys2Proof.Machine
end

section
/-! PROOFS. The frame an acting origin sends (R7, R9, R48), and what the ports transmit (R6, R21), for O55. -/

namespace Sys2Proof.Machine

open Sys2Proof

/-! ### The originated frame on its way -/

/-- The direction of an origin's own entry by the port the frame leaves on (R9). -/
def dirOf : PortId → Direction
  | .b => .forward
  | .a => .ret

theorem originDir_eq (s : State) : originDir s = dirOf (originPort s) := by
  unfold originDir
  cases originPort s <;> rfl

theorem slots_ownHop (s : State) (f : Frame) : (ownHop s f).slots = f.slots := rfl

/-- The own entry of the origin names the port its frame leaves on. -/
theorem header_ownHop (s : State) (f : Frame) :
    (ownHop s f).header = { f.header with hops := [⟨s.start.id, originDir s⟩] } := rfl

theorem originPort_route (p : PortId) (f : Frame) (s : State) : originPort (route p f s) = originPort s := by
  unfold route
  split
  · simp [originPort]
  · rfl

/-- With its origination port usable the frame waits there. -/
theorem sendOriginated_routed {f : Frame} {now : Nanos} {s : State}
    (usable : (sendOriginated f now s).usable (originPort (sendOriginated f now s)) = true) :
    originPort (sendOriginated f now s) = originPort s ∧
      ((sendOriginated f now s).port (originPort s)).routed = some f := by
  have ports (o : OrigRec) : originPort { s with loop := { s.loop with orig := o } } = originPort s := rfl
  unfold sendOriginated at usable ⊢
  simp only at usable ⊢
  rw [← ports { s.loop.orig with last := some f.header.count, inTime := false, sentAt := now }]
  generalize { s with loop := { s.loop with orig := { s.loop.orig with
    last := some f.header.count, inTime := false, sentAt := now } } } = a at usable ⊢
  by_cases up : (a.usable .a || a.usable .b) = true
  · rw [if_pos up] at usable ⊢
    rw [originPort_route, (route_calm _ f a).usable] at usable
    refine ⟨originPort_route _ f a, ?_⟩
    unfold route
    rw [if_pos usable, port_setPort]
  · rw [if_neg up] at usable
    rw [(circuitEnd_calm f now a).usable] at usable
    refine absurd ?_ up
    cases h : originPort (circuitEnd f now a) <;> rw [h] at usable <;> simp [usable]

theorem originateIn_lock {s : State} : (originateIn s).lock.level = s.lock.level := by
  unfold originateIn
  exact ((takeEpoch_keeps _).on (setCount_steady _ s).toKeeps).lock

/-- An ORIGIN whose RESTART is not written originates under its group, with the next count (R2, R8). -/
theorem originate_sends (now : Nanos) {s : State} {g : OriginGroup} (origin : s.loop.role = .origin)
    (group : s.loop.group = some g) (unwritten : ∀ e, s.loop.restart ≠ .written e) :
    (originate now s).loop.role = .origin ∧ (originate now s).loop.group = some g ∧
    ((originate now s).usable (originPort (originate now s)) = true →
      ∃ f, ((originate now s).port (originPort (originate now s))).routed = some f ∧ f.slots.isSome = true ∧
        f.header = ⟨s.loop.count + 1, g, s.start.loopName, s.start.rate, s.lock.level, [s.start.id],
          [⟨s.start.id, dirOf (originPort (originate now s))⟩]⟩) := by
  have begun : Calm s (originateIn s) := by
    rw [originateIn_unwritten unwritten]
    exact setCount_calm _ s
  have count : (originateIn s).loop.count = s.loop.count + 1 := by
    rw [originateIn_unwritten unwritten, count_setCount]
  have role := begun.role.trans origin
  have joined := begun.group.trans group
  have sent := originate_calm now joined role
  refine ⟨sent.role.trans role, sent.group.trans joined, fun usable => ?_⟩
  obtain ⟨header, -, slots, -⟩ := firstVisit_frame (buildFrame g (originateIn s)) .forward (originateIn s)
  have id := (firstVisit_calm (buildFrame g (originateIn s)) .forward role).start
  rw [originate_eq joined] at usable ⊢
  unfold originateVisit at usable ⊢
  generalize firstVisit (buildFrame g (originateIn s)) .forward (originateIn s) = v at *
  have same : v.1.start = s.start := id.trans begun.start
  obtain ⟨wrap, routed⟩ := sendOriginated_routed usable
  rw [wrap]
  refine ⟨_, routed, ?_, ?_⟩
  · rw [slots_ownHop, slots]
    rfl
  · rw [header_ownHop, header, originDir_eq, same]
    simp only [buildFrame, count, begun.start, originateIn_lock, List.nil_append]

/-! ### What the ports send -/

/-- What a port's record is after it transmitted at `now`. -/
structure PortSent (now : Nanos) (s : State) (p : PortId) (r : PortRec) : Prop where
  position : r.position = (s.port p).position
  lineRate : r.lineRate = (s.port p).lineRate
  arrived : r.arrived = (s.port p).arrived
  time : r.time = (s.port p).time
  usable : portUsable r = s.usable p
  txOn : r.txOn = (s.port p).txOn
  routed : r.routed = none
  silent : r.txOn = false → r.txLine = none
  sends : r.txOn = true → ∃ f l, r.txLine = some (f, frameCheck f) ∧ f.link = some l ∧ l.sender = s.start.id ∧
    l.port = p ∧ l.offer.sendStamp = now ∧
    ∀ g, (s.port p).routed = some g → f.header = g.header ∧ f.slots = g.slots

theorem transmit_sent (now : Nanos) (s : State) (p : PortId) : PortSent now s p ((transmit now s p).port p) := by
  cases on : (s.port p).txOn with
  | false =>
    rw [transmit_off on, port_setPort]
    exact ⟨rfl, rfl, rfl, rfl, rfl, rfl, rfl, fun _ => rfl, fun h => absurd h (by simp [on])⟩
  | true =>
    rw [transmit_on on, port_setPort]
    refine ⟨rfl, rfl, rfl, rfl, rfl, rfl, rfl, fun h => absurd h (by simp [on]), fun _ => ?_⟩
    refine ⟨_, _, rfl, rfl, rfl, rfl, rfl, fun g hg => ?_⟩
    rw [hg]
    exact ⟨rfl, rfl⟩

theorem transmit_other (now : Nanos) (s : State) (p : PortId) : (transmit now s p).port (portOther p) = s.port (portOther p) := by
  cases on : (s.port p).txOn with
  | false => rw [transmit_off on]; cases p <;> rfl
  | true => rw [transmit_on on]; cases p <;> rfl

/-- Both ports transmit, each by its own record (R21). -/
def sendBoth (now : Nanos) (s : State) : State := transmit now (transmit now s .a) .b

theorem sendBoth_sent (now : Nanos) (s : State) (p : PortId) : PortSent now s p ((sendBoth now s).port p) := by
  have start : (transmit now s .a).start = s.start := (transmit_steady now s .a).start
  unfold sendBoth
  cases p with
  | a =>
    have kept : (transmit now (transmit now s .a) .b).port .a = (transmit now s .a).port .a :=
      transmit_other now (transmit now s .a) .b
    rw [kept]
    exact transmit_sent now s .a
  | b =>
    have kept : (transmit now s .a).port .b = s.port .b := transmit_other now s .a
    obtain ⟨position, lineRate, arrived, time, usable, txOn, routed, silent, sends⟩ := transmit_sent now (transmit now s .a) .b
    unfold State.usable at usable
    rw [kept] at position lineRate arrived time usable txOn
    rw [kept, start] at sends
    exact ⟨position, lineRate, arrived, time, usable, txOn, routed, silent, sends⟩

end Sys2Proof.Machine
end

section
/-! PROOFS. O55: a frame period passes (R2, R8, R21, R25, R48, R95, R96). -/

namespace Sys2Proof.Machine

open Sys2Proof

/-! ### What the event keeps of ports and wraps -/

theorem event_ports (f : State → State) (s : State) (p : PortId) : (event f s).port p = (f s).port p := by
  obtain ⟨l, b, d, e⟩ := reportOutputs_eq s.safety.outs (settle (f s))
  unfold event
  rw [e]
  refine port_of_parts ?_ ?_ p <;> simp

theorem event_originPort (f : State → State) (s : State) : originPort (event f s) = originPort (f s) := by
  obtain ⟨l, b, d, e⟩ := reportOutputs_eq s.safety.outs (settle (f s))
  obtain ⟨x, loop⟩ := loop_settle_takeover (f s)
  unfold event originPort
  rw [e]
  simp only [loop]

/-! ### What the transmission keeps -/

theorem transmit_loop (now : Nanos) (s : State) (p : PortId) : (transmit now s p).loop = s.loop ∧
    (transmit now s p).lanes = s.lanes ∧ (transmit now s p).gain = s.gain ∧ (transmit now s p).safety = s.safety ∧
    (transmit now s p).supervision = s.supervision := by
  cases on : (s.port p).txOn with
  | false => rw [transmit_off on]; simp
  | true => rw [transmit_on on]; simp

theorem sendBoth_loop (now : Nanos) (s : State) : (sendBoth now s).loop = s.loop ∧
    (sendBoth now s).lanes = s.lanes ∧ (sendBoth now s).gain = s.gain ∧ (sendBoth now s).safety = s.safety ∧
    (sendBoth now s).supervision = s.supervision ∧ (sendBoth now s).start = s.start ∧
    (sendBoth now s).lock.level = s.lock.level := by
  obtain ⟨loop, lanes, gain, safety, supervision⟩ := transmit_loop now s .a
  obtain ⟨loop', lanes', gain', safety', supervision'⟩ := transmit_loop now (transmit now s .a) .b
  have steady := (transmit_steady now s .a).trans (transmit_steady now (transmit now s .a) .b)
  exact ⟨loop'.trans loop, lanes'.trans lanes, gain'.trans gain, safety'.trans safety, supervision'.trans supervision,
    steady.start, steady.lock⟩

/-! ### The count, the silence timer and the lanes' outputs -/

theorem count_originateOnce (now : Nanos) (s : State) : (originateOnce now s).loop.count =
    if s.loop.originated = false ∧ originates s = true then s.loop.count + 1 else s.loop.count := by
  unfold originateOnce
  cases s.loop.originated <;> cases originates s <;> simp

/-- Without a written RESTART an origination leaves the supervision (R73, R168). -/
theorem originateOnce_supervision (now : Nanos) {s : State} (unwritten : ∀ e, s.loop.restart ≠ .written e) :
    (originateOnce now s).supervision = s.supervision := by
  have begun : Calm s (originateIn s) := by
    rw [originateIn_unwritten unwritten]
    exact setCount_calm _ s
  unfold originateOnce
  split
  · rfl
  split
  next h =>
    have role := begun.role.trans (role_of_originates h)
    cases group : (originateIn s).loop.group with
    | none => rw [originate_alone group, begun.supervision]
    | some g => exact (originate_calm now group role).supervision.trans begun.supervision
  · rfl

/-- The lane frame shows what it shows after the preamp's lane was served. -/
theorem laneFrame_closePeriod (s : State) : (closePeriod s).lanes.out = (laneFrame (closePeriod s)).lanes.out := by
  unfold closePeriod
  generalize event countAlone (runEvents dueEvents s) = a
  unfold sendRecord
  repeat' split
  all_goals rfl

/-! ### The period -/

theorem execFramePeriod_eq {inp : PeriodInput} {s : State} (running : s.inReset = false) :
    exec (.framePeriod inp) s = .next { pickUart (sendBoth inp.now (openPeriod inp (closePeriod s))) with
      pending := s.pending } := by
  change finish s (if s.inReset then { s with start := { s.start with holdn := inp.holdn } } else framePeriod inp s) = _
  rw [if_neg (by simp [running]), finish_eq]
  rfl

theorem openPeriod_lined (inp : PeriodInput) (s : State) :
    Lined { periodOpened inp s with loop := { (periodOpened inp s).loop with originated := false } }
      (openPeriod inp s) :=
  (originateOnce_lined inp.now _).trans (event_calm _ _).lined

theorem openPeriod_lock (inp : PeriodInput) (s : State) : (openPeriod inp s).lock.level = s.lock.level :=
  ((event_keeps (originateOnce_keeps inp.now (periodOpened inp s))).lock).trans
    (congrArg LockRec.level (periodOpened_opened inp s).lock)

theorem count_openPeriod (inp : PeriodInput) (s : State) : (openPeriod inp s).loop.count =
    if s.loop.originated = false ∧ originates (periodOpened inp s) = true then s.loop.count + 1 else s.loop.count := by
  rw [openPeriod_eq, count_event, count_originateOnce, (periodOpened_opened inp s).originated,
    (periodOpened_opened inp s).count]

/-- A port's line and times after the period's start (R21, R25, R34). -/
theorem openPeriod_port (inp : PeriodInput) (s : State) (p : PortId) : ∃ d f,
    (openPeriod inp s).port p = { nextPosition s.start.rate
      { tickPort (frameTicks s.start.rate) (s.port p) with time := inp.now } with drill := d, routed := f } := by
  obtain ⟨d, f, e⟩ := (openPeriod_lined inp s).ports p
  refine ⟨d, f, e.trans ?_⟩
  rw [← (periodOpened_opened inp s).ports p]
  cases p <;> rfl

theorem originates_periodOpened (inp : PeriodInput) (s : State) : originates (periodOpened inp s) = originates s := rfl

theorem originates_iff (s : State) :
    originates s = true ↔ s.loop.role = .origin ∧ s.start.held = false ∧ s.loop.conflict = none := by
  simp [originates, State.isOrigin, and_assoc]

/-- A frame position begins anew (R25). -/
theorem position_nextPosition (rate : Rate) (r : PortRec) :
    (nextPosition rate r).position < frameTicks r.lineRate := Nat.mod_lt _ (by cases r.lineRate <;> decide)

/-- No frame position lasts beyond a frame period that is as long. -/
theorem arrived_nextPosition {rate : Rate} {r : PortRec} (h : frameTicks r.lineRate ≤ frameTicks rate) :
    (nextPosition rate r).arrived = 0 := by
  have pos : 0 < frameTicks r.lineRate := by cases r.lineRate <;> decide
  have past : positionsPast rate r ≠ 0 :=
    Nat.ne_of_gt (Nat.div_pos (Nat.le_trans h (Nat.le_add_left _ _)) pos)
  exact if_neg past

/-- The sent frame of an acting origin in this period (R2, R8, R48). -/
theorem openPeriod_sends {inp : PeriodInput} {s : State} {g : OriginGroup} (acts : originates s = true)
    (early : s.loop.originated = false) (group : s.loop.group = some g) (unwritten : ∀ e, s.loop.restart ≠ .written e) :
    (openPeriod inp s).loop.role = .origin ∧ (openPeriod inp s).loop.group = some g ∧
    ((openPeriod inp s).usable (originPort (openPeriod inp s)) = true →
      ∃ f, ((openPeriod inp s).port (originPort (openPeriod inp s))).routed = some f ∧ f.slots.isSome = true ∧
        f.header = ⟨s.loop.count + 1, g, s.start.loopName, s.start.rate, s.lock.level, [s.start.id],
          [⟨s.start.id, dirOf (originPort (openPeriod inp s))⟩]⟩) := by
  have once : originateOnce inp.now (periodOpened inp s) = originate inp.now (periodOpened inp s) := by
    unfold originateOnce
    rw [if_neg (by rw [(periodOpened_opened inp s).originated, early]; simp),
      if_pos ((originates_periodOpened inp s).trans acts)]
  obtain ⟨role, joined, sends⟩ := originate_sends inp.now (s := periodOpened inp s) (role_of_originates acts) group unwritten
  have kept := event_calm (originateOnce inp.now) (periodOpened inp s)
  rw [openPeriod_eq]
  refine ⟨kept.role.trans (by rw [once, role]), kept.group.trans (by rw [once, joined]), fun usable => ?_⟩
  rw [kept.usable, event_originPort, once] at usable
  rw [event_ports, event_originPort, once]
  exact sends usable

/-- What the period leaves at a port (R21, R25, R34). -/
theorem period_port (inp : PeriodInput) (s : State) (p : PortId) :
    let r := (sendBoth inp.now (openPeriod inp s)).port p
    r.position < frameTicks r.lineRate ∧ (frameTicks r.lineRate ≤ frameTicks s.start.rate → r.arrived = 0) ∧
      r.routed = none ∧ r.time = inp.now ∧
      (r.txOn = true → ∃ f l, r.txLine = some (f, frameCheck f) ∧ f.link = some l ∧
        l.sender = s.start.id ∧ l.port = p ∧ l.offer.sendStamp = inp.now) ∧
      (r.txOn = false → r.txLine = none) := by
  intro r
  have sent := sendBoth_sent inp.now (openPeriod inp s) p
  obtain ⟨d, f, e⟩ := openPeriod_port inp s p
  have id : (openPeriod inp s).start.id = s.start.id := by
    rw [(openPeriod_lined inp s).start]
    rfl
  refine ⟨?_, fun fits => ?_, sent.routed, ?_, fun on => ?_, sent.silent⟩
  · rw [sent.position, sent.lineRate, e]
    exact position_nextPosition _ _
  · rw [sent.lineRate, e] at fits
    rw [sent.arrived, e]
    exact arrived_nextPosition fits
  · rw [sent.time, e]
    rfl
  · obtain ⟨f, l, line, link, sender, port, stamp, -⟩ := sent.sends on
    exact ⟨f, l, line, link, sender.trans id, port, stamp⟩

/-- A running timer after the end of a period and the new one's tick. -/
theorem Runs.ticked {x y : Timer} (h : Runs x y) {n : Nat} (run : x = some n) (pos : n ≠ 0) (d : Nat) :
    tick d y = some (n - d) := by
  rw [h n run pos]
  rfl

/-- What the new period, begun in `c`, leaves of the old one and takes of the input. -/
theorem newPeriod_passes (inp : PeriodInput) (c : State) :
    let u := sendBoth inp.now (openPeriod inp c)
    u.start = { c.start with holdn := inp.holdn } ∧
      u.lanes.present = (List.range 64).map (fun i => inp.lanes.getD i 0) ∧
      u.gain.laneUsed = false ∧ u.loop.originated = false ∧ u.lock.level = c.lock.level ∧ u.lanes.out = c.lanes.out ∧
      ((∀ e, c.loop.restart ≠ .written e) → u.supervision.timer = tick (frameTicks c.start.rate) c.supervision.timer) ∧
      u.safety.panicT = tick (frameTicks c.start.rate) c.safety.panicT := by
  intro u
  obtain ⟨loop, lanes, gain, safety, supervision, start, lock⟩ := sendBoth_loop inp.now (openPeriod inp c)
  have opened := periodOpened_opened inp c
  have lined := openPeriod_lined inp c
  refine ⟨?_, ?_, ?_, ?_, ?_, ?_, fun unwritten => ?_, ?_⟩
  · exact (start.trans lined.start).trans opened.start
  · exact (congrArg LaneRec.present lanes).trans (lined.present.trans opened.present)
  · exact (congrArg GainRec.laneUsed gain).trans (lined.laneUsed.trans opened.laneUsed)
  · exact (congrArg LoopRec.originated loop).trans lined.originated
  · exact lock.trans (openPeriod_lock inp c)
  · exact (congrArg LaneRec.out lanes).trans (lined.out.trans opened.out)
  · have kept : (openPeriod inp c).supervision = (periodOpened inp c).supervision :=
      (event_calm _ _).supervision.trans (originateOnce_supervision inp.now unwritten)
    exact (congrArg SuperRec.timer (supervision.trans kept)).trans opened.timer
  · exact (congrArg SafetyRec.panicT safety).trans (lined.panicT.trans opened.panicT)

theorem originPort_sendBoth (now : Nanos) (s : State) : originPort (sendBoth now s) = originPort s := by
  unfold originPort
  rw [(sendBoth_loop now s).1]

/-- The frame an acting origin sends at the start of the period, if its port is usable and transmits. -/
theorem newPeriod_sends {inp : PeriodInput} {c : State} {g : OriginGroup} (acts : originates c = true)
    (early : c.loop.originated = false) (group : c.loop.group = some g) (unwritten : ∀ e, c.loop.restart ≠ .written e) :
    let u := sendBoth inp.now (openPeriod inp c)
    u.loop.role = .origin ∧ u.loop.group = some g ∧
      (u.usable (originPort u) = true → (u.port (originPort u)).txOn = true →
        ∃ f, (u.port (originPort u)).txLine = some (f, frameCheck f) ∧ f.slots.isSome = true ∧
          f.header = ⟨u.loop.count, g, c.start.loopName, c.start.rate, c.lock.level, [c.start.id],
            [⟨c.start.id, dirOf (originPort u)⟩]⟩) := by
  intro u
  obtain ⟨origin, joined, sends⟩ := openPeriod_sends (inp := inp) acts early group unwritten
  have loop : u.loop = (openPeriod inp c).loop := (sendBoth_loop inp.now (openPeriod inp c)).1
  have count : u.loop.count = c.loop.count + 1 := by
    rw [loop, count_openPeriod, if_pos ⟨early, (originates_periodOpened _ _).trans acts⟩]
  refine ⟨by rw [loop, origin], by rw [loop, joined], ?_⟩
  rw [count, show originPort u = _ from originPort_sendBoth inp.now (openPeriod inp c)]
  intro usable on
  have sent := sendBoth_sent inp.now (openPeriod inp c) (originPort (openPeriod inp c))
  obtain ⟨f, l, line, -, -, -, -, carried⟩ := sent.sends on
  obtain ⟨r, routed, slots, header⟩ := sends (sent.usable.symm.trans usable)
  obtain ⟨sameHeader, sameSlots⟩ := carried r routed
  exact ⟨f, line, by rw [sameSlots, slots], by rw [sameHeader, header]⟩

/-- The count through a period (R2): FOLLOWER. -/
theorem count_framePeriod_follower {inp : PeriodInput} {s : State} (role : s.loop.role = .follower)
    (idle : NoTakeover s) : (openPeriod inp (closePeriod s)).loop.count =
      if s.loop.visited then s.loop.count else s.loop.count + 1 := by
  have lasting : Lasting s (closePeriod s) := closePeriod_lasting (.inr idle)
  have quiet : originates (periodOpened inp (closePeriod s)) ≠ true := fun h => by
    have := role_of_originates ((originates_periodOpened inp _).symm.trans h)
    rw [lasting.role, role] at this
    cases this
  rw [count_openPeriod, if_neg fun h => quiet h.2, count_closePeriod]

/-- The count through a period (R2): ORIGIN. -/
theorem count_framePeriod_origin {inp : PeriodInput} {s : State} (role : s.loop.role = .origin)
    (running : s.start.held = false) (agreed : s.loop.conflict = none) :
    let alone : FrameNo := if s.loop.visited then s.loop.count else s.loop.count + 1
    (openPeriod inp (closePeriod s)).loop.count = if s.loop.originated then alone else alone + 1 := by
  intro alone
  have lasting : Lasting s (closePeriod s) := closePeriod_lasting (.inl role)
  have acts : originates (periodOpened inp (closePeriod s)) = true :=
    (originates_periodOpened _ _).trans ((originates_iff _).2 ⟨lasting.role.trans role,
      (congrArg StartRec.held lasting.start).trans running, lasting.conflict.trans agreed⟩)
  rw [count_openPeriod, count_closePeriod, lasting.originated]
  cases s.loop.originated <;> simp [acts, alone]

/-- The old period's end and the new one's start together. -/
theorem framePeriod_passes (inp : PeriodInput) (s : State) :
    let u := sendBoth inp.now (openPeriod inp (closePeriod s))
    u.start = { s.start with holdn := inp.holdn } ∧
      u.lanes.present = (List.range 64).map (fun i => inp.lanes.getD i 0) ∧
      u.gain.laneUsed = false ∧ u.loop.originated = false ∧ u.lock.level = s.lock.level ∧
      u.lanes.out = (laneFrame (closePeriod s)).lanes.out ∧
      ((∀ e, s.loop.restart ≠ .written e) → ∀ n, s.supervision.timer = some n → n ≠ 0 →
        u.supervision.timer = some (n - frameTicks s.start.rate)) ∧
      (∀ n, s.safety.panicT = some n → n ≠ 0 → u.safety.panicT = some (n - frameTicks s.start.rate)) := by
  have timed := closePeriod_timed s
  have lock := (closePeriod_keeps s).lock
  have shown := laneFrame_closePeriod s
  rw [← shown, ← timed.start, ← lock]
  generalize closePeriod s = c at *
  obtain ⟨start, present, laneUsed, originated, level, out, silence, panicT⟩ := newPeriod_passes inp c
  exact ⟨start, present, laneUsed, originated, level, out,
    fun unwritten n run pos => (silence (timed.unwritten unwritten)).trans (timed.silence.ticked run pos _),
    fun n run pos => panicT.trans (timed.panicT.ticked run pos _)⟩

theorem framePeriod_sends {inp : PeriodInput} {s : State} {g : OriginGroup} (role : s.loop.role = .origin)
    (running : s.start.held = false) (agreed : s.loop.conflict = none) (early : s.loop.originated = false)
    (group : s.loop.group = some g) (unwritten : ∀ e, s.loop.restart ≠ .written e) :
    let u := sendBoth inp.now (openPeriod inp (closePeriod s))
    u.loop.role = .origin ∧ u.loop.group = some g ∧
      (u.usable (originPort u) = true → (u.port (originPort u)).txOn = true →
        ∃ f, (u.port (originPort u)).txLine = some (f, frameCheck f) ∧ f.slots.isSome = true ∧
          f.header = ⟨u.loop.count, g, s.start.loopName, s.start.rate, s.lock.level, [s.start.id],
            [⟨s.start.id, dirOf (originPort u)⟩]⟩) := by
  have lasting : Lasting s (closePeriod s) := closePeriod_lasting (.inl role)
  rw [← lasting.start, ← (closePeriod_keeps s).lock]
  generalize closePeriod s = c at *
  exact newPeriod_sends ((originates_iff _).2 ⟨lasting.role.trans role, (congrArg StartRec.held lasting.start).trans running,
      lasting.conflict.trans agreed⟩) (lasting.originated.trans early) (lasting.group.trans group)
    (lasting.unwritten unwritten)

/-- What one frame period leaves at a port. -/
theorem framePeriod_ports (inp : PeriodInput) (s : State) (p : PortId) :
    let r := (sendBoth inp.now (openPeriod inp (closePeriod s))).port p
    r.position < frameTicks r.lineRate ∧ (frameTicks r.lineRate ≤ frameTicks s.start.rate → r.arrived = 0) ∧
      r.routed = none ∧ r.time = inp.now ∧
      (r.txOn = true → ∃ f l, r.txLine = some (f, frameCheck f) ∧ f.link = some l ∧
        l.sender = s.start.id ∧ l.port = p ∧ l.offer.sendStamp = inp.now) ∧
      (r.txOn = false → r.txLine = none) := by
  have timed := closePeriod_timed s
  rw [← timed.start]
  exact period_port inp (closePeriod s) p

/-- Settles O55: the end of the period keeps what the statement names but for the count (R2), and the new period's one
origination sends from the state so left. -/
theorem framePeriodPasses : Obligations.FramePeriodPasses := by
  unfold Obligations.FramePeriodPasses
  refine ⟨fun inp s running _ => ?_, fun d s => ?_, fun g s => ?_, fun l i x s h => ?_⟩
  · rw [execFramePeriod_eq running]
    have passes := framePeriod_passes inp s
    have follower := count_framePeriod_follower (inp := inp) (s := s)
    have origin := count_framePeriod_origin (inp := inp) (s := s)
    have sends := fun g => framePeriod_sends (inp := inp) (s := s) (g := g)
    have ports := framePeriod_ports inp s
    have loop : (sendBoth inp.now (openPeriod inp (closePeriod s))).loop = (openPeriod inp (closePeriod s)).loop :=
      (sendBoth_loop inp.now (openPeriod inp (closePeriod s))).1
    rw [← loop] at follower origin
    generalize sendBoth inp.now (openPeriod inp (closePeriod s)) = u at *
    obtain ⟨start, present, laneUsed, originated, lock, out, silence, panicT⟩ := passes
    obtain ⟨c, d, picked, -⟩ := pickUart_eq u
    rw [picked]
    refine ⟨_, rfl, start, present, laneUsed, originated, lock, rfl, out, fun role idle => follower role idle, origin, ?_,
      fun n run pos unwritten => silence unwritten n run pos, panicT, ports⟩
    intro g role held agreed early group unwritten q
    obtain ⟨sameRole, sameGroup, sent⟩ := sends g role held agreed early group unwritten
    refine ⟨sameRole, sameGroup, fun usable on => ?_⟩
    obtain ⟨f, line, slots, header⟩ := sent usable on
    exact ⟨f, line, slots, header⟩
  · refine ⟨fun p => ?_, rfl, fun n p => ?_, rfl, fun i e h => ?_, fun i k h => ?_, fun i r h => ?_, rfl,
      supervision_timer_spanTick _ _, fun tag => findOp_tickAll d s tag⟩
    · rw [port_tickAll]
      exact ⟨rfl, rfl, rfl, rfl, rfl⟩
    · rw [linkAt_tickAll, Option.map_map]
      rfl
    · simp [tickAll, List.getElem?_map, h, tickGain, tick]
    · simp [tickAll, List.getElem?_map, h, tickKey, tick]
    · simp [tickAll, List.getElem?_map, h, tickOut, tick]
  · refine ⟨rfl, rfl, nextCells_empty, fun r i c => nextCells_returned, _, rfl, fun i x h => zeroSlots_at h⟩
  · exact ⟨⟨fun n source mode valid => visitSamples_slot h source mode valid, visitSamples_other h,
      fun b => visitSamples_talk l b s⟩, fun n => periodSamples_loc h, fun n k => periodSamples_isolated h,
      periodSamples_other h⟩

end Sys2Proof.Machine
end

section
/-! PROOFS. A good frame of the held partner at an UP port of an ORIGIN leaves ports and wraps as they are (R31, R37,
R54), for O32. -/

namespace Sys2Proof.Machine

open Sys2Proof

/-- A port event that moves no port's state or flags and no wrap. -/
structure Standing (s t : State) : Prop extends Evented s t where
  state : ∀ q, (t.port q).state = (s.port q).state
  flags : ∀ q, (t.port q).flags = (s.port q).flags
  wrapA : t.loop.wrapA = s.loop.wrapA
  wrapB : t.loop.wrapB = s.loop.wrapB

theorem Standing.refl (s : State) : Standing s s := ⟨.refl s, fun _ => rfl, fun _ => rfl, rfl, rfl⟩

theorem Standing.trans {s t u : State} (h : Standing s t) (k : Standing t u) : Standing s u :=
  ⟨h.toEvented.trans k.toEvented, fun q => (k.state q).trans (h.state q), fun q => (k.flags q).trans (h.flags q),
    k.wrapA.trans h.wrapA, k.wrapB.trans h.wrapB⟩

theorem Standing.ite {c : Prop} [Decidable c] {s t u : State} (h : Standing s t) (k : Standing s u) :
    Standing s (if c then t else u) := by
  split <;> assumption

theorem Standing.usable {s t : State} (h : Standing s t) (q : PortId) : t.usable q = s.usable q := by
  unfold State.usable portUsable
  rw [h.state q, h.flags q]

theorem Standing.wrapAt {s t : State} (h : Standing s t) (q : PortId) : t.wrapAt q = s.wrapAt q := by
  cases q
  · exact h.wrapA
  · exact h.wrapB

theorem Standing.role {s t : State} (h : Standing s t) : t.loop.role = s.loop.role := h.toEvented.lasting.role

/-- An ORIGIN that is neither in HELD nor in CONFLICT stays so. -/
theorem Standing.mode {s t : State} (h : Standing s t) (mode : loopMode s ≠ .held ∧ loopMode s ≠ .conflict) :
    loopMode t ≠ .held ∧ loopMode t ≠ .conflict := by
  have free (a : State) : (loopMode a ≠ .held ∧ loopMode a ≠ .conflict) ↔
      (a.start.held = false ∧ a.loop.conflict = none) := by
    unfold loopMode
    cases held : a.start.held
    · cases conflict : a.loop.conflict
      · simp only [Bool.false_eq_true, Option.isSome_none, if_false, and_self, iff_true]
        repeat' split
        all_goals simp
      · simp
    · simp
  rw [free] at mode ⊢
  exact ⟨(congrArg StartRec.held h.start).trans mode.1, h.toEvented.lasting.conflict.trans mode.2⟩

theorem setPort_standing {p : PortId} {r : PortRec} {s : State} (state : r.state = (s.port p).state)
    (flags : r.flags = (s.port p).flags) : Standing s (s.setPort p r) := by
  refine ⟨setPort_evented p r s, fun q => ?_, fun q => ?_, by simp, by simp⟩
  · cases p <;> cases q
    · exact state
    · rfl
    · rfl
    · exact state
  · cases p <;> cases q
    · exact flags
    · rfl
    · rfl
    · exact flags

theorem wrapStep_same {p : PortId} {was : Bool} {s : State} (h : was = s.usable p) : wrapStep p was s = s := by
  unfold wrapStep
  cases k : s.usable p <;> simp [h, k]

theorem markUsable_standing (p : PortId) (s : State) : Standing s (markUsable p s) :=
  .ite (setPort_standing rfl rfl) (.refl s)

theorem pushLinkNote_standing (p : PortId) (s : State) : Standing s (pushLinkNote p s) := by
  refine ⟨pushLinkNote_evented p s, ?_, ?_, ?_, ?_⟩
  all_goals unfold pushLinkNote
  all_goals repeat' split
  all_goals first | exact fun _ => rfl | rfl

theorem LinksJudged.standing {s t : State} (h : LinksJudged s t) : Standing s t := by
  refine ⟨h.evented, fun q => by rw [h.ports q], fun q => by rw [h.ports q], ?_, ?_⟩
  all_goals
    obtain ⟨_, _, _, _, _, _, _, rfl⟩ := h
    rfl

theorem afterLoop_standing (c : LoopCause) (old s : State) : Standing s (afterLoop c old s) := by
  obtain ⟨x, loop⟩ := loop_afterLoop c old s
  have ports := (afterLoop_calm c old s).ports
  refine ⟨afterLoop_evented c old s, fun q => ?_, fun q => ?_, by rw [loop], by rw [loop]⟩
  all_goals
    obtain ⟨d, f, e⟩ := ports q
    rw [e]

/-- A port that was usable and still is, at an ORIGIN (R52 to R54). -/
theorem portEvent_standing {p : PortId} {old : PortRec} {s : State} (was : portUsable old = true) (now : s.usable p = true)
    (origin : s.loop.role = .origin) : Standing s (portEvent p old s) := by
  unfold portEvent
  simp only
  rw [wrapStep_same (was.trans now.symm)]
  have marked := markUsable_standing p s
  generalize markUsable p s = a at marked
  have noted (c : Bool) (n : NodeId) (st : LinkState) (m : Bool) (f : Option NodeId) (g : Option OriginGroup) :
      Standing s (if c = true then takeLinkNote n p st m f g (pushLinkNote p a) else a) :=
    .ite (marked.trans ((pushLinkNote_standing p a).trans (takeLinkNote_judged _ _ _ _ _ _ _).standing)) marked
  have after (b t : State) (h : Standing s t) : Standing s (if losesOrigin (portUsable old) t = true then
      afterLoop .originLost b (dropKeys .originLost { t with loop := { t.loop with following := false } })
      else afterLoop .port b t) := by
    have keeps : losesOrigin (portUsable old) t = false := by
      unfold losesOrigin State.isOrigin
      rw [h.role, origin]
      simp
    rw [if_neg (by simp [keeps])]
    exact h.trans (afterLoop_standing _ _ _)
  exact after _ _ (noted _ _ _ _ _ _)

/-- A port's record moves within UP, its flags as they were. -/
theorem commit_standing {p : PortId} {c : PortCause} {r : PortRec} {s : State} (usable : s.usable p = true)
    (state : r.state = (s.port p).state) (flags : r.flags = (s.port p).flags) (origin : s.loop.role = .origin) :
    Standing s (commit p c r s) := by
  have same : stateOrFlags (s.port p) r = false := by simp [stateOrFlags, state, flags]
  have set := setPort_standing (s := s) state flags
  have base : Standing s (commitBase p c r s) := by
    unfold commitBase
    simp only [same, Bool.false_eq_true, if_false, Bool.false_or]
    exact .ite (set.trans (portEvent_standing usable ((set.usable p).trans usable) (set.role.trans origin))) set
  have only : commit p c r s = commitBase p c r s := by
    unfold commit
    simp only [overtakes_off (.inl state.symm) (by rw [flags]; exact id)]
    simp only [Bool.false_and, Bool.false_eq_true, if_false]
    rw [if_neg]
    simp only [Bool.and_eq_true, bne_iff_ne, beq_iff_eq, ← state]
    exact fun k => k.1 k.2
  rw [only]
  exact base

/-- The frame keeps an UP port: no offer at a FIXED port or below the limit of the hear-you-clear run, or an agreeing
offer of the held partner that hears this node (R30, R31). -/
def KeepsPartner (s : State) (r : PortRec) (f : Option LinkField) : Prop :=
  (f = none ∧ (r.flags.fixed = true ∨ r.clearRun + 1 < 48)) ∨
    (r.flags.fixed = false ∧ ∃ l k, f = some l ∧ r.partner = some k ∧ k.sender = l.sender ∧ k.port = l.port ∧
      l.sender ≠ s.start.id ∧ l.offer.hearYou = true ∧ l.offer.loopName = s.start.loopName ∧
      l.offer.rate = s.start.rate)

theorem goodFrame_standing {p : PortId} {f : Option LinkField} {now : Nanos} {s : State} (usable : s.usable p = true)
    (origin : s.loop.role = .origin) (h : KeepsPartner s (s.port p) f) : Standing s (goodFrame p f now s) := by
  obtain ⟨up, fault⟩ : (s.port p).state = .up ∧ (s.port p).flags.remoteFault = false := by
    simpa [State.usable, portUsable] using usable
  obtain ⟨state, flags, partner, run, -⟩ := counted_keeps f now (s.port p)
  have other : sightsSelf s f = false := by
    rcases h with ⟨e, -⟩ | ⟨-, l, _, e, -, -, -, ne, -⟩
    · simp [e, sightsSelf]
    · simp [e, sightsSelf, ne]
  have eq : goodFrame p f now s = frameEffect p f (counted f now (s.port p)) s := by
    rw [goodFrame_eq (by simp [up]) (by simp [up]), other]
    rfl
  rw [eq]
  generalize counted f now (s.port p) = r at *
  rcases h with ⟨rfl, h⟩ | ⟨fixed, l, k, rfl, hk, sender, port, -, hear, name, rate⟩
  · by_cases fixed : (s.port p).flags.fixed = true
    · rw [(frameEffect_up (f := none) (state.trans up) s).1 (by rw [flags]; exact fixed)]
      exact setPort_standing state flags
    · obtain ⟨state', flags', -, -⟩ := hearClear_below (r := r) (by rw [run]; exact h.resolve_left fixed)
      rw [(frameEffect_up (state.trans up) s).2 (by rw [flags]; simpa using fixed)]
      exact commit_standing usable (state'.trans state) (flags'.trans flags) origin
  · have agrees : offerAgrees s l.offer = true := by simp [offerAgrees, name, rate]
    have same : sameSender r l = true := by simp [sameSender, partner, hk, sender, port]
    have clear : ({ r.flags with remoteFault := false } : PortFlags) = (s.port p).flags := by
      rw [flags, ← fault]
    rw [(frameEffect_up (state.trans up) s).2 (by rw [flags]; exact fixed)]
    unfold upFrame
    simp only [agrees, same, hear, Bool.not_true, Bool.false_eq_true, if_false, if_true]
    exact commit_standing usable state clear origin

/-- The frame is handed over in a state in which the port stands as it did (R37). -/
theorem receive_standing {p : PortId} {a : Arrival} {s : State} (usable : s.usable p = true)
    (origin : s.loop.role = .origin) (good : frameCheck a.frame = a.check) (loop : a.frame.slots.isSome = true)
    (h : KeepsPartner s (s.port p) a.frame.link) :
    ∃ u, receive p a s = dispatch p a.frame a.now u ∧ Standing s u := by
  have up : (s.port p).state = .up := by
    simp only [State.usable, portUsable, Bool.and_eq_true, beq_iff_eq] at usable
    exact usable.1
  have mark : Standing s (s.setPort p (seen a (s.port p))) := setPort_standing rfl rfl
  have frame := goodFrame_standing (f := a.frame.link) (now := a.now) ((mark.usable p).trans usable) (mark.role.trans origin) (by
    rw [port_setPort]
    unfold KeepsPartner at h ⊢
    rw [mark.start]
    exact h)
  refine ⟨_, ?_, mark.trans frame⟩
  unfold receive
  simp only
  rw [markArrived_seen (by simp [up]), if_pos ((passesCheck_iff a).2 good)]
  exact if_pos (by simp [up, (mark.trans frame).state p, loop])

end Sys2Proof.Machine
end

section
/-! PROOFS. The origin's own map after a circuit (R58) and its publication (R59), for O32. -/

namespace Sys2Proof.Machine

open Sys2Proof

/-! ### The map after one hop list (R58) -/

/-- The place of a node in a hop list, counted from 1, with its direction there. -/
def hopPlace (hops : List Hop) (n : NodeId) : Option (Nat × Direction) :=
  (hops.zipIdx.find? fun (h, _) => decide (h.id = n)).map fun (h, i) => (i + 1, h.dir)

/-- What an entry becomes; none for one that leaves. -/
def keptEntry (hops : List Hop) (e : OwnMapEntry) : Option OwnMapEntry :=
  match hopPlace hops e.id with
  | some (i, d) => some { e with pos := i, dir := d, absence := 0 }
  | none => if 2 ≤ e.absence then none else some { e with absence := e.absence + 1 }

/-- The entry of a hop that the map does not hold. -/
def freshEntry (map : List OwnMapEntry) (h : Hop) (i : Nat) : Option OwnMapEntry :=
  if map.any fun e => decide (e.id = h.id) then none else some ⟨h.id, none, none, i + 1, h.dir, 0⟩

theorem mapStep_eq (s : State) (hops : List Hop) (map : List OwnMapEntry) : mapStep s hops map =
    (map.filterMap (keptEntry hops) ++ hops.zipIdx.filterMap fun (h, i) => freshEntry map h i).map (withFacts s) := rfl

theorem withFacts_keeps (s : State) (e : OwnMapEntry) : (withFacts s e).id = e.id ∧ (withFacts s e).pos = e.pos ∧
    (withFacts s e).dir = e.dir ∧ (withFacts s e).absence = e.absence := by
  unfold withFacts
  split <;> exact ⟨rfl, rfl, rfl, rfl⟩

theorem hopPlace_none {hops : List Hop} {n : NodeId} (h : ∀ x ∈ hops, x.id ≠ n) : hopPlace hops n = none := by
  unfold hopPlace
  rw [List.find?_eq_none.2 ?_]
  · rfl
  · rintro ⟨x, i⟩ hx
    simpa using h x (List.fst_mem_of_mem_zipIdx hx)

/-- The first hop of a node says its place. -/
theorem hopPlace_first {hops : List Hop} {i : Nat} {h : Hop} (at' : hops[i]? = some h)
    (first : ∀ (j : Nat) (g : Hop), j < i → hops[j]? = some g → g.id ≠ h.id) : hopPlace hops h.id = some (i + 1, h.dir) := by
  unfold hopPlace
  obtain ⟨lt, get⟩ := List.getElem?_eq_some_iff.1 at'
  have found : (hops.zipIdx.find? fun (x, _) => decide (x.id = h.id)) = some (h, i) := by
    rw [List.find?_eq_some_iff_getElem]
    refine ⟨by simp, i, by simpa using lt, by simp [get], fun j hj => ?_⟩
    have := first j hops[j] hj (List.getElem?_eq_getElem (by omega))
    simpa using this
  rw [found]
  rfl

theorem keptEntry_id {hops : List Hop} {e y : OwnMapEntry} (h : keptEntry hops e = some y) : y.id = e.id := by
  unfold keptEntry at h
  split at h
  · rw [← Option.some.inj h]
  · split at h
    · cases h
    · rw [← Option.some.inj h]

theorem mem_mapStep {s : State} {hops : List Hop} {map : List OwnMapEntry} {y : OwnMapEntry} :
    y ∈ mapStep s hops map ↔ ∃ x, withFacts s x = y ∧ ((∃ e ∈ map, keptEntry hops e = some x) ∨
      ∃ h i, hops[i]? = some h ∧ freshEntry map h i = some x) := by
  rw [mapStep_eq]
  simp only [List.mem_map, List.mem_append, List.mem_filterMap, Prod.exists, List.mem_zipIdx_iff_getElem?]
  exact ⟨fun ⟨x, h, e⟩ => ⟨x, e, h⟩, fun ⟨x, e, h⟩ => ⟨x, h, e⟩⟩

/-- A node whose absence is counted a third time leaves (R58). -/
theorem mapStep_leaves {s : State} {hops : List Hop} {map : List OwnMapEntry} {e : OwnMapEntry}
    (absent : ∀ h ∈ hops, h.id ≠ e.id) (third : e.absence = 2) (only : ∀ x ∈ map, x.id = e.id → x = e) :
    ∀ y ∈ mapStep s hops map, y.id ≠ e.id := by
  intro y hy same
  obtain ⟨x, rfl, ⟨a, ha, kept⟩ | ⟨h, i, hi, fresh⟩⟩ := mem_mapStep.1 hy
  · have id := (keptEntry_id kept).symm.trans ((withFacts_keeps s x).1.symm.trans same)
    have := only a ha id
    subst this
    unfold keptEntry at kept
    rw [hopPlace_none absent, third] at kept
    cases kept
  · unfold freshEntry at fresh
    split at fresh
    · cases fresh
    · have id : x.id = h.id := by rw [← Option.some.inj fresh]
      exact absent h (List.mem_of_getElem? hi) (id.symm.trans ((withFacts_keeps s x).1.symm.trans same))

/-- An absence before the third is counted, place and direction kept. -/
theorem mapStep_absent {s : State} {hops : List Hop} {map : List OwnMapEntry} {x : OwnMapEntry} (mem : x ∈ map)
    (absent : ∀ h ∈ hops, h.id ≠ x.id) (few : x.absence < 2) :
    ∃ y ∈ mapStep s hops map, y.id = x.id ∧ y.pos = x.pos ∧ y.dir = x.dir ∧ y.absence = x.absence + 1 := by
  have kept : keptEntry hops x = some { x with absence := x.absence + 1 } := by
    unfold keptEntry
    rw [hopPlace_none absent]
    exact if_neg (by omega)
  obtain ⟨id, pos, dir, absence⟩ := withFacts_keeps s { x with absence := x.absence + 1 }
  exact ⟨_, mem_mapStep.2 ⟨_, rfl, .inl ⟨x, mem, kept⟩⟩, id, pos, dir, absence⟩

/-- A visited node has its place of the hop list, a new one too. -/
theorem mapStep_visited {s : State} {hops : List Hop} {map : List OwnMapEntry} {i : Nat} {h : Hop}
    (at' : hops[i]? = some h) (first : ∀ (j : Nat) (g : Hop), j < i → hops[j]? = some g → g.id ≠ h.id) :
    ∃ y ∈ mapStep s hops map, y.id = h.id ∧ y.pos = i + 1 ∧ y.dir = h.dir ∧ y.absence = 0 := by
  have place := hopPlace_first at' first
  by_cases known : map.any (fun e => decide (e.id = h.id)) = true
  · obtain ⟨e, he, same⟩ := List.any_eq_true.1 known
    have id : e.id = h.id := of_decide_eq_true same
    have kept : keptEntry hops e = some { e with pos := i + 1, dir := h.dir, absence := 0 } := by
      unfold keptEntry
      rw [id, place]
    obtain ⟨id', pos, dir, absence⟩ := withFacts_keeps s { e with pos := i + 1, dir := h.dir, absence := 0 }
    exact ⟨_, mem_mapStep.2 ⟨_, rfl, .inl ⟨e, he, kept⟩⟩, id'.trans id, pos, dir, absence⟩
  · have fresh : freshEntry map h i = some ⟨h.id, none, none, i + 1, h.dir, 0⟩ := if_neg known
    obtain ⟨id, pos, dir, absence⟩ := withFacts_keeps s ⟨h.id, none, none, i + 1, h.dir, 0⟩
    exact ⟨_, mem_mapStep.2 ⟨_, rfl, .inr ⟨h, i, at', fresh⟩⟩, id, pos, dir, absence⟩

/-! ### Publication (R59) -/

/-- The MAP waits in the queue unsent, or is owed. -/
def MapStands (body : LoopMsg) (s : State) : Prop :=
  s.loop.mapOwed = true ∨ ∃ m ∈ s.queue.items, m.sends = 0 ∧ m.body = body

theorem isMap_iff (m : LoopMsg) : isMap m = true ↔ ∃ n l, m = .map n l := by
  cases m <;> simp [isMap]

/-- The first unsent message of a kind takes the new body in its place. -/
theorem replaceUnsent_at {f : LoopMsg → Bool} {m : LoopMsg} {g : Option OriginGroup} {before rest : List QItem} {i : QItem}
    (unsent : i.sends = 0 ∧ f i.body = true) (first : ∀ x ∈ before, ¬ (x.sends = 0 ∧ f x.body = true)) :
    replaceUnsent f m g (before ++ i :: rest) = before ++ { i with body := m, group := g } :: rest := by
  induction before with
  | nil => exact if_pos (by simp [unsent])
  | cons x l ih =>
    have skip : ¬ (decide (x.sends = 0) && f x.body) = true := by simpa using first x (by simp)
    exact (if_neg skip).trans (congrArg _ (ih fun y hy => first y (by simp [hy])))

theorem publishMap_unsent {s : State} {before rest : List QItem} {i : QItem} (items : s.queue.items = before ++ i :: rest)
    (unsent : i.sends = 0 ∧ ∃ n l, i.body = .map n l) (first : ∀ x ∈ before, ¬ (x.sends = 0 ∧ ∃ n l, x.body = .map n l)) :
    publishMap s = { s with queue := { s.queue with
      items := before ++ { i with body := mapBody s, group := s.loop.group } :: rest } } := by
  simp only [← isMap_iff] at unsent first
  unfold publishMap
  rw [if_pos ((hasUnsent_iff _ _).2 ⟨i, by simp [items], unsent⟩), items, replaceUnsent_at unsent first]

theorem publishMap_sent {s : State} (h : ∀ i ∈ s.queue.items, ¬ (i.sends = 0 ∧ ∃ n l, i.body = .map n l)) :
    (s.queue.items.length < 16 → publishMap s = { s with queue := queued .all (mapBody s) none .loc s }) ∧
      (16 ≤ s.queue.items.length → publishMap s = { s with loop := { s.loop with mapOwed := true } }) := by
  have none' : ¬ hasUnsent isMap s = true := by
    rw [hasUnsent_iff]
    rintro ⟨i, hi, k⟩
    exact h i hi ⟨k.1, (isMap_iff _).1 k.2⟩
  unfold publishMap
  rw [if_neg none']
  refine ⟨fun room => ?_, fun full => ?_⟩
  · rw [if_pos ((queueRoom_iff s).2 room)]
    rfl
  · rw [if_neg (by rw [queueRoom_iff]; omega)]

theorem publishMap_stands (s : State) : MapStands (mapBody s) (publishMap s) := by
  by_cases unsent : ∃ i ∈ s.queue.items, i.sends = 0 ∧ ∃ n l, i.body = .map n l
  · have some' : hasUnsent isMap s = true := by
      obtain ⟨i, hi, sends, body⟩ := unsent
      exact (hasUnsent_iff _ _).2 ⟨i, hi, sends, (isMap_iff _).2 body⟩
    have found (l : List QItem) (h : ∃ i ∈ l, i.sends = 0 ∧ isMap i.body = true) :
        ∃ m ∈ replaceUnsent isMap (mapBody s) s.loop.group l, m.sends = 0 ∧ m.body = mapBody s := by
      induction l with
      | nil => simp at h
      | cons x l ih =>
        unfold replaceUnsent
        split
        next k =>
          simp only [Bool.and_eq_true, decide_eq_true_eq] at k
          exact ⟨_, List.mem_cons_self, k.1, rfl⟩
        next k =>
          obtain ⟨i, hi, u⟩ := h
          rcases List.mem_cons.1 hi with rfl | hi
          · exact absurd (by simpa using u) k
          · obtain ⟨m, hm, e⟩ := ih ⟨i, hi, u⟩
            exact ⟨m, List.mem_cons_of_mem _ hm, e⟩
    unfold publishMap
    rw [if_pos some']
    exact .inr (found _ ((hasUnsent_iff _ _).1 some'))
  · push Not at unsent
    obtain ⟨room, full⟩ := publishMap_sent (s := s) fun i hi k => unsent i hi k.1 _ _ k.2.choose_spec.choose_spec
    by_cases few : s.queue.items.length < 16
    · rw [room few]
      exact .inr ⟨_, List.mem_append_right _ (List.mem_singleton.2 rfl), rfl, rfl⟩
    · rw [full (by omega)]
      exact .inl rfl

end Sys2Proof.Machine
end

section
/-! PROOFS. What follows the publication of a map keeps it, and clears the talk buses of the nodes that left (R58, R59,
R138), for O32. -/

namespace Sys2Proof.Machine

open Sys2Proof

/-! ### The published map stands -/

/-- The map, its serial and each unsent MAP stand. -/
structure MapKept (s t : State) : Prop where
  ownMap : t.loop.ownMap = s.loop.ownMap
  serial : t.loop.mapSerial = s.loop.mapSerial
  owed : s.loop.mapOwed = true → t.loop.mapOwed = true
  unsent : ∀ m ∈ s.queue.items, m.sends = 0 → isMap m.body = true → m ∈ t.queue.items

theorem MapKept.trans {s t u : State} (h : MapKept s t) (k : MapKept t u) : MapKept s u :=
  ⟨k.ownMap.trans h.ownMap, k.serial.trans h.serial, fun x => k.owed (h.owed x),
    fun m hm sends map => k.unsent m (h.unsent m hm sends map) sends map⟩

theorem MapKept.on {s t u : State} (k : MapKept t u) (h : MapKept s t) : MapKept s u := h.trans k

theorem MapKept.of_parts {s t : State} (ownMap : t.loop.ownMap = s.loop.ownMap)
    (serial : t.loop.mapSerial = s.loop.mapSerial) (owed : t.loop.mapOwed = s.loop.mapOwed)
    (queue : t.queue = s.queue) : MapKept s t :=
  ⟨ownMap, serial, fun h => owed.trans h, fun m hm _ _ => by rw [queue]; exact hm⟩

theorem MapKept.of_loop {s t : State} (loop : t.loop = s.loop) (queue : t.queue = s.queue) : MapKept s t :=
  .of_parts (by rw [loop]) (by rw [loop]) (by rw [loop]) queue

theorem MapKept.refl (s : State) : MapKept s s := .of_loop rfl rfl

theorem MapKept.ite {c : Prop} [Decidable c] {s t u : State} (h : MapKept s t) (k : MapKept s u) :
    MapKept s (if c then t else u) := by
  split <;> assumption

theorem MapKept.foldl {α : Type} {f : State → α → State} (h : ∀ a x, MapKept a (f a x)) (l : List α) (s : State) :
    MapKept s (l.foldl f s) := by
  induction l generalizing s with
  | nil => exact .refl s
  | cons x l ih => exact (h s x).trans (ih _)

theorem MapKept.stands {s t : State} {n : Serial} {l : List MapEntry} (h : MapKept s t) (k : MapStands (.map n l) s) :
    MapStands (.map n l) t := by
  rcases k with owed | ⟨m, hm, sends, body⟩
  · exact .inl (h.owed owed)
  · exact .inr ⟨m, h.unsent m hm sends (by rw [body]; rfl), sends, body⟩

/-- A message of another kind joins the tail or takes its own place. -/
theorem MapKept.of_push {s t : State} (loop : t.loop = s.loop) (h : (∃ i, t.queue.items = s.queue.items ++ [i]) ∨
    ∃ f m g, (∀ b, isMap b = true → f b = false) ∧ t.queue.items = replaceUnsent f m g s.queue.items) : MapKept s t := by
  refine ⟨by rw [loop], by rw [loop], by rw [loop]; exact id, fun m hm _ map => ?_⟩
  rcases h with ⟨i, e⟩ | ⟨f, b, g, other, e⟩
  · rw [e]
    exact List.mem_append_left _ hm
  · rw [e]
    have kept (l : List QItem) (hl : m ∈ l) : m ∈ replaceUnsent f b g l := by
      induction l with
      | nil => exact hl
      | cons x l ih =>
        unfold replaceUnsent
        rcases List.mem_cons.1 hl with rfl | hl
        · rw [if_neg (by simp [other _ map])]
          exact List.mem_cons_self
        · split
          · exact List.mem_cons_of_mem _ hl
          · exact List.mem_cons_of_mem _ (ih hl)
    exact kept _ hm

theorem pushLockNote_mapKept (s : State) : MapKept s (pushLockNote s) := by
  unfold pushLockNote
  split
  · refine .of_push rfl (.inr ⟨_, _, _, fun b hb => ?_, rfl⟩)
    obtain ⟨n, l, rfl⟩ := (isMap_iff b).1 hb
    rfl
  · split
    · exact .of_push rfl (.inl ⟨_, rfl⟩)
    · exact .of_loop rfl rfl

theorem issueGrant_mapKept (b : Bus) (s : State) : MapKept s (issueGrant b s) := by
  unfold issueGrant
  simp only
  split
  · refine .of_push rfl (.inr ⟨_, _, _, fun m hm => ?_, rfl⟩)
    obtain ⟨n, l, rfl⟩ := (isMap_iff m).1 hm
    rfl
  · split
    · exact .of_push rfl (.inl ⟨_, rfl⟩)
    · exact .of_loop rfl rfl

theorem setCopy_mapKept (n : Serial) (l : List MapEntry) (s : State) : MapKept s (setCopy n l s) := by
  have leaves (a : State) (m : NodeId) : MapKept a (nodeLeaves a m) := by
    have view (c : State) : MapKept c (setLockView m none c) := .of_loop (by simp) (by simp)
    have acted (x : List (Option MsgNo)) : MapKept a { a with loop := { a.loop with lastActed := x } } :=
      .of_parts rfl rfl rfl rfl
    exact (view _).on (acted _)
  have taken (c : MapCopy) : MapKept s { s with loop := { s.loop with copy := c } } := .of_parts rfl rfl rfl rfl
  have judged (a : State) : MapKept a (rejudge a) := .of_loop rfl rfl
  have told (x : Notice) (a : State) : MapKept a (notify x a) := .of_loop (by simp) (by simp)
  have joins (c : Bool) (a : State) : MapKept a (if c = true then pushLockNote (needGainSnap a) else a) :=
    .ite ((pushLockNote_mapKept _).on (.of_loop (by simp) (by simp))) (.refl a)
  unfold setCopy
  simp only
  exact (judged _).on ((told _ _).on ((joins _ _).on ((MapKept.foldl leaves _ _).on (taken _))))

theorem purgeBus_mapKept (n : NodeId) (s : State) (b : Bus) : MapKept s (purgeBus n s b) := by
  have set (r : BusRec) : MapKept s (setBusRec b r s) := .of_loop rfl rfl
  unfold purgeBus
  simp only
  split
  · exact .ite ((issueGrant_mapKept _ _).on (set _)) (set _)
  · exact set _

theorem purgeTalk_mapKept (l : List NodeId) (s : State) : MapKept s (purgeTalk l s) :=
  .foldl (fun a n => .foldl (fun c b => purgeBus_mapKept n c b) _ a) l s

theorem Linked.mapKept {s t : State} (h : Linked s t) : MapKept s t := by
  obtain ⟨_, _, rfl⟩ := h
  exact .of_parts rfl rfl rfl rfl

/-! ### The purge of the talk buses (R138) -/

/-- No claim of the node stands on the bus. -/
def BusFree (n : NodeId) (r : BusRec) : Prop :=
  (∀ c ∈ r.stack, c.talker.node ≠ n) ∧ ∀ d, r.decided = some d → d.talker.node ≠ n

theorem busFree_setBusRec {n : NodeId} {r : BusRec} (h : BusFree n r) (b : Bus) (s : State) :
    BusFree n (busAt (setBusRec b r s) b) := by
  by_cases lt : busIndex b < s.talk.records.length
  · simpa [busAt, setBusRec, List.getD_eq_getElem?_getD, lt] using h
  · have out : busAt (setBusRec b r s) b = .empty := by
      simp [busAt, setBusRec, List.getD_eq_getElem?_getD, lt]
    rw [out]
    exact ⟨fun c hc => absurd hc List.not_mem_nil, fun d hd => by cases hd⟩

theorem busFree_issueGrant {n : NodeId} {b : Bus} {s : State} (h : BusFree n (busAt s b)) :
    BusFree n (busAt (issueGrant b s) b) := by
  unfold issueGrant
  simp only
  split
  · exact busFree_setBusRec (r := { busAt s b with serial := (busAt s b).serial + 1 }) h b s
  · split
    · exact busFree_setBusRec (r := { busAt s b with serial := (busAt s b).serial + 1 }) h b s
    · exact busFree_setBusRec (r := { busAt s b with serial := (busAt s b).serial + 1, owed := true }) h b _

/-- A purged bus holds no claim of the departed node, and none of a node that had none there. -/
theorem busFree_purgeBus_self (n m : NodeId) (s : State) (b : Bus) (h : m = n ∨ BusFree m (busAt s b)) :
    BusFree m (busAt (purgeBus n s b) b) := by
  have rest : ∀ c ∈ (busAt s b).stack.filter (fun c => decide (c.talker.node ≠ n)), c.talker.node ≠ m := by
    intro c hc
    obtain ⟨mem, other⟩ := List.mem_filter.1 hc
    rcases h with rfl | free
    · simpa using other
    · exact free.1 c mem
  unfold purgeBus
  simp only
  split
  next d hd =>
    split
    next leaves =>
      refine busFree_issueGrant (busFree_setBusRec ⟨fun c hc => rest c (List.mem_of_mem_tail hc), fun x hx => ?_⟩ b s)
      exact rest x (List.mem_of_mem_head? hx)
    next stays =>
      refine busFree_setBusRec (r := { busAt s b with stack := _ }) ⟨rest, fun x hx => ?_⟩ b s
      rcases h with rfl | free
      · rw [hd] at hx
        cases hx
        exact stays
      · exact free.2 x hx
  next hd =>
    exact busFree_setBusRec (r := { busAt s b with stack := _ }) ⟨rest, fun x hx => absurd (hd.symm.trans hx) (by simp)⟩ b s

theorem busAt_purgeBus_other {n : NodeId} {s : State} {b c : Bus} (h : c ≠ b) :
    busAt (purgeBus n s b) c = busAt s c := by
  unfold purgeBus
  simp only
  repeat' split
  · exact ((parts_issueGrant b _).2.2.2 c h).trans (busAt_setBusRec_other h _ s)
  all_goals exact busAt_setBusRec_other h _ s

theorem busFree_purgeBus {n m : NodeId} {s : State} {c : Bus} (h : BusFree m (busAt s c)) (b : Bus) :
    BusFree m (busAt (purgeBus n s b) c) := by
  by_cases same : c = b
  · subst same
    exact busFree_purgeBus_self n m s c (.inr h)
  · rw [busAt_purgeBus_other same]
    exact h

theorem busFree_purgeBuses {n m : NodeId} {c : Bus} (l : List Bus) (s : State) (h : BusFree m (busAt s c) ∨ (m = n ∧ c ∈ l)) :
    BusFree m (busAt (l.foldl (purgeBus n) s) c) := by
  induction l generalizing s with
  | nil =>
    rcases h with h | ⟨-, h⟩
    · exact h
    · cases h
  | cons b l ih =>
    refine ih _ ?_
    rcases h with h | ⟨rfl, h⟩
    · exact .inl (busFree_purgeBus h b)
    · rcases List.mem_cons.1 h with rfl | h
      · exact .inl (busFree_purgeBus_self _ _ s c (.inl rfl))
      · exact .inr ⟨rfl, h⟩

/-- No claim of a departed node stays. -/
theorem busFree_purgeTalk {m : NodeId} {c : Bus} (l : List NodeId) (s : State) (h : BusFree m (busAt s c) ∨ m ∈ l) :
    BusFree m (busAt (purgeTalk l s) c) := by
  induction l generalizing s with
  | nil => exact h.resolve_right List.not_mem_nil
  | cons n l ih =>
    refine ih _ ?_
    rcases h with h | h
    · exact .inl (busFree_purgeBuses _ s (.inl h))
    · rcases List.mem_cons.1 h with rfl | h
      · exact .inl (busFree_purgeBuses _ s (.inr ⟨rfl, by cases c <;> decide⟩))
      · exact .inr h

end Sys2Proof.Machine
end

section
/-! PROOFS. O32: a node whose absence is counted a third time leaves the map (R58, R59, R138). -/

namespace Sys2Proof.Machine

open Sys2Proof

/-- What a circuit that changes the map does (R58, R59, R138). -/
theorem circuitMap_moves {hops : List Hop} {s : State}
    (moved : s.loop.ownMap.map published ≠ (mapStep s hops s.loop.ownMap).map published) :
    let t := circuitMap hops s
    t.loop.ownMap = mapStep s hops s.loop.ownMap ∧ t.loop.mapSerial = s.loop.mapSerial + 1 ∧
      MapStands (.map t.loop.mapSerial (t.loop.ownMap.map published)) t ∧
      ∀ e ∈ s.loop.ownMap, (∀ x ∈ mapStep s hops s.loop.ownMap, x.id ≠ e.id) → ∀ b, BusFree e.id (busAt t b) := by
  intro t
  have cut (a : State) (new : List OwnMapEntry) (l : List NodeId) (j : Bool) (n : Serial) (m : List MapEntry)
      (own : a.loop.ownMap = new) :
      let u := judgeLinks (if (j && (purgeTalk l (setCopy n m (publishMap a))).isMaster) = true then
        needAllotSnap (purgeTalk l (setCopy n m (publishMap a))) else purgeTalk l (setCopy n m (publishMap a)))
      u.loop.ownMap = new ∧ u.loop.mapSerial = a.loop.mapSerial ∧
        MapStands (.map a.loop.mapSerial (new.map published)) u ∧ ∀ x ∈ l, ∀ b, BusFree x (busAt u b) := by
    intro u
    have talk : u.talk = (purgeTalk l (setCopy n m (publishMap a))).talk := by
      obtain ⟨_, _, e⟩ := judgeLinks_linked (if (j && (purgeTalk l (setCopy n m (publishMap a))).isMaster) = true then
        needAllotSnap (purgeTalk l (setCopy n m (publishMap a))) else purgeTalk l (setCopy n m (publishMap a)))
      have judged : u.talk = _ := congrArg State.talk e
      rw [judged]
      split <;> simp
    have told : MapKept (publishMap a) u := (judgeLinks_linked _).mapKept.on
      ((MapKept.ite (.of_loop (by simp) (by simp)) (.refl _)).on ((purgeTalk_mapKept _ _).on (setCopy_mapKept _ _ _)))
    have published' : (publishMap a).loop.ownMap = a.loop.ownMap ∧ (publishMap a).loop.mapSerial = a.loop.mapSerial := by
      obtain ⟨_, _, _, _, _, _, _, _, _, _, _, e⟩ := publishMap_admits a
      rw [e]
      exact ⟨rfl, rfl⟩
    refine ⟨(told.ownMap.trans published'.1).trans own, told.serial.trans published'.2, ?_, fun x hx b => ?_⟩
    · rw [← own]
      exact told.stands (publishMap_stands a)
    · have bus : busAt u b = busAt (purgeTalk l (setCopy n m (publishMap a))) b := by
        unfold busAt
        rw [talk]
      rw [bus]
      exact busFree_purgeTalk l _ (.inr hx)
  have done : t = circuitMap hops s := rfl
  unfold circuitMap at done
  simp only at done
  rw [if_neg moved] at done
  obtain ⟨own, serial, stands, free⟩ := cut
    { s with loop := { s.loop with
      ownMap := mapStep s hops s.loop.ownMap
      mapSerial := s.loop.mapSerial + 1 } }
    (mapStep s hops s.loop.ownMap) _ _ _ _ rfl
  rw [← done] at own serial stands free
  refine ⟨own, serial, ?_, fun e he gone b => free e.id ?_ b⟩
  · rw [own, serial]
    exact stands
  · refine List.mem_map.2 ⟨e, List.mem_filter.2 ⟨he, ?_⟩, rfl⟩
    simpa [inOwnMap] using gone

/-- The departure moves the published map. -/
theorem published_moves {l m : List OwnMapEntry} {e : OwnMapEntry} (he : e ∈ l) (gone : ∀ x ∈ m, x.id ≠ e.id) :
    l.map published ≠ m.map published := by
  intro same
  have mem : published e ∈ m.map published := same ▸ List.mem_map_of_mem he
  obtain ⟨x, hx, k⟩ := List.mem_map.1 mem
  exact gone x hx (congrArg MapEntry.id k)

/-- The returned frame ends the circuit at the origin (R48). -/
theorem dispatch_circuit {p : PortId} {f : Frame} {now : Nanos} {s : State}
    (rate : f.header.rate = s.start.rate) (mode : loopMode s ≠ .held ∧ loopMode s ≠ .conflict) (wrap : s.wrapAt p = .none)
    (own : f.header.origin.id = s.start.id) (origin : s.loop.role = .origin) (group : s.loop.group = some f.header.origin)
    (port : p = circuitPort s) (last : s.loop.orig.last = some f.header.count) (inTime : s.loop.orig.inTime = false) :
    dispatch p f now s = circuitMap f.header.hops { s with loop := { s.loop with
      orig := { s.loop.orig with returned := some f, inTime := true }
      circuit := some (now - s.loop.orig.sentAt).toNat } } := by
  rw [dispatch_free rate mode wrap]
  unfold dispatchRest
  rw [if_pos own]
  unfold ownIdFrame
  simp only
  rw [if_pos (by simp [State.isOrigin, origin, group]), if_pos port]
  unfold circuitEnd
  rw [if_pos (by simp [last, inTime])]

/-- The map's change reported in the terms of O32, for the state `v` a frame of hop list `hops` left of `s`. -/
structure NodeLeft (hops : List Hop) (e : OwnMapEntry) (s v : State) : Prop where
  ownMap : ∃ a, v.loop.ownMap = mapStep a hops s.loop.ownMap
  gone : ∀ x ∈ v.loop.ownMap, x.id ≠ e.id
  serial : v.loop.mapSerial = s.loop.mapSerial + 1
  stands : MapStands (.map v.loop.mapSerial (v.loop.ownMap.map published)) v
  free : ∀ b, BusFree e.id (busAt v b)
  role : v.loop.role = s.loop.role
  group : v.loop.group = s.loop.group
  start : v.start = s.start
  lock : v.lock.level = s.lock.level
  supervision : v.supervision = s.supervision

/-- A returned frame at which the third absence of a node is counted, at a port that it leaves UP. -/
theorem receive_nodeLeft {p : PortId} {arr : Arrival} {e : OwnMapEntry} {s : State} (usable : s.usable p = true)
    (wrap : s.wrapAt p = .none) (good : frameCheck arr.frame = arr.check) (loop : arr.frame.slots.isSome = true)
    (rate : arr.frame.header.rate = s.start.rate) (keeps : KeepsPartner s (s.port p) arr.frame.link)
    (mode : loopMode s ≠ .held ∧ loopMode s ≠ .conflict) (origin : s.loop.role = .origin)
    (group : s.loop.group = some arr.frame.header.origin) (own : arr.frame.header.origin.id = s.start.id)
    (port : p = circuitPort s) (last : s.loop.orig.last = some arr.frame.header.count)
    (inTime : s.loop.orig.inTime = false) (mem : e ∈ s.loop.ownMap) (absent : ∀ h ∈ arr.frame.header.hops, h.id ≠ e.id)
    (third : e.absence = 2) (only : ∀ x ∈ s.loop.ownMap, x.id = e.id → x = e) :
    NodeLeft arr.frame.header.hops e s (receive p arr s) := by
  obtain ⟨u, received, stands⟩ := receive_standing usable origin good loop keeps
  obtain ⟨start, -, -, lock, supervision, -, ⟨_, _, _, _, _, _, _, _, _, parts⟩, -⟩ := stands.toEvented
  have ownMap : u.loop.ownMap = s.loop.ownMap := by rw [parts]
  have serial : u.loop.mapSerial = s.loop.mapSerial := by rw [parts]
  have joined : u.loop.group = s.loop.group := by rw [parts]
  have circuit : circuitPort u = circuitPort s := by unfold circuitPort; rw [stands.wrapA]
  rw [received, dispatch_circuit (rate.trans (congrArg StartRec.rate start.symm)) (stands.mode mode)
    ((stands.wrapAt p).trans wrap) (own.trans (congrArg StartRec.id start.symm)) (stands.role.trans origin)
    (joined.trans group) (port.trans circuit.symm) (by rw [parts]; exact last) (by rw [parts]; exact inTime)]
  have calm (o : OrigRec) (c : Option Nat) :
      Calm u (circuitMap arr.frame.header.hops { u with loop := { u.loop with orig := o, circuit := c } }) :=
    (circuitMap_calm _ _).after rfl
  have level (o : OrigRec) (c : Option Nat) :
      (circuitMap arr.frame.header.hops { u with loop := { u.loop with orig := o, circuit := c } }).lock.level =
        u.lock.level := (circuitMap_steady _ _).lock
  have leaves (a : State) := mapStep_leaves (s := a) absent third only
  have moves (o : OrigRec) (c : Option Nat) := circuitMap_moves (hops := arr.frame.header.hops)
    (s := { u with loop := { u.loop with orig := o, circuit := c } })
    (published_moves (ownMap.symm ▸ mem) (by rw [ownMap]; exact leaves _))
  obtain ⟨map, number, publication, free⟩ := moves { u.loop.orig with returned := some arr.frame, inTime := true }
    (some (arr.now - u.loop.orig.sentAt).toNat)
  have kept := calm { u.loop.orig with returned := some arr.frame, inTime := true }
    (some (arr.now - u.loop.orig.sentAt).toNat)
  refine ⟨⟨_, map.trans (by rw [ownMap])⟩, ?_, number.trans (by rw [serial]), publication, ?_,
    kept.role.trans stands.role, kept.group.trans joined, kept.start.trans start, (level _ _).trans (by rw [lock]),
    kept.supervision.trans supervision⟩
  · rw [map, ownMap]
    exact leaves _
  · exact free e (ownMap.symm ▸ mem) (by rw [ownMap]; exact leaves _)

/-- The command that names the third absence has the whole effect of the frame. -/
theorem onlyIf_leavesMap {p : PortId} {arr : Arrival} {e : OwnMapEntry} {s : State} (origin : s.loop.role = .origin)
    (mem : e ∈ s.loop.ownMap) (h : NodeLeft arr.frame.header.hops e s (receive p arr s)) :
    onlyIf leavesMap (receive p arr) s = receive p arr s := by
  refine if_pos ?_
  unfold leavesMap State.isOrigin
  rw [h.role, h.group, origin]
  simp only [beq_self_eq_true, Bool.and_self, Bool.true_and, List.any_eq_true, Bool.not_eq_true', List.any_eq_false,
    decide_eq_true_eq]
  exact ⟨e, mem, h.gone⟩

/-- Settles O32: the port leaves the frame to the circuit end, which steps the map, publishes it and purges the talk
buses; publication and purge are then said once each. -/
theorem absentNodeLeavesMap : Obligations.AbsentNodeLeavesMap := by
  unfold Obligations.AbsentNodeLeavesMap
  refine ⟨?_, fun s => ?_, fun n b gone s => ?_⟩
  · intro p arr e s running _ usable wrap good loop rate keeps held conflict origin group own port last inTime mem absent
      third only c hc
    have left := receive_nodeLeft usable wrap good loop rate keeps ⟨held, conflict⟩ origin group own port last inTime mem
      absent third only
    have effect : ∃ f, exec c s = done f s ∧ f s = receive p arr s := by
      rcases hc with rfl | rfl
      · exact ⟨_, rfl, onlyIf_leavesMap origin mem left⟩
      · exact ⟨_, rfl, rfl⟩
    obtain ⟨f, ran, same⟩ := effect
    obtain ⟨t, next, blocks, -, -, pending⟩ := done_blocks (f := f) running
    rw [same] at blocks
    generalize receive p arr s = v at left blocks
    obtain ⟨x, settled⟩ := loop_settle_takeover v
    have loop : t.loop = { v.loop with takeover := x } := blocks.loop.trans settled
    have queue : t.queue = v.queue := by rw [blocks.queue]; simp
    have bus (b : Bus) : busAt t b = busAt v b := by unfold busAt; rw [blocks.talk]; simp
    obtain ⟨⟨a, map⟩, departed, serial, stands, free, role, sameGroup, start, lock, supervision⟩ := left
    refine ⟨t, ran.trans next, ?_⟩
    rw [loop]
    refine ⟨departed, serial, fun y hy apart few => ?_, fun i h at' first => ?_, ?_, fun b => ?_, role.trans origin,
      sameGroup, ?_, ?_, ?_, pending⟩
    · rw [map]
      exact mapStep_absent hy apart few
    · rw [map]
      exact mapStep_visited at' first
    · rw [queue]
      exact stands
    · rw [bus]
      exact free b
    · rw [blocks.start, ← start]; simp
    · rw [blocks.lock, ← lock]; simp
    · rw [blocks.supervision, ← supervision]; simp
  · refine ⟨fun before i rest items unsent first => publishMap_unsent items unsent first, publishMap_sent⟩
  · refine ⟨fun d hd same => ?_, fun other => ?_, rfl, rfl⟩
    · unfold purgeBus
      simp only [hd]
      exact if_pos same
    · unfold purgeBus
      simp only
      split
      next d hd => exact if_neg (other d hd)
      · rfl

end Sys2Proof.Machine
end

section
/-! PROOFS. The start sequence of a SOFT reset (R171, R172, R176), for O7. -/

namespace Sys2Proof.Machine

open Sys2Proof

/-! ### The state in which the start sequence finds the node -/

/-- Every block at its value after a SOFT reset (R171). -/
def softBase (tag : Byte) (s : State) : State :=
  { s with
    start := { s.start with cause := .soft, strapsRead := false, softTag := some tag }
    portA := softPort s.portA
    portB := softPort s.portB
    loop := softLoop s
    queue := .fresh s.queue.lead
    snap := .idle
    switches := []
    slots := softSlots s
    lanes := { (clearCache s).lanes with heldTalk := List.replicate 4 0 }
    gain := softGain s
    talk := { TalkRec.power with keys := freshKeys s.talk.keys }
    safety := { s.safety with
      outs := s.safety.outs.zipIdx.map fun (r, i) => softOut (tapAt s i) s.safety.panicRaw r
      panicOn := s.safety.panicRaw
      panicT := none }
    lock := ⟨s.lock.level, false, none, viewAlone s.start.id s.lock.level⟩
    supervision := { s.supervision with
      silent := false
      since := none
      timer := silenceTimer s.supervision.periodMs }
    ctl := .clear }

theorem softReset_eq (tag : Byte) (s : State) :
    softReset tag s = refreshOwnCache (rebuildOuts (startSequence (softBase tag s))) := rfl

/-- The start report of the SOFT reset (R172). -/
def softReport (tag : Byte) (s : State) : StartReport :=
  ⟨.soft, some tag, s.start.straps.map fun x => { x with holdn := s.start.holdn }, false, s.start.id, s.start.func,
    s.start.role, s.start.roleInvalid, !s.start.holdn, s.start.rate, s.start.loopName, s.lock.level⟩

/-- The pins sampled, the report raised, the node in HELD (R172, R176). -/
def softWoken (tag : Byte) (s : State) : State :=
  { softBase tag s with
    start := { s.start with
      straps := s.start.straps.map fun x => { x with holdn := s.start.holdn }
      cause := .soft, strapsRead := false, softTag := some tag, held := true }
    ctl := { ControlRec.clear with notices := [.startReport (softReport tag s)] } }

theorem startSequence_softBase (tag : Byte) (s : State) : startSequence (softBase tag s) =
    if s.start.holdn then leaveHeld (softWoken tag s) else notifyLoop .start (dropKeys .held (softWoken tag s)) := by
  cases h : s.start.holdn <;> simp [startSequence, softBase, softWoken, softReport, sampleHold, startReport, notify, h,
    ControlRec.clear, Config.noticeMax]

/-- The node has left HELD. -/
def softFreed (tag : Byte) (s : State) : State :=
  { softWoken tag s with start := { (softWoken tag s).start with held := false } }

theorem portUsable_softPort (r : PortRec) : portUsable (softPort r) = false := rfl

theorem restartUsable_softPort (r : PortRec) : restartUsable (softPort r) = softPort r := rfl

theorem usable_softFreed (tag : Byte) (s : State) (p : PortId) : (softFreed tag s).usable p = false := by
  cases p <;> rfl

/-- A key without a claim has none to drop (R144). -/
theorem dropKey_freshKeys (l : List KeyRec) : (freshKeys l).map dropKey = freshKeys l := by
  unfold freshKeys
  rw [List.map_map]
  exact List.map_congr_left fun x _ => rfl

theorem clearTalk_idem (l : List SlotEntry) :
    (l.map fun e => if e.state = .talk then { e with writer := none } else e).map
      (fun e => if e.state = .talk then { e with writer := none } else e) =
    l.map fun e => if e.state = .talk then { e with writer := none } else e := by
  rw [List.map_map]
  refine List.map_congr_left fun e _ => ?_
  by_cases h : e.state = .talk <;> simp [h]

/-! ### The three ends of the start sequence -/

/-- The notices of the reset: the report of the start first, and no gain change. -/
def noticed (l : List Notice) (s : State) : State := { s with ctl := { s.ctl with notices := s.ctl.notices ++ l } }

theorem notify_noticed {n : Notice} {s : State} (h : s.ctl.notices.length < Config.noticeMax) : notify n s = noticed [n] s := by
  unfold notify
  exact if_pos h

/-- At HOLDN the node stays in HELD (R176). -/
theorem startSequence_held {tag : Byte} {s : State} (h : s.start.holdn = false) : ∃ x y, startSequence (softBase tag s) =
    noticed [.talkDrop .held x, .loopChange y .start] (softWoken tag s) := by
  rw [startSequence_softBase, if_neg (by simp [h])]
  refine ⟨activeKeys (softWoken tag s), loopView (softWoken tag s), ?_⟩
  have drop : dropKeys .held (softWoken tag s) = noticed [.talkDrop .held (activeKeys (softWoken tag s))] (softWoken tag s) := by
    unfold dropKeys
    have same : (softWoken tag s).talk.keys.map dropKey = (softWoken tag s).talk.keys := dropKey_freshKeys s.talk.keys
    rw [same]
    rfl
  rw [drop]
  rfl

theorem modes_softFreed (tag : Byte) (s : State) : loopMode (softWoken tag s) = .held ∧
    loopMode (softFreed tag s) = .seeking := ⟨rfl, rfl⟩

/-- What follows the change of the loop record of a node that left HELD with dark ports. -/
theorem afterLoop_fresh {c : LoopCause} {old s : State} (before : loopMode old = .held)
    (mode : loopMode s = .seeking ∨ loopMode s = .isolated) (timer : s.loop.takeover = none)
    (drillA : s.portA.drill = none) (drillB : s.portB.drill = none)
    (copy : modeLosesCopy s = true → s.isMaster = true ∨ s.slots.current = false)
    (retry : s.slots.retry = none) (cond : retryCond s = false) : afterLoop c old s = notifyLoop c (rejudge s) := by
  have away : loopMode s ≠ .orphan ∧ loopMode s ≠ .held := by rcases mode with e | e <;> rw [e] <;> decide
  have stopped : takeoverCheck .held s = s := by
    unfold takeoverCheck
    rw [if_pos (by simpa using away.1), ← timer]
  have plans : dropPlans .held s = s := if_neg (by simp)
  have drill (p : PortId) : drillWrap .held s p = s := by
    unfold drillWrap
    cases p
    · simp only [State.port, drillA]
    · simp only [State.port, drillB]
  have kept : (if modeLosesCopy s then loseCurrency s else s) = s := by
    split
    next h =>
      unfold loseCurrency
      exact if_pos (by rcases copy h with k | k <;> simp [k])
    · rfl
  have judged : retryCheck (rejudge s) = rejudge s := by
    unfold retryCheck
    have same : retryCond (rejudge s) = false := cond
    rw [if_neg (by simp [same])]
    have none' : (rejudge s).slots.retry = none := retry
    rw [← none']
  have changed : viewChanged old s = true := by
    unfold viewChanged
    rw [before]
    simp [Ne.symm away.2]
  unfold afterLoop
  simp only [before, stopped, plans, drill, kept, judged, changed, Bool.true_or, if_true]

/-- The node out of HELD, its loop record not yet begun anew. -/
def freed (s : State) : State :=
  { s with
    start := { s.start with held := false }
    portA := restartUsable s.portA
    portB := restartUsable s.portB }

theorem leaveHeld_eq (s : State) : leaveHeld s = match s.start.role with
    | .master =>
      if s.loop.conflict.isSome then afterLoop .start s (freed s)
      else goDone .origin (afterLoop .start s (epochChange ⟨s.start.id, .master, s.loop.epoch + 1⟩ .origin (freed s)))
    | .deputy | .member => afterLoop .start s (freed s) := by
  unfold leaveHeld
  cases s.start.role <;> rfl

theorem freed_softWoken (tag : Byte) (s : State) : freed (softWoken tag s) = softFreed tag s := rfl

/-- Elsewhere than at a MASTER the node seeks an origin (R176). -/
theorem startSequence_seeking {tag : Byte} {s : State} (h : s.start.holdn = true) (role : s.start.role ≠ .master) :
    ∃ y, startSequence (softBase tag s) = noticed [.loopChange y .start] (rejudge (softFreed tag s)) := by
  rw [startSequence_softBase, if_pos h]
  have start : leaveHeld (softWoken tag s) = afterLoop .start (softWoken tag s) (softFreed tag s) := by
    have same : (softWoken tag s).start.role = s.start.role := rfl
    rw [leaveHeld_eq, same, freed_softWoken]
    cases k : s.start.role
    · exact absurd k role
    all_goals rfl
  rw [start, afterLoop_fresh (modes_softFreed tag s).1 (.inl (modes_softFreed tag s).2) rfl rfl rfl
    (fun _ => .inr rfl) rfl (by simp [retryCond, softFreed, softWoken, softBase, softLoop, LoopRec.power])]
  exact ⟨_, rfl⟩

/-! ### A MASTER's epoch (R62, R176) -/

theorem view_viewAlone {n id : NodeId} {l : Nat} (h : n ≠ id) : (viewAlone id l).getD n.val none = none := by
  have apart : id.val ≠ n.val := fun e => h (Fin.ext e).symm
  have lt : n.val < 8 := n.isLt
  unfold viewAlone
  rw [List.getD_eq_getElem?_getD, List.getElem?_set_ne apart, List.getElem?_replicate]
  simp [lt]

/-- A view that shows the node alone has nothing to clear. -/
theorem clearLockView_alone {s : State} {l : Nat} (h : s.lock.view = viewAlone s.start.id l) : clearLockView s = s := by
  have one (n : NodeId) : setLockView n none s = s := by
    unfold setLockView
    refine if_pos ?_
    by_cases k : n = s.start.id
    · simp [k]
    · rw [h, view_viewAlone k]
      simp
  unfold clearLockView
  exact List.foldlRecOn (motive := fun a => a = s) _ _ rfl fun a e n _ => by rw [e, one]

/-- The group of a MASTER that starts (R62). -/
def softGroup (s : State) : OriginGroup := ⟨s.start.id, .master, s.loop.epoch + 1⟩

/-- The loop record and the allotment snapshot of a MASTER's first epoch. -/
def softEpoch (tag : Byte) (s : State) : State :=
  { softFreed tag s with
    loop := epochLoop (softGroup s) .origin (softFreed tag s)
    snap := ⟨some ⟨.allot, 0, 0, 0, none, none⟩, false, false⟩ }

theorem epochHead_soft (tag : Byte) {s : State} (role : s.start.role = .master) :
    epochHead (softGroup s) .origin (softFreed tag s) = softEpoch tag s := by
  have master : s.start.role == .master := by simp [role]
  exact (if_pos master).trans rfl

/-- The LOCK_NOTE of the new epoch (R166). -/
def softNote (s : State) : QItem := ⟨0, .all, .lockNote s.lock.level, 0, none, none, some (softGroup s), .loc⟩

/-- The queue with the LOCK_NOTE, the snapshots due. -/
def softOrigin (tag : Byte) (s : State) : State :=
  { softEpoch tag s with
    queue := { QueueRec.fresh s.queue.lead with items := [softNote s], nextNum := 1 }
    snap := ⟨some ⟨.allot, 0, 0, 0, none, none⟩, false, s.start.func == .stage⟩ }

theorem talkEpoch_soft (tag : Byte) (s : State) :
    ∃ x, talkEpoch (softEpoch tag s) = noticed [.talkDrop .epoch x] (softEpoch tag s) := by
  refine ⟨activeKeys (softEpoch tag s), ?_⟩
  have keys : (softEpoch tag s).talk.keys.map dropKey = (softEpoch tag s).talk.keys := dropKey_freshKeys s.talk.keys
  have table : (softEpoch tag s).slots.table.map (fun e => if e.state = .talk then { e with writer := none } else e) =
      (softEpoch tag s).slots.table := clearTalk_idem s.slots.table
  have drop : dropKeys .epoch (softEpoch tag s) = noticed [.talkDrop .epoch (activeKeys (softEpoch tag s))] (softEpoch tag s) := by
    unfold dropKeys
    rw [keys]
    rfl
  unfold talkEpoch clearTalkEntries
  rw [drop]
  exact congrArg (fun l => ({ noticed [.talkDrop .epoch (activeKeys (softEpoch tag s))] (softEpoch tag s) with
    slots := { (softEpoch tag s).slots with table := l } } : State)) table

theorem lockEpoch_soft (tag : Byte) (s : State) (l : List Notice) : lockEpoch (noticed l (softEpoch tag s)) =
    { noticed l (softEpoch tag s) with
      queue := { QueueRec.fresh s.queue.lead with items := [softNote s], nextNum := 1 } } := by
  unfold lockEpoch
  rw [clearLockView_alone (l := s.lock.level) rfl]
  rfl

theorem epochTail_soft (tag : Byte) {s : State} (role : s.start.role = .master) :
    ∃ x, epochTail (softEpoch tag s) = noticed [.talkDrop .epoch x] (softOrigin tag s) := by
  obtain ⟨x, talk⟩ := talkEpoch_soft tag s
  have kept : loseCurrency { softEpoch tag s with slots := { (softEpoch tag s).slots with collection := none } } =
      softEpoch tag s := by
    have master : s.start.role == .master := by simp [role]
    exact (if_pos (by simp only [Bool.or_eq_true]; exact .inl master)).trans rfl
  refine ⟨x, ?_⟩
  unfold epochTail
  rw [kept, talk, lockEpoch_soft]
  cases h : s.start.func == .stage
  · exact (if_neg (by simp only [Bool.not_eq_true]; exact h)).trans (by unfold softOrigin; rw [h]; rfl)
  · exact (if_pos h).trans (by unfold softOrigin; rw [h]; rfl)

theorem mode_softOrigin (tag : Byte) (s : State) : loopMode (softOrigin tag s) = .isolated := rfl

theorem leaveHeld_origin (tag : Byte) {s : State} (role : s.start.role = .master) : leaveHeld (softWoken tag s) =
    goDone .origin (afterLoop .start (softWoken tag s) (epochChange (softGroup s) .origin (softFreed tag s))) := by
  have own : (softWoken tag s).start.role = .master := role
  have agreed : ¬ (softWoken tag s).loop.conflict.isSome = true := Bool.false_ne_true
  have group : (⟨(softWoken tag s).start.id, .master, (softWoken tag s).loop.epoch + 1⟩ : OriginGroup) = softGroup s := rfl
  rw [leaveHeld_eq, own]
  simp only
  rw [if_neg agreed, freed_softWoken, group]

/-- A MASTER starts as the ORIGIN of a new epoch, ISOLATED (R176). -/
theorem startSequence_origin {tag : Byte} {s : State} (h : s.start.holdn = true) (role : s.start.role = .master) :
    ∃ x y, startSequence (softBase tag s) =
      noticed [.talkDrop .epoch x, .loopChange y .start] (rejudge (softOrigin tag s)) := by
  obtain ⟨x, tail⟩ := epochTail_soft tag role
  have master : s.start.role == .master := by simp [role]
  have after : afterLoop .start (softWoken tag s) (noticed [.talkDrop .epoch x] (softOrigin tag s)) =
      notifyLoop .start (rejudge (noticed [.talkDrop .epoch x] (softOrigin tag s))) :=
    afterLoop_fresh (modes_softFreed tag s).1 (.inr (mode_softOrigin tag s)) rfl rfl rfl
      (fun _ => .inl master) rfl (by
        have own : (noticed [.talkDrop .epoch x] (softOrigin tag s)).isMaster = true := master
        simp [retryCond, own])
  rw [startSequence_softBase, if_pos h, leaveHeld_origin tag role, epochChange_eq, epochHead_soft tag role, tail, after]
  exact ⟨x, _, rfl⟩

end Sys2Proof.Machine
end

section
/-! PROOFS. The outputs and the gain cache after a SOFT reset (R121, R124, R146, R152), for O7. -/

namespace Sys2Proof.Machine

open Sys2Proof

/-! ### The state the outputs are rebuilt from -/

/-- The state at the end of the start sequence, its sources not yet judged and the later notices apart: HELD, SEEKING or
the ORIGIN of a new epoch (R176). -/
def softStarted (tag : Byte) (s : State) : State :=
  if s.start.holdn = false then softWoken tag s
  else if s.start.role = .master then softOrigin tag s
  else softFreed tag s

/-- What holds of all three. -/
theorem softStarted_cases (tag : Byte) (s : State) (P : State → Prop) (held : P (softWoken tag s))
    (origin : s.start.role = .master → P (softOrigin tag s)) (seeking : s.start.role ≠ .master → P (softFreed tag s)) :
    P (softStarted tag s) := by
  unfold softStarted
  split
  · exact held
  · split
    next h => exact origin h
    next h => exact seeking h

/-- The judged state of the start. -/
def softJudged (tag : Byte) (s : State) : State := rejudge (softStarted tag s)

/-- No gain change is told of. -/
def NoGain (l : List Notice) : Prop := ∀ x ∈ l, ∀ i g n c, x ≠ .gainChange i g n c

theorem softJudged_settled (tag : Byte) (s : State) : Settled (softJudged tag s) := by
  have judged (x : State) (takeover : x.loop.takeover = none) (retry : x.slots.retry = none) (cond : retryCond x = false)
      (copy : modeLosesCopy x = true → x.isMaster = true ∨ x.slots.current = false) : Settled (rejudge x) := by
    refine ⟨rejudge_taps x, rejudge_talk x, rejudge_causes x, ?_, fun h => ?_, copy⟩
    · have same : (rejudge x).slots.retry = none := retry
      have cond' : retryCond (rejudge x) = false := cond
      rw [same, cond']
      rfl
    · have same : (rejudge x).loop.takeover = none := takeover
      rw [same] at h
      cases h
  refine softStarted_cases tag s (fun x => Settled (rejudge x)) ?_ (fun role => ?_) fun _ => ?_
  · exact judged _ rfl rfl (by simp [retryCond, softWoken, softBase, softLoop, LoopRec.power]) fun _ => .inr rfl
  · have master : (softOrigin tag s).isMaster = true := by
      have own : s.start.role == .master := by simp [role]
      exact own
    exact judged _ rfl rfl (by simp [retryCond, master]) fun _ => .inl master
  · exact judged _ rfl rfl (by simp [retryCond, softFreed, softWoken, softBase, softLoop, LoopRec.power]) fun _ => .inr rfl

/-- An output record rebuilt (R146, R152). -/
def soften (s : State) (_ : Nat) (t : Tap) (r : OutRec) : OutRec :=
  if t.source = .unused then r else becomeSafe (outCtx s t) r

theorem derivedCauses_settled {s : State} (h : Settled s) {i : Nat} {r : OutRec} (hr : s.safety.outs[i]? = some r) :
    derivedCauses s (tapAt s i) r.causes = r.causes := by
  obtain ⟨orphan, lost⟩ := h.causes i r hr
  unfold derivedCauses
  rw [← orphan, ← lost]

/-- In a settled state the rebuilt causes are those that stand. -/
theorem rebuildOuts_settled {s : State} (h : Settled s) : rebuildOuts s = mapOuts (soften s) s := by
  unfold rebuildOuts
  rw [rejudge_self h]
  unfold mapOuts
  have outs : (s.safety.outs.zipIdx.map fun (r, i) => if (tapAt s i).source = .unused then r else
      becomeSafe (outCtx s (tapAt s i)) { r with causes := derivedCauses s (tapAt s i) r.causes }) =
      s.safety.outs.zipIdx.map fun (r, i) => soften s i (tapAt s i) r := by
    refine List.map_congr_left fun (r, i) hx => ?_
    have hr := List.mem_zipIdx_iff_getElem?.1 hx
    dsimp only
    rw [derivedCauses_settled h hr]
    rfl
  rw [outs]

/-- The rebuilding judges the sources itself. -/
theorem rebuildOuts_rejudge {s : State} (h : Settled (rejudge s)) : rebuildOuts s = rebuildOuts (rejudge s) := by
  have again : rebuildOuts (rejudge s) = mapOuts (fun _ t r =>
      if t.source = .unused then r
      else becomeSafe (outCtx s t) { r with causes := derivedCauses s t r.causes }) (rejudge (rejudge s)) := rfl
  rw [again, rejudge_self h]
  rfl

/-- The SOFT reset in three steps: the start, the outputs, the node's own cache entries. -/
theorem softReset_steps (tag : Byte) (s : State) : ∃ l, NoGain l ∧
    softReset tag s = refreshOwnCache (noticed l (mapOuts (soften (softJudged tag s)) (softJudged tag s))) := by
  have settled := softJudged_settled tag s
  have rebuilt (l : List Notice) : rebuildOuts (noticed l (softJudged tag s)) =
      noticed l (mapOuts (soften (softJudged tag s)) (softJudged tag s)) := by
    have same : rebuildOuts (noticed l (softJudged tag s)) = noticed l (rebuildOuts (softJudged tag s)) := rfl
    rw [same, rebuildOuts_settled settled]
  rw [softReset_eq]
  cases h : s.start.holdn with
  | false =>
    obtain ⟨x, y, start⟩ := startSequence_held (tag := tag) h
    refine ⟨[.talkDrop .held x, .loopChange y .start], fun n hn => ?_, ?_⟩
    · simp only [List.mem_cons, List.not_mem_nil, or_false] at hn
      rcases hn with rfl | rfl <;> simp
    · have form : softJudged tag s = rejudge (softWoken tag s) := by simp [softJudged, softStarted, h]
      have same (l : List Notice) (a : State) : rebuildOuts (noticed l a) = noticed l (rebuildOuts a) := rfl
      rw [start, same, rebuildOuts_rejudge (form ▸ settled), ← form, rebuildOuts_settled settled]
  | true =>
    by_cases role : s.start.role = .master
    · obtain ⟨x, y, start⟩ := startSequence_origin (tag := tag) h role
      refine ⟨[.talkDrop .epoch x, .loopChange y .start], fun n hn => ?_, ?_⟩
      · simp only [List.mem_cons, List.not_mem_nil, or_false] at hn
        rcases hn with rfl | rfl <;> simp
      · have form : softJudged tag s = rejudge (softOrigin tag s) := by simp [softJudged, softStarted, h, role]
        rw [start, ← form, rebuilt]
    · obtain ⟨y, start⟩ := startSequence_seeking (tag := tag) h role
      refine ⟨[.loopChange y .start], fun n hn => ?_, ?_⟩
      · rw [List.mem_singleton.1 hn]
        simp
      · have form : softJudged tag s = rejudge (softFreed tag s) := by simp [softJudged, softStarted, h, role]
        rw [start, ← form, rebuilt]

end Sys2Proof.Machine
end

section
/-! PROOFS. What the refreshed gain cache leaves of the taps, and the SOFT reset as a settled state (R121, R124), for
O7. -/

namespace Sys2Proof.Machine

open Sys2Proof

/-! ### The taps under the tracking rules -/

/-- The tracking rules leave a tap's source, its validity and its settings for the output; a tap that does not track
stands (R124). -/
structure TapKept (x y : Tap) : Prop where
  source : y.source = x.source
  valid : y.valid = x.valid
  safe : y.safe = x.safe
  resume : y.resume = x.resume
  fade : y.fade = x.fade
  panicFollow : y.panicFollow = x.panicFollow
  idle : x.tracking = false → y = x
  tracking : y.tracking = x.tracking

theorem TapKept.refl (x : Tap) : TapKept x x := ⟨rfl, rfl, rfl, rfl, rfl, rfl, fun _ => rfl, rfl⟩

theorem TapKept.trans {x y z : Tap} (h : TapKept x y) (k : TapKept y z) : TapKept x z :=
  ⟨k.source.trans h.source, k.valid.trans h.valid, k.safe.trans h.safe, k.resume.trans h.resume, k.fade.trans h.fade,
    k.panicFollow.trans h.panicFollow, fun idle => (k.idle (h.tracking.trans idle)).trans (h.idle idle),
    k.tracking.trans h.tracking⟩

/-- The taps moved by the tracking rules only. -/
def TapsKept (s t : State) : Prop := ∃ f : Tap → Tap, (∀ x, TapKept x (f x)) ∧ t.lanes.taps = s.lanes.taps.map f

theorem TapsKept.of_taps {s t : State} (h : t.lanes.taps = s.lanes.taps) : TapsKept s t :=
  ⟨id, .refl, by simp [h]⟩

theorem TapsKept.trans {s t u : State} (h : TapsKept s t) (k : TapsKept t u) : TapsKept s u := by
  obtain ⟨f, hf, e⟩ := h
  obtain ⟨g, hg, e'⟩ := k
  exact ⟨g ∘ f, fun x => (hf x).trans (hg _), by rw [e', e, List.map_map]⟩

theorem TapsKept.foldl {α : Type} {f : State → α → State} (h : ∀ a x, TapsKept a (f a x)) (l : List α) (s : State) :
    TapsKept s (l.foldl f s) := by
  induction l generalizing s with
  | nil => exact .of_taps rfl
  | cons x l ih => exact (h s x).trans (ih _)

theorem TapsKept.tapAt {s t : State} (h : TapsKept s t) (i : Nat) : TapKept (tapAt s i) (tapAt t i) := by
  obtain ⟨f, hf, e⟩ := h
  unfold Machine.tapAt
  rw [e, List.getD_eq_getElem?_getD, List.getD_eq_getElem?_getD, List.getElem?_map]
  cases s.lanes.taps[i]? with
  | none => exact .refl _
  | some x => exact hf x

theorem updateTaps_kept {f : Tap → Tap} (h : ∀ x, TapKept x (f x)) (s : State) : TapsKept s (updateTaps f s) :=
  ⟨f, h, List.foldlRecOn (motive := fun (a : State) => a.lanes.taps = s.lanes.taps.map f) _ _ rfl fun a e x _ => by
    simp only [parts_noticeLimit]; exact e⟩

theorem setCache_kept (n : Nat) (e : CacheEntry) (s : State) : TapsKept s (setCache n e s) := by
  have tap (x : Tap) : TapKept x
      (if tracksSlot n x then trackTap s.start.id e (ownershipEnd s.start.id (cacheAt s n) e x) else x) := by
    split
    next tracks =>
      have on : x.tracking = true := (Bool.and_eq_true_iff.1 tracks).1
      have ended : ∀ y : Tap, (ownershipEnd s.start.id (cacheAt s n) e y) = { y with
          refGain := (ownershipEnd s.start.id (cacheAt s n) e y).refGain } := by
        intro y
        unfold ownershipEnd
        repeat' split
        all_goals rfl
      have moved : ∀ y : Tap, ∃ a b c, trackTap s.start.id e y = { y with trim := a, unknown := b, limit := c } := by
        intro y
        unfold trackTap
        repeat' split
        all_goals exact ⟨_, _, _, rfl⟩
      obtain ⟨a, b, c, e'⟩ := moved (ownershipEnd s.start.id (cacheAt s n) e x)
      rw [e', ended]
      exact ⟨rfl, rfl, rfl, rfl, rfl, rfl, fun off => absurd (on.symm.trans off) (by simp), rfl⟩
    · exact .refl x
  unfold setCache
  simp only
  split
  · exact .of_taps rfl
  · exact TapsKept.trans (.of_taps rfl) (updateTaps_kept tap _)

theorem refreshOwnCache_kept (s : State) : TapsKept s (refreshOwnCache s) := by
  rw [refreshOwnCache_eq]
  split
  · refine .foldl (fun a x => ?_) _ _
    unfold ownStep
    split
    · exact setCache_kept _ _ _
    · exact .of_taps rfl
  · exact .of_taps rfl

/-- What is derived does not depend on the gain cache. -/
theorem Settled.refreshed {s : State} (h : Settled s) : Settled (refreshOwnCache s) := by
  have kept := refreshOwnCache_kept s
  obtain ⟨taps, cache, l, b, d, -, e⟩ := refreshOwnCache_cached s
  have valid (x : TapSource) : sourceValid (refreshOwnCache s) x = sourceValid s x := by rw [e]; rfl
  refine ⟨fun y hy => ?_, ?_, fun i r hr => ?_, ?_, ?_, ?_⟩
  · obtain ⟨f, hf, same⟩ := kept
    rw [same] at hy
    obtain ⟨x, hx, rfl⟩ := List.mem_map.1 hy
    rw [valid, (hf x).valid, (hf x).source]
    exact h.taps x hx
  · rw [e]
    exact h.talk
  · rw [(kept.tapAt i).source, (kept.tapAt i).valid]
    rw [e] at hr ⊢
    exact h.causes i r hr
  · rw [e]
    exact h.retry
  · rw [e]
    exact h.takeover
  · rw [e]
    exact h.copy

theorem causes_soften (s : State) (i : Nat) (t : Tap) (r : OutRec) : (soften s i t r).causes = r.causes := by
  unfold soften
  split
  · rfl
  · exact causes_becomeSafe _ _

theorem softReset_settled (tag : Byte) (s : State) : Settled (softReset tag s) := by
  obtain ⟨l, -, e⟩ := softReset_steps tag s
  have outs : Settled (mapOuts (soften (softJudged tag s)) (softJudged tag s)) :=
    mapOuts_settled (causes_soften _) (softJudged_settled tag s)
  have told : Settled (noticed l (mapOuts (soften (softJudged tag s)) (softJudged tag s))) :=
    ⟨outs.1, outs.2, outs.3, outs.4, outs.5, outs.6⟩
  rw [e]
  exact told.refreshed

/-! ### The command -/

/-- The request passes: the reset takes effect, and only OUTPUT_CHANGE follows in its notices. -/
theorem exec_resetPart {tag : Byte} {s : State} (h : Taken s) (low : s.lock.level < 3) :
    ∃ c, exec (.resetPart tag) s = .next { softReset tag (goodRequest s) with ctl := c, pending := s.pending } ∧
      c.inbox = (softReset tag (goodRequest s)).ctl.inbox ∧ c.overflow = (softReset tag (goodRequest s)).ctl.overflow ∧
      c.ops = (softReset tag (goodRequest s)).ctl.ops ∧ c.ended = (softReset tag (goodRequest s)).ctl.ended ∧
      ∃ l, NoGain l ∧ c.notices = (softReset tag (goodRequest s)).ctl.notices ++ l := by
  have pass : judgeResetPart tag (goodRequest s) = (none, softReset tag (goodRequest s)) := by
    unfold judgeResetPart
    rw [locked_goodRequest, if_neg (by simp; omega)]
  have effect : takeRequest tag (judgeResetPart tag) s = softReset tag (goodRequest s) := by
    rw [takeRequest_eq, if_neg (by rw [goodRequest_inbox]; have := h.room; omega), pass]
  have raised := (reportOutputs_raised s.safety.outs (softReset tag (goodRequest s))).notices
  obtain ⟨a, b, d, reported⟩ := reportOutputs_eq s.safety.outs (softReset tag (goodRequest s))
  obtain ⟨c, e, picked, -⟩ := pickUart_eq (reportOutputs s.safety.outs (softReset tag (goodRequest s)))
  have outcome : exec (.resetPart tag) s = .next { pickUart (reportOutputs s.safety.outs (softReset tag (goodRequest s))) with
      pending := s.pending } := by
    change done (takeRequest tag (judgeResetPart tag)) s = _
    rw [done_eq, h.running]
    unfold event
    rw [effect, settle_self (softReset_settled tag _)]
    rfl
  rw [picked] at outcome
  rw [reported] at outcome raised
  refine ⟨_, outcome, rfl, rfl, rfl, rfl, _, ?_, raised⟩
  intro x hx i g n c
  obtain ⟨y, -, rfl⟩ := List.mem_map.1 (List.mem_of_mem_take hx)
  simp

end Sys2Proof.Machine
end

section
/-! PROOFS. The gain table after a SOFT reset: notes that were sent are applied, other changes in flight are lost (R118),
for O7. -/

namespace Sys2Proof.Machine

open Sys2Proof

/-! ### One entry under the sent notes -/

/-- What a sent note does to the entry of an input. -/
def noteStep (muteMs i : Nat) (e : GainEntry) (m : LoopMsg) : GainEntry :=
  match m with
  | .gainNote k g n => if k = i ∧ newer8 n e.serial = true then appliedEntry muteMs g n e else e
  | _ => e

theorem noteStep_note (muteMs i k : Nat) (g : GainSetting) (n : GainSerial) (e : GainEntry) :
    noteStep muteMs i e (.gainNote k g n) =
      if k = i ∧ newer8 n e.serial = true then appliedEntry muteMs g n e else e := rfl

theorem applyGainQuiet_table (k : Nat) (g : GainSetting) (n : GainSerial) (s : State) :
    (applyGainQuiet k g n s).gain.muteMs = s.gain.muteMs ∧
    ∀ i, (applyGainQuiet k g n s).gain.table[i]? =
      (s.gain.table[i]?).map fun e => noteStep s.gain.muteMs i e (.gainNote k g n) := by
  simp only [noteStep_note]
  cases hk : s.gain.table[k]? with
  | none =>
    have same : applyGainQuiet k g n s = s := by
      unfold applyGainQuiet
      rw [hk]
    rw [same]
    refine ⟨rfl, fun i => ?_⟩
    by_cases e : k = i
    · rw [← e, hk]
      rfl
    · simp [e]
  | some x =>
    by_cases newer : newer8 n x.serial = true
    · have gain (r : List PreampRecord) (a : State) : (refreshInputCache k { setGainEntry k (appliedEntry s.gain.muteMs g n x) a with
          gain := { (setGainEntry k (appliedEntry s.gain.muteMs g n x) a).gain with records := r } }).gain =
          { a.gain with table := a.gain.table.set k (appliedEntry s.gain.muteMs g n x), records := r } := by
        simp [setGainEntry]
      have eq : (applyGainQuiet k g n s).gain = { s.gain with
          table := s.gain.table.set k (appliedEntry s.gain.muteMs g n x)
          records := if preampDiffers x.applied g then queueRecord (recordOf k g) s.gain.records else s.gain.records } := by
        unfold applyGainQuiet
        rw [hk]
        simp only
        rw [if_pos newer]
        exact gain _ s
      rw [eq]
      refine ⟨rfl, fun i => ?_⟩
      simp only [List.getElem?_set]
      obtain ⟨lt, -⟩ := List.getElem?_eq_some_iff.1 hk
      by_cases e : k = i
      · subst e
        rw [if_pos rfl, if_pos lt, hk]
        simp [newer]
      · simp [e]
    · have same : applyGainQuiet k g n s = s := by
        unfold applyGainQuiet
        rw [hk]
        exact if_neg newer
      rw [same]
      refine ⟨rfl, fun i => ?_⟩
      by_cases e : k = i
      · subst e
        simp [hk, newer]
      · simp [e]

/-- One sent message at the gain table. -/
def sentStep (a : State) (m : LoopMsg) : State :=
  match m with
  | .gainNote i g serial => applyGainQuiet i g serial a
  | _ => a

theorem applySentNotes_eq (s : State) : applySentNotes s = (sentNotes s).foldl sentStep s := rfl

theorem sentStep_table (a : State) (m : LoopMsg) : (sentStep a m).gain.muteMs = a.gain.muteMs ∧
    ∀ i, (sentStep a m).gain.table[i]? = (a.gain.table[i]?).map fun e => noteStep a.gain.muteMs i e m := by
  cases m
  case gainNote k g n => exact applyGainQuiet_table k g n a
  all_goals exact ⟨rfl, fun i => by simp [noteStep, sentStep]⟩

theorem applySentNotes_table (s : State) : (applySentNotes s).gain.muteMs = s.gain.muteMs ∧
    ∀ i, (applySentNotes s).gain.table[i]? =
      (s.gain.table[i]?).map fun e => (sentNotes s).foldl (noteStep s.gain.muteMs i) e := by
  rw [applySentNotes_eq]
  generalize sentNotes s = l
  induction l generalizing s with
  | nil => exact ⟨rfl, fun i => by simp⟩
  | cons m l ih =>
    obtain ⟨mute, table⟩ := sentStep_table s m
    obtain ⟨mute', table'⟩ := ih (sentStep s m)
    rw [List.foldl_cons]
    refine ⟨mute'.trans mute, fun i => ?_⟩
    rw [table' i, table i, mute, Option.map_map]
    rfl

/-! ### What the notes make of an entry -/

theorem newer8_self (n : GainSerial) : newer8 n n = false := by simp [newer8]

/-- No note is newer than the entry. -/
theorem noteStep_stays {muteMs i : Nat} {e : GainEntry} {l : List LoopMsg}
    (h : ∀ g n, .gainNote i g n ∈ l → newer8 n e.serial = false) : l.foldl (noteStep muteMs i) e = e := by
  induction l with
  | nil => rfl
  | cons m l ih =>
    have one : noteStep muteMs i e m = e := by
      cases m
      case gainNote k g n =>
        rw [noteStep_note]
        refine if_neg ?_
        rintro ⟨rfl, newer⟩
        rw [h g n (by simp)] at newer
        cases newer
      all_goals rfl
    rw [List.foldl_cons, one]
    exact ih fun g n hg => h g n (List.mem_cons_of_mem _ hg)

/-- One note is newer than the entry, and every other neither than the entry nor than it. -/
theorem noteStep_applies {muteMs i : Nat} {e : GainEntry} {l : List LoopMsg} {g : GainSetting} {n : GainSerial}
    (mem : .gainNote i g n ∈ l) (newer : newer8 n e.serial = true) (others : ∀ g' n', .gainNote i g' n' ∈ l →
      (g' = g ∧ n' = n) ∨ (newer8 n' e.serial = false ∧ newer8 n' n = false)) :
    l.foldl (noteStep muteMs i) e = appliedEntry muteMs g n e := by
  induction l with
  | nil => cases mem
  | cons m l ih =>
    have rest : ∀ g' n', .gainNote i g' n' ∈ l → (g' = g ∧ n' = n) ∨ (newer8 n' e.serial = false ∧ newer8 n' n = false) :=
      fun g' n' hg => others g' n' (List.mem_cons_of_mem _ hg)
    rw [List.foldl_cons]
    by_cases this : m = .gainNote i g n
    · rw [this, noteStep_note, if_pos ⟨rfl, newer⟩]
      refine noteStep_stays fun g' n' hg => ?_
      rcases rest g' n' hg with ⟨-, rfl⟩ | ⟨-, older⟩
      · exact newer8_self _
      · exact older
    · have one : noteStep muteMs i e m = e := by
        cases m
        case gainNote k g' n' =>
          rw [noteStep_note]
          refine if_neg ?_
          rintro ⟨rfl, newer'⟩
          rcases others g' n' (by simp) with ⟨rfl, rfl⟩ | ⟨older, -⟩
          · exact this rfl
          · rw [older] at newer'
            cases newer'
        all_goals rfl
      rw [one]
      exact ih ((List.mem_cons.1 mem).resolve_left (Ne.symm this)) rest

/-! ### The table after the reset -/

/-- A change still in flight is lost (R118). -/
def settledEntry (e : GainEntry) : GainEntry :=
  match e.inFlight with
  | some _ => lostEntry e
  | none => e

theorem settledEntry_some {e : GainEntry} (h : e.inFlight ≠ none) : settledEntry e = lostEntry e := by
  unfold settledEntry
  split
  · rfl
  next none' => exact absurd none' h

theorem settledEntry_none {e : GainEntry} (h : e.inFlight = none) : settledEntry e = e := by
  unfold settledEntry
  rw [h]

theorem softGain_table (s : State) (i : Nat) : (softGain s).table[i]? =
    (s.gain.table[i]?).map fun e => settledEntry ((sentNotes s).foldl (noteStep s.gain.muteMs i) e) := by
  have table : (softGain s).table = (applySentNotes s).gain.table.map settledEntry := rfl
  rw [table, List.getElem?_map, (applySentNotes_table s).2 i, Option.map_map]
  rfl

/-- A gain note of this node that was sent: it waits for its switch frame, or stands in the queue (R118). -/
def NoteSent (s : State) (i : Nat) (g : GainSetting) (n : GainSerial) : Prop :=
  (∃ x ∈ s.switches, x.sender = s.start.id ∧ x.item = .msg (.gainNote i g n)) ∨
    ∃ q ∈ s.queue.items, 0 < q.sends ∧ q.body = .gainNote i g n

theorem mem_sentNotes {s : State} {i : Nat} {g : GainSetting} {n : GainSerial} :
    .gainNote i g n ∈ sentNotes s ↔ NoteSent s i g n := by
  unfold sentNotes NoteSent
  rw [List.mem_append]
  refine or_congr ?_ (by simp [and_assoc])
  rw [List.mem_filterMap]
  refine exists_congr fun x => and_congr_right fun _ => ?_
  split
  next m e =>
    rw [e]
    split
    next own => simp [own]
    next other => simp [other]
  next k e => simp [e]

theorem phantom_muteAfter (muteMs : Nat) (a b : GainSetting) (t : Timer) : muteAfter muteMs a b t =
    if a.phantom ≠ b.phantom ∧ muteMs ≠ 0 then some (muteMs * 96) else t := by
  have ticks : ticksOf muteMs = muteMs * 96 := rfl
  simp [muteAfter, ticks]

/-- An entry with nothing in flight after the application. -/
theorem appliedEntry_landed {muteMs : Nat} {g : GainSetting} {n : GainSerial} {e : GainEntry}
    (h : (appliedEntry muteMs g n e).inFlight = none) : appliedEntry muteMs g n e =
      { e with applied := g, serial := n, inFlight := none, mute := muteAfter muteMs e.applied g e.mute } :=
  calc appliedEntry muteMs g n e
      = { appliedEntry muteMs g n e with inFlight := (appliedEntry muteMs g n e).inFlight } := rfl
    _ = { appliedEntry muteMs g n e with inFlight := none } := by rw [h]

/-- The gain clauses of O7. -/
theorem softGain_entries (s : State) (i : Nat) (e : GainEntry) (h : s.gain.table[i]? = some e) :
    ((∀ g n, NoteSent s i g n → newer8 n e.serial = false) → e.inFlight = none →
      (softGain s).table[i]? = some e) ∧
    ((∀ g n, NoteSent s i g n → newer8 n e.serial = false) → e.inFlight ≠ none → (softGain s).table[i]? = some
      { e with inFlight := none, issued := e.issued + 1, serial := e.issued + 1 }) ∧
    (∀ g n, NoteSent s i g n → newer8 n e.serial = true →
      (∀ g' n', NoteSent s i g' n' → (g' = g ∧ n' = n) ∨ (newer8 n' e.serial = false ∧ newer8 n' n = false)) →
      let now := { e with
        applied := g, serial := n, inFlight := none
        mute := if e.applied.phantom ≠ g.phantom ∧ s.gain.muteMs ≠ 0 then some (s.gain.muteMs * 96) else e.mute }
      (e.inFlight = none ∨ e.inFlight = some ⟨g, n⟩ → (softGain s).table[i]? = some now) ∧
      (∀ f, e.inFlight = some f → f.serial ≠ n → (softGain s).table[i]? = some
        { now with issued := e.issued + 1, serial := e.issued + 1 })) := by
  have table := softGain_table s i
  rw [h, Option.map_some] at table
  have stays (quiet : ∀ g n, NoteSent s i g n → newer8 n e.serial = false) :
      (sentNotes s).foldl (noteStep s.gain.muteMs i) e = e := noteStep_stays fun g n hg => quiet g n (mem_sentNotes.1 hg)
  refine ⟨fun quiet idle => ?_, fun quiet flight => ?_, fun g n sent newer others => ?_⟩
  · rw [table, stays quiet, settledEntry_none idle]
  · rw [table, stays quiet, settledEntry_some flight]
    rfl
  · have applies : (sentNotes s).foldl (noteStep s.gain.muteMs i) e = appliedEntry s.gain.muteMs g n e :=
      noteStep_applies (mem_sentNotes.2 sent) newer fun g' n' hg => others g' n' (mem_sentNotes.1 hg)
    rw [table, applies]
    intro now
    refine ⟨fun flight => ?_, fun f flight other => ?_⟩
    · have idle : (appliedEntry s.gain.muteMs g n e).inFlight = none := by
        rcases flight with k | k <;> simp [appliedEntry, k]
      rw [settledEntry_none idle, appliedEntry_landed idle, phantom_muteAfter]
    · have flying : (appliedEntry s.gain.muteMs g n e).inFlight ≠ none := by simp [appliedEntry, flight, other]
      rw [settledEntry_some flying]
      unfold lostEntry appliedEntry
      rw [phantom_muteAfter]

end Sys2Proof.Machine
end

section
/-! PROOFS. Outputs and taps after a SOFT reset (R100, R124, R146, R152), for O7. -/

namespace Sys2Proof.Machine

open Sys2Proof

/-! ### The taps -/

/-- The reset leaves no tracked gain known, and judges every source anew (R121, R124). -/
theorem taps_softJudged (tag : Byte) (s : State) : (softJudged tag s).lanes.taps = s.lanes.taps.map fun x =>
    { x with unknown := x.unknown || x.tracking, valid := sourceValid (softJudged tag s) x.source } := by
  have start : (softStarted tag s).lanes.taps =
      s.lanes.taps.map fun x => if x.tracking then { x with unknown := true } else x :=
    softStarted_cases tag s (fun a => a.lanes.taps = _) rfl (fun _ => rfl) fun _ => rfl
  have judged : (softJudged tag s).lanes.taps = (softStarted tag s).lanes.taps.map fun x =>
      { x with valid := sourceValid (softJudged tag s) x.source } := rfl
  rw [judged, start, List.map_map]
  refine List.map_congr_left fun x _ => ?_
  cases h : x.tracking <;> simp [h]

/-- The settings of a tap that the outputs look at. -/
theorem tapAt_softJudged (tag : Byte) (s : State) (i : Nat) :
    (tapAt (softJudged tag s) i).source = (tapAt s i).source ∧
    (tapAt (softJudged tag s) i).resume = (tapAt s i).resume ∧
    (tapAt (softJudged tag s) i).fade = (tapAt s i).fade := by
  unfold tapAt
  rw [taps_softJudged, List.getD_eq_getElem?_getD, List.getD_eq_getElem?_getD, List.getElem?_map]
  cases s.lanes.taps[i]? <;> exact ⟨rfl, rfl, rfl⟩

/-! ### The outputs -/

theorem onCauses_unused {c : OutCtx} {set : CauseSet} {r : OutRec} (h : r.state = .unused) :
    onCauses c set r = { r with causes := set } := by
  unfold onCauses
  simp only [h]
  repeat' split
  all_goals rfl

theorem outs_rejudge_unused {s : State} {i : Nat} {q : OutRec} (h : s.safety.outs[i]? = some q)
    (unused : q.state = .unused) : ∃ o l, (rejudge s).safety.outs[i]? =
      some { q with causes := { q.causes with orphan := o, sourceLost := l } } := by
  have sync (a : State) (ha : a.safety.outs[i]? = some q) : (syncCauses a).safety.outs[i]? =
      some { q with causes := derivedCauses a (tapAt a i) q.causes } := by
    simp only [syncCauses, mapOuts, List.getElem?_map, List.getElem?_zipIdx, ha, Option.map_some, Nat.zero_add,
      onCauses_unused unused]
  exact ⟨_, _, sync _ h⟩

/-- An output before its resume: as the reset leaves it, its ORPHAN and SOURCE_LOST as they now stand. -/
theorem outs_softJudged (tag : Byte) {s : State} {i : Nat} {r : OutRec} (h : s.safety.outs[i]? = some r) :
    ∃ o l, (softJudged tag s).safety.outs[i]? = some { softOut (tapAt s i) s.safety.panicRaw r with
      causes := ⟨s.safety.panicRaw && (tapAt s i).panicFollow, o, l, r.causes.forced⟩ } := by
  have start : (softStarted tag s).safety.outs =
      s.safety.outs.zipIdx.map fun (r, i) => softOut (tapAt s i) s.safety.panicRaw r :=
    softStarted_cases tag s (fun a => a.safety.outs = _) rfl (fun _ => rfl) fun _ => rfl
  have at' : (softStarted tag s).safety.outs[i]? = some (softOut (tapAt s i) s.safety.panicRaw r) := by
    rw [start, List.getElem?_map, List.getElem?_zipIdx, h]
    simp
  exact outs_rejudge_unused at' rfl

/-- What the end of a safe state does to a record at rest (R152). -/
structure Resumed (c : OutCtx) (x y : OutRec) : Prop where
  causes : y.causes = x.causes
  pos : y.pos = 0
  fallback : y.fallback = x.fallback
  fbInput : y.fbInput = x.fbInput
  safe : causesEmpty x.causes = false → y.state = .safe ∧ y.hold = none ∧ y.stage = .none
  await : causesEmpty x.causes = true → c.waits = true → y.state = .safe ∧ y.hold = none ∧ y.stage = .await
  hold : causesEmpty x.causes = true → c.waits = false → c.hold ≠ 0 →
    y.state = .safe ∧ y.hold = some c.hold ∧ y.stage = .hold
  fade : causesEmpty x.causes = true → c.waits = false → c.hold = 0 →
    y.state = (if c.len = 0 then .live else .fadingIn) ∧ y.hold = none ∧ y.stage = .none

theorem becomeSafe_resumed (c : OutCtx) (r : OutRec) : Resumed c r (becomeSafe c r) := by
  unfold becomeSafe
  simp only
  cases empty : causesEmpty r.causes with
  | false =>
    rw [if_neg Bool.false_ne_true]
    exact ⟨rfl, rfl, rfl, rfl, fun _ => ⟨rfl, rfl, rfl⟩, by simp [empty], by simp [empty], by simp [empty]⟩
  | true =>
    rw [if_pos rfl]
    unfold beginResume
    cases waits : c.waits with
    | true =>
      rw [if_pos rfl]
      exact ⟨rfl, rfl, rfl, rfl, by simp [empty], fun _ _ => ⟨rfl, rfl, rfl⟩, by simp [waits], by simp [waits]⟩
    | false =>
      rw [if_neg Bool.false_ne_true]
      by_cases hold : c.hold = 0
      · rw [if_pos hold]
        exact ⟨rfl, rfl, rfl, rfl, by simp [empty], by simp [waits], fun _ _ k => absurd hold k,
          fun _ _ _ => ⟨rfl, rfl, rfl⟩⟩
      · rw [if_neg hold]
        exact ⟨rfl, rfl, rfl, rfl, by simp [empty], by simp [waits], fun _ _ _ => ⟨rfl, rfl, rfl⟩,
          fun _ _ k => absurd k hold⟩

/-- The last two steps of the reset leave the blocks of the judged start, the outputs, taps and cache apart. -/
theorem softReset_last (tag : Byte) (s : State) : ∃ taps cache o c, cache.length = s.lanes.cache.length ∧
    softReset tag s = { softJudged tag s with
      lanes := { (softJudged tag s).lanes with taps := taps, cache := cache }
      safety := { (softJudged tag s).safety with outs := o }
      ctl := c } ∧ o = (softJudged tag s).safety.outs.zipIdx.map fun (r, i) =>
        soften (softJudged tag s) i (tapAt (softJudged tag s) i) r := by
  obtain ⟨l, -, e⟩ := softReset_steps tag s
  obtain ⟨taps, cache, n, b, d, length, e'⟩ :=
    refreshOwnCache_cached (noticed l (mapOuts (soften (softJudged tag s)) (softJudged tag s)))
  have same : (softStarted tag s).lanes.cache.length = s.lanes.cache.length :=
    softStarted_cases tag s (fun a => a.lanes.cache.length = _) (List.length_map _) (fun _ => List.length_map _)
      fun _ => List.length_map _
  rw [e, e']
  exact ⟨taps, cache, _, _, length.trans same, rfl, rfl⟩

theorem sourceValid_softReset (tag : Byte) (s : State) (x : TapSource) :
    sourceValid (softReset tag s) x = sourceValid (softJudged tag s) x := by
  obtain ⟨taps, cache, o, c, -, e, -⟩ := softReset_last tag s
  rw [e]
  rfl

theorem softReset_kept (tag : Byte) (s : State) : TapsKept (softJudged tag s) (softReset tag s) := by
  obtain ⟨l, -, e⟩ := softReset_steps tag s
  rw [e]
  exact TapsKept.trans (.of_taps rfl) (refreshOwnCache_kept _)

/-- A tap that does not track, or any tap where no own entry comes back (R124). -/
theorem softReset_tap (tag : Byte) {s : State} {i : Nat} {x : Tap} (h : s.lanes.taps[i]? = some x)
    (still : x.tracking = false ∨ s.start.role ≠ .master ∨ s.start.func ≠ .stage) :
    (softReset tag s).lanes.taps[i]? = some { x with
      unknown := x.unknown || x.tracking, valid := sourceValid (softReset tag s) x.source } := by
  have judged : (softJudged tag s).lanes.taps[i]? = some { x with
      unknown := x.unknown || x.tracking, valid := sourceValid (softReset tag s) x.source } := by
    rw [taps_softJudged, List.getElem?_map, h, sourceValid_softReset]
    rfl
  rcases still with idle | other
  · obtain ⟨f, hf, e⟩ := softReset_kept tag s
    rw [e, List.getElem?_map, judged, Option.map_some]
    exact congrArg some ((hf _).idle idle)
  · obtain ⟨l, -, e⟩ := softReset_steps tag s
    have plain (a : State) (own : a.start.role = s.start.role) (func : a.start.func = s.start.func)
        (current : a.slots.current = false) : refreshOwnCache a = a := by
      refine if_neg ?_
      simp only [State.isStage, copyCurrent, State.isMaster, own, func, current, Bool.or_false, Bool.and_eq_true,
        beq_iff_eq]
      exact fun k => other.elim (fun m => m k.2) fun m => m k.1
    have parts : (softStarted tag s).start.role = s.start.role ∧ (softStarted tag s).start.func = s.start.func ∧
        (softStarted tag s).slots.current = false :=
      softStarted_cases tag s (fun a => a.start.role = _ ∧ a.start.func = _ ∧ a.slots.current = false)
        ⟨rfl, rfl, rfl⟩ (fun _ => ⟨rfl, rfl, rfl⟩) fun _ => ⟨rfl, rfl, rfl⟩
    have untouched : refreshOwnCache (noticed l (mapOuts (soften (softJudged tag s)) (softJudged tag s))) =
        noticed l (mapOuts (soften (softJudged tag s)) (softJudged tag s)) := plain _ parts.1 parts.2.1 parts.2.2
    have taps : (softReset tag s).lanes.taps = (softJudged tag s).lanes.taps := by
      rw [e, untouched]
      rfl
    rw [taps]
    exact judged

/-- The parts of the start that the outputs' contexts look at. -/
theorem outCtx_softJudged (tag : Byte) (s : State) (t : Tap) : outCtx (softJudged tag s) t =
    ⟨fadeLen s.start.rate t, ticksOf s.safety.holdMs, t.resume == .manual, match t.safe with
      | .mute => false
      | .fallback _ => true⟩ := by
  have parts : (softJudged tag s).start.rate = s.start.rate ∧ (softJudged tag s).safety.holdMs = s.safety.holdMs ∧
      (softJudged tag s).supervision.silent = false :=
    softStarted_cases tag s
      (fun a => (rejudge a).start.rate = _ ∧ (rejudge a).safety.holdMs = _ ∧ (rejudge a).supervision.silent = false)
      ⟨rfl, rfl, rfl⟩ (fun _ => ⟨rfl, rfl, rfl⟩) fun _ => ⟨rfl, rfl, rfl⟩
  obtain ⟨rate, hold, silent⟩ := parts
  unfold outCtx
  rw [rate, hold, silent]
  simp only [Bool.not_false, Bool.and_true] <;> rfl

/-- A tap beyond the table drives nothing. -/
theorem tapAt_valid {s : State} (h : Settled s) (i : Nat) :
    ((tapAt s i).source != .unused && !(tapAt s i).valid) =
      ((tapAt s i).source != .unused && !sourceValid s (tapAt s i).source) := by
  unfold tapAt
  rw [List.getD_eq_getElem?_getD]
  cases hx : s.lanes.taps[i]? with
  | none => rfl
  | some x =>
    have valid := h.taps x (List.mem_of_getElem? hx)
    simp only [Option.getD_some]
    rw [valid]

/-- An output after the reset (R146, R147, R150, R152). -/
theorem softReset_out (tag : Byte) {s : State} {n : Nat} {r : OutRec} (h : s.safety.outs[n]? = some r) :
    let x := tapAt s n
    let t := softReset tag s
    ∃ r', t.safety.outs[n]? = some r' ∧ r'.causes = ⟨s.safety.panicRaw && x.panicFollow,
        orphanMode (loopMode t), x.source != .unused && !sourceValid t x.source, r.causes.forced⟩ ∧
      r'.pos = 0 ∧ r'.fallback = 0 ∧ (∀ i, x.safe = .fallback i → r'.fbInput = i) ∧
      (x.source = .unused → r'.state = .unused ∧ r'.hold = none ∧ r'.stage = .none) ∧
      (x.source ≠ .unused →
        (causesEmpty r'.causes = false → r'.state = .safe ∧ r'.hold = none ∧ r'.stage = .none) ∧
        (causesEmpty r'.causes = true → x.resume = .manual →
          r'.state = .safe ∧ r'.hold = none ∧ r'.stage = .await) ∧
        (causesEmpty r'.causes = true → x.resume ≠ .manual → s.safety.holdMs ≠ 0 →
          r'.state = .safe ∧ r'.hold = some (s.safety.holdMs * 96) ∧ r'.stage = .hold) ∧
        (causesEmpty r'.causes = true → x.resume ≠ .manual → s.safety.holdMs = 0 →
          r'.state = (if x.fade = 0 then .live else .fadingIn) ∧ r'.hold = none ∧ r'.stage = .none)) := by
  intro x t
  obtain ⟨o, l, judged⟩ := outs_softJudged tag h
  obtain ⟨source, resume, fade⟩ := tapAt_softJudged tag s n
  generalize hq : ({ softOut (tapAt s n) s.safety.panicRaw r with
      causes := ⟨s.safety.panicRaw && (tapAt s n).panicFollow, o, l, r.causes.forced⟩ } : OutRec) = q at judged
  have fallback (i : Nat) (hi : x.safe = .fallback i) : q.fbInput = i := by
    rw [← hq]
    unfold softOut
    rw [show (tapAt s n).safe = .fallback i from hi]
  have out : t.safety.outs[n]? = some (soften (softJudged tag s) n (tapAt (softJudged tag s) n) q) := by
    obtain ⟨taps, cache, outs, c, -, e, rebuilt⟩ := softReset_last tag s
    have safety : t.safety.outs = outs := congrArg (fun a => a.safety.outs) e
    rw [safety, rebuilt, List.getElem?_map, List.getElem?_zipIdx, judged]
    simp
  have causes : (soften (softJudged tag s) n (tapAt (softJudged tag s) n) q).causes = ⟨s.safety.panicRaw && x.panicFollow,
      orphanMode (loopMode t), x.source != .unused && !sourceValid t x.source, r.causes.forced⟩ := by
    have settled : Settled t := softReset_settled tag s
    obtain ⟨orphan, lost⟩ := settled.causes n _ out
    have tap := ((softReset_kept tag s).tapAt n).source.trans source
    rw [tapAt_valid settled, tap] at lost
    have own := causes_soften (softJudged tag s) n (tapAt (softJudged tag s) n) q
    rw [own] at orphan lost ⊢
    rw [← orphan, ← lost, ← hq]
  refine ⟨_, out, causes, ?_⟩
  have empty := causes_soften (softJudged tag s) n (tapAt (softJudged tag s) n) q
  rw [empty]
  unfold soften
  rw [source]
  by_cases unused : (tapAt s n).source = .unused
  · rw [if_pos unused]
    exact ⟨by rw [← hq]; rfl, by rw [← hq]; rfl, fallback, fun _ => by rw [← hq]; exact ⟨rfl, rfl, rfl⟩,
      fun k => absurd unused k⟩
  · rw [if_neg unused, outCtx_softJudged]
    have resumed := becomeSafe_resumed (⟨fadeLen s.start.rate (tapAt (softJudged tag s) n), ticksOf s.safety.holdMs,
      (tapAt (softJudged tag s) n).resume == .manual, match (tapAt (softJudged tag s) n).safe with
        | .mute => false
        | .fallback _ => true⟩ : OutCtx) q
    have ticks : ticksOf s.safety.holdMs = s.safety.holdMs * 96 := rfl
    have per : framesPerMs s.start.rate ≠ 0 := by cases s.start.rate <;> decide
    refine ⟨resumed.pos, resumed.fallback.trans (by rw [← hq]; rfl), fun i hi => resumed.fbInput.trans (fallback i hi),
      fun k => absurd k unused, fun _ => ⟨resumed.safe, fun free manual => resumed.await free ?_,
        fun free auto some' => ?_, fun free auto zero => ?_⟩⟩
    · simp only [resume, beq_iff_eq]
      exact manual
    · have waits : ((tapAt (softJudged tag s) n).resume == .manual) = false := by
        rw [resume]
        simpa using auto
      have held := resumed.hold free waits (Nat.mul_ne_zero some' (by decide))
      rw [← ticks]
      exact held
    · have waits : ((tapAt (softJudged tag s) n).resume == .manual) = false := by
        rw [resume]
        simpa using auto
      have faded := resumed.fade free waits (by rw [ticks, zero])
      have len : (fadeLen s.start.rate (tapAt (softJudged tag s) n) = 0) ↔ x.fade = 0 := by
        unfold fadeLen
        rw [fade, Nat.mul_eq_zero]
        exact ⟨fun k => k.resolve_right per, .inl⟩
      simp only [len] at faded
      exact faded

end Sys2Proof.Machine
end

section
/-! PROOFS. Notices, gain cache and blocks after a SOFT reset (R121, R171, R172), for O7. -/

namespace Sys2Proof.Machine

open Sys2Proof

/-! ### The notices -/

theorem NoGain.notify {n : Notice} {s : State} (h : NoGain s.ctl.notices) (hn : ∀ i g m c, n ≠ .gainChange i g m c) :
    NoGain (notify n s).ctl.notices := by
  unfold Machine.notify
  split
  · intro x hx
    rcases List.mem_append.1 hx with hx | hx
    · exact h x hx
    · rw [List.mem_singleton.1 hx]
      exact hn
  · exact h

theorem NoGain.updateTaps {s : State} (h : NoGain s.ctl.notices) (f : Tap → Tap) :
    NoGain (updateTaps f s).ctl.notices := by
  have one (i : Nat) (x y : Tap) (a : State) (k : NoGain a.ctl.notices) : NoGain (noticeLimit i x y a).ctl.notices := by
    unfold noticeLimit
    repeat' split
    · exact k.notify fun _ _ _ _ => by simp
    all_goals exact k
  exact List.foldlRecOn (motive := fun (a : State) => NoGain a.ctl.notices) _ _ h fun a k x _ => one _ _ _ a k

theorem NoGain.refreshOwnCache {s : State} (h : NoGain s.ctl.notices) : NoGain (refreshOwnCache s).ctl.notices := by
  have cached (n : Nat) (e : CacheEntry) (a : State) (k : NoGain a.ctl.notices) :
      NoGain (setCache n e a).ctl.notices := by
    unfold setCache
    simp only
    split
    · exact k
    · exact NoGain.updateTaps (s := { a with lanes := { a.lanes with cache := a.lanes.cache.set n e } }) k _
  have step (a : State) (x : Nat × Nat) (k : NoGain a.ctl.notices) : NoGain (ownStep a x).ctl.notices := by
    unfold ownStep
    split
    · exact cached _ _ a k
    · exact k
  rw [refreshOwnCache_eq]
  split
  · exact List.foldlRecOn (motive := fun (a : State) => NoGain a.ctl.notices) _ _ h fun a k x _ => step a x k
  · exact h

/-- The Control Port after the reset: the report of the start stands first (R172, R185). -/
theorem softReset_ctl (tag : Byte) (s : State) : ∃ n b d,
    (softReset tag s).ctl = { ControlRec.clear with notices := n, lost := b, discarded := d } ∧
      n.head? = some (.startReport (softReport tag s)) ∧ NoGain n := by
  obtain ⟨l, quiet, e⟩ := softReset_steps tag s
  have begun : (noticed l (mapOuts (soften (softJudged tag s)) (softJudged tag s))).ctl =
      { ControlRec.clear with notices := .startReport (softReport tag s) :: l } :=
    softStarted_cases tag s
      (fun a => { a.ctl with notices := a.ctl.notices ++ l } =
        { ControlRec.clear with notices := .startReport (softReport tag s) :: l }) rfl (fun _ => rfl) fun _ => rfl
  generalize noticed l (mapOuts (soften (softJudged tag s)) (softJudged tag s)) = w at e begun
  obtain ⟨more, report⟩ := (refreshOwnCache_steady w).notices
  have noGain : NoGain (refreshOwnCache w).ctl.notices := by
    refine NoGain.refreshOwnCache fun x hx => ?_
    rw [begun] at hx
    rcases List.mem_cons.1 hx with rfl | hx
    · exact fun _ _ _ _ => by simp
    · exact quiet x hx
  obtain ⟨_, _, n, b, d, -, e'⟩ := refreshOwnCache_cached w
  have ctl : (refreshOwnCache w).ctl = { ControlRec.clear with notices := n, lost := b, discarded := d } := by
    rw [e']
    simp only [begun]
  rw [e]
  rw [ctl, begun] at report
  rw [ctl] at noGain
  refine ⟨n, b, d, ctl, ?_, noGain⟩
  have list : n = .startReport (softReport tag s) :: (l ++ more) := report.symm
  rw [list]
  rfl

/-! ### The gain cache (R121) -/

/-- A slot without an own entry in the gain table stands. -/
theorem cacheAt_refreshOwnCache_still {s : State} {i : Nat}
    (h : s.isStage = true → copyCurrent s = true → ∀ k, (i, k) ∈ slotsOf s s.start.id → s.gain.table[k]? = none) :
    cacheAt (refreshOwnCache s) i = cacheAt s i := by
  rw [refreshOwnCache_eq]
  split
  next own =>
    rw [Bool.and_eq_true] at own
    refine cacheAt_foldl_still ownStep_cached ?_
    rintro ⟨n, m⟩ hn a ha
    by_cases same : i = n
    · subst same
      obtain ⟨-, -, -, -, -, -, gain, -⟩ := ha.blocks
      have empty := h own.1 own.2 m hn
      unfold ownStep
      simp only [gain, empty]
    · exact cacheAt_ownStep_other same
  · rfl

theorem mem_slotsOf_entryAt {s : State} {w : NodeId} {n k : Nat} : (n, k) ∈ slotsOf s w ↔
    (entryAt s n).state = .assigned ∧ (entryAt s n).writer = some w ∧ (entryAt s n).input = some k := by
  rw [mem_slotsOf]
  unfold entryAt
  rw [List.getD_eq_getElem?_getD]
  cases s.slots.table[n]? with
  | none => simp [slotFree]
  | some e => simp

/-- The blocks in which a refreshed state agrees with the one before. -/
theorem softReset_cache (tag : Byte) (s : State) (n : Nat) (x : CacheEntry)
    (h : (softReset tag s).lanes.cache[n]? = some x) (v : GainSetting × GainSerial) : x = some v ↔
      s.start.role = .master ∧ s.start.func = .stage ∧ (entryAt (softReset tag s) n).state = .assigned ∧
        (entryAt (softReset tag s) n).writer = some s.start.id ∧ ∃ inp g,
          (entryAt (softReset tag s) n).input = some inp ∧
          (softReset tag s).gain.table[inp]? = some g ∧ v = (g.applied, g.serial) := by
  obtain ⟨l, -, e⟩ := softReset_steps tag s
  have parts : (softStarted tag s).start.role = s.start.role ∧ (softStarted tag s).start.func = s.start.func ∧
      (softStarted tag s).start.id = s.start.id ∧ (softStarted tag s).slots.current = false ∧
      (softStarted tag s).lanes.cache = s.lanes.cache.map fun _ => none :=
    softStarted_cases tag s (fun a => a.start.role = _ ∧ a.start.func = _ ∧ a.start.id = _ ∧ a.slots.current = false ∧
      a.lanes.cache = _) ⟨rfl, rfl, rfl, rfl, rfl⟩ (fun _ => ⟨rfl, rfl, rfl, rfl, rfl⟩) fun _ => ⟨rfl, rfl, rfl, rfl, rfl⟩
  have parts' : (noticed l (mapOuts (soften (softJudged tag s)) (softJudged tag s))).start.role = s.start.role ∧
      (noticed l (mapOuts (soften (softJudged tag s)) (softJudged tag s))).start.func = s.start.func ∧
      (noticed l (mapOuts (soften (softJudged tag s)) (softJudged tag s))).start.id = s.start.id ∧
      (noticed l (mapOuts (soften (softJudged tag s)) (softJudged tag s))).slots.current = false ∧
      (noticed l (mapOuts (soften (softJudged tag s)) (softJudged tag s))).lanes.cache = s.lanes.cache.map fun _ => none :=
    parts
  generalize noticed l (mapOuts (soften (softJudged tag s)) (softJudged tag s)) = w at e parts'
  obtain ⟨role, func, id, current, cache⟩ := parts'
  have cached := refreshOwnCache_cached w
  obtain ⟨-, -, -, -, -, slots, gain, -⟩ := cached.blocks
  have entry : entryAt (refreshOwnCache w) n = entryAt w n := by unfold entryAt; rw [slots]
  have empty : cacheAt w n = none := by
    unfold cacheAt
    rw [cache, List.getD_eq_getElem?_getD, List.getElem?_map]
    cases s.lanes.cache[n]? <;> rfl
  rw [e] at h ⊢
  have at' : cacheAt (refreshOwnCache w) n = x := by
    unfold cacheAt
    rw [List.getD_eq_getElem?_getD, h]
    rfl
  have lt : n < w.lanes.cache.length := by
    rw [← cached.length]
    exact (List.getElem?_eq_some_iff.1 h).1
  have copy : copyCurrent w = true ↔ s.start.role = .master := by
    simp [copyCurrent, State.isMaster, role, current]
  rw [← at', entry, gain, ← id]
  constructor
  · intro own
    by_contra missing
    rw [cacheAt_refreshOwnCache_still, empty] at own
    · cases own
    intro stage master k hk
    obtain ⟨assigned, writer, input⟩ := mem_slotsOf_entryAt.1 hk
    by_contra some'
    obtain ⟨g, hg⟩ := Option.ne_none_iff_exists'.1 some'
    rw [cacheAt_refreshOwnCache_mine ((isStage_iff w).1 stage) master hk hg lt] at own
    exact missing ⟨copy.1 master, func.symm.trans ((isStage_iff w).1 stage), assigned, writer, k, g, input, hg,
      (Option.some.inj own).symm⟩
  · rintro ⟨master, stage, assigned, writer, k, g, input, hg, rfl⟩
    exact cacheAt_refreshOwnCache_mine (func.trans stage) (copy.2 master) (mem_slotsOf_entryAt.2 ⟨assigned, writer, input⟩)
      hg lt

end Sys2Proof.Machine
end

section
/-! PROOFS. O7: a SOFT reset (R171, R172, R176). -/

namespace Sys2Proof.Machine

open Sys2Proof

/-! ### The blocks after the reset -/

/-- What the reset makes of the blocks beside the outputs, the gain table, the gain cache and the Control Port, whatever
the role and HOLDN. -/
structure SoftBlocks (tag : Byte) (s t : State) : Prop where
  start : t.start = { s.start with
    straps := s.start.straps.map fun x => { x with holdn := s.start.holdn }
    cause := .soft, strapsRead := false, softTag := some tag, held := !s.start.holdn }
  ports : ∀ p, t.port p = softPort (s.port p)
  lock : t.lock = ⟨s.lock.level, false, none, viewAlone s.start.id s.lock.level⟩
  queue : t.queue.lead = s.queue.lead ∧ t.queue.outstanding = none ∧ t.queue.written = none
  switches : t.switches = []
  loop : t.loop.count = 0 ∧ t.loop.wrapA = .none ∧ t.loop.wrapB = .none ∧ t.loop.timeout = 0 ∧
    t.loop.takeover = none ∧ t.loop.circuit = none ∧ t.loop.conflict = none ∧ t.loop.visits = [] ∧
    t.loop.plan = none ∧ t.loop.restart = .idle ∧ t.loop.lastActed = List.replicate 8 none ∧
    t.loop.links = List.replicate 16 none ∧ t.loop.formerOwn = formerAfter s
  recovery : t.loop.policy = s.loop.policy ∧ t.loop.healDelay = s.loop.healDelay ∧
    t.loop.takeoverMs = s.loop.takeoverMs ∧ t.loop.preempt = s.loop.preempt
  slots : t.slots = softSlots s
  gain : t.gain = softGain s
  talk : t.talk = { TalkRec.power with keys := freshKeys s.talk.keys }
  heldTalk : t.lanes.heldTalk = List.replicate 4 0
  times : t.safety.holdMs = s.safety.holdMs ∧ t.safety.filterMs = s.safety.filterMs
  supervision : t.supervision = { s.supervision with
    silent := false, since := none, timer := silenceTimer s.supervision.periodMs }

theorem heldTalk_rejudge {s : State} (h : s.lanes.heldTalk = List.replicate 4 0) :
    (rejudge s).lanes.heldTalk = List.replicate 4 0 := by
  have judged : (rejudge s).lanes.heldTalk =
      allBuses.map fun b => if heard s b then s.lanes.heldTalk.getD (busIndex b) 0 else 0 := rfl
  have zero (b : Bus) : (if heard s b then s.lanes.heldTalk.getD (busIndex b) 0 else 0) = 0 := by
    rw [h]
    cases b <;> simp [busIndex]
  rw [judged, List.map_congr_left fun b _ => zero b]
  rfl

theorem softStarted_blocks (tag : Byte) (s : State) : SoftBlocks tag s (softStarted tag s) := by
  unfold softStarted
  split
  next held =>
    refine ⟨?_, fun p => by cases p <;> rfl, rfl, ⟨rfl, rfl, rfl⟩, rfl,
      ⟨rfl, rfl, rfl, rfl, rfl, rfl, rfl, rfl, rfl, rfl, rfl, rfl, rfl⟩, ⟨rfl, rfl, rfl, rfl⟩, rfl, rfl, rfl, rfl,
      ⟨rfl, rfl⟩, rfl⟩
    rw [show (!s.start.holdn) = true by simp [held]]
    rfl
  next held =>
    have free : (!s.start.holdn) = false := by simpa using held
    split
    · refine ⟨?_, fun p => by cases p <;> rfl, rfl, ⟨rfl, rfl, rfl⟩, rfl,
        ⟨rfl, rfl, rfl, rfl, rfl, rfl, rfl, rfl, rfl, rfl, rfl, rfl, rfl⟩, ⟨rfl, rfl, rfl, rfl⟩, rfl, rfl, rfl, rfl,
        ⟨rfl, rfl⟩, rfl⟩
      rw [free]
      rfl
    · refine ⟨?_, fun p => by cases p <;> rfl, rfl, ⟨rfl, rfl, rfl⟩, rfl,
        ⟨rfl, rfl, rfl, rfl, rfl, rfl, rfl, rfl, rfl, rfl, rfl, rfl, rfl⟩, ⟨rfl, rfl, rfl, rfl⟩, rfl, rfl, rfl, rfl,
        ⟨rfl, rfl⟩, rfl⟩
      rw [free]
      rfl

/-- The later steps of the reset leave these blocks. -/
theorem softReset_blocks (tag : Byte) (s : State) : SoftBlocks tag s (softReset tag s) := by
  have begun := softStarted_blocks tag s
  obtain ⟨taps, cache, o, c, -, e, -⟩ := softReset_last tag s
  rw [e]
  unfold softJudged
  generalize softStarted tag s = x at begun
  obtain ⟨start, ports, lock, queue, switches, loop, recovery, slots, gain, talk, held, times, supervision⟩ := begun
  exact ⟨start, fun p => by cases p <;> [exact ports .a; exact ports .b], lock, queue, switches, loop, recovery, slots,
    gain, talk, heldTalk_rejudge held, times, supervision⟩

/-! ### The mode and the role the node starts in (R176) -/

/-- What the role and HOLDN decide. -/
structure SoftMode (s t : State) : Prop where
  held : s.start.holdn = false → loopMode t = .held ∧ t.loop.role = .follower ∧ t.loop.following = false ∧
    t.loop.group = none ∧ t.loop.epoch = s.loop.epoch
  idle : s.start.holdn = false ∨ s.start.role ≠ .master → t.queue.items = [] ∧ t.snap = ⟨none, false, false⟩ ∧
    t.loop.copy = ⟨none, [⟨s.start.id, some s.start.func, some s.start.role, none, none⟩]⟩
  origin : s.start.holdn = true → s.start.role = .master → loopMode t = .isolated ∧ t.loop.role = .origin ∧
    t.loop.following = true ∧ t.loop.epoch = s.loop.epoch + 1 ∧
    t.loop.group = some ⟨s.start.id, .master, s.loop.epoch + 1⟩ ∧
    t.queue.items.map (·.body) = [.lockNote s.lock.level] ∧
    t.snap = ⟨some ⟨.allot, 0, 0, 0, none, none⟩, false, s.start.func == .stage⟩ ∧
    t.loop.copy = ⟨some 0, [⟨s.start.id, some s.start.func, some s.start.role, some 1, some .forward⟩]⟩
  seeking : s.start.holdn = true → s.start.role ≠ .master → loopMode t = .seeking ∧ t.loop.role = .follower ∧
    t.loop.following = false ∧ t.loop.group = none ∧ t.loop.epoch = s.loop.epoch

theorem softStarted_mode (tag : Byte) (s : State) : SoftMode s (softStarted tag s) := by
  unfold softStarted
  split
  next held =>
    exact ⟨fun _ => ⟨rfl, rfl, rfl, rfl, rfl⟩, fun _ => ⟨rfl, rfl, rfl⟩, fun k => absurd (held.symm.trans k) (by simp),
      fun k => absurd (held.symm.trans k) (by simp)⟩
  next held =>
    split
    next master =>
      exact ⟨fun k => absurd k held, fun k => absurd k (by simp [held, master]),
        fun _ _ => ⟨mode_softOrigin tag s, rfl, rfl, rfl, rfl, rfl, rfl, rfl⟩, fun _ k => absurd master k⟩
    next other =>
      exact ⟨fun k => absurd k held, fun _ => ⟨rfl, rfl, rfl⟩, fun _ k => absurd k other,
        fun _ _ => ⟨(modes_softFreed tag s).2, rfl, rfl, rfl, rfl⟩⟩

theorem softReset_mode (tag : Byte) (s : State) : SoftMode s (softReset tag s) := by
  have begun := softStarted_mode tag s
  obtain ⟨taps, cache, o, c, -, e, -⟩ := softReset_last tag s
  rw [e]
  unfold softJudged
  generalize softStarted tag s = x at begun
  exact ⟨begun.held, begun.idle, begun.origin, begun.seeking⟩

/-! ### The request before the reset -/

/-- A good request leaves the causes of every output (R154, R170). -/
theorem goodRequest_outs {s : State} {n : Nat} {r : OutRec} (h : s.safety.outs[n]? = some r) :
    ∃ q, (goodRequest s).safety.outs[n]? = some q ∧ q.causes = r.causes := by
  unfold goodRequest
  simp only
  split
  · unfold onSilenceClear mapOuts
    simp only [parts_notify, List.getElem?_map, List.getElem?_zipIdx, h, Option.map_some, Nat.zero_add]
    refine ⟨_, rfl, ?_⟩
    split <;> rfl
  · exact ⟨r, h, rfl⟩

/-- After the reset nothing is left of the silence that a request ended (R168, R170). -/
theorem goodRequest_supervision (s : State) : { (goodRequest s).supervision with
      silent := false, since := none, timer := silenceTimer (goodRequest s).supervision.periodMs } =
    { s.supervision with silent := false, since := none, timer := silenceTimer s.supervision.periodMs } := by
  unfold goodRequest
  simp only
  split
  · simp [onSilenceClear]
  · rfl

theorem formerAfter_eq (s : State) : formerAfter s = if s.loop.role = .origin then
    (match s.loop.group with
      | some g => some (g.rank, g.epoch)
      | none => s.loop.formerOwn)
    else s.loop.formerOwn := by
  unfold formerAfter State.isOrigin
  cases s.loop.role <;> rfl

theorem freshKeys_at {l : List KeyRec} {i : Nat} {k : KeyRec} (h : l[i]? = some k) :
    (freshKeys l)[i]? = some { k with
      state := .idle, latched := false, press := none, answer := none, releaseOwed := false, settle := none
      raw := k.raw && decide (i < 8), pressed := k.raw && decide (i < 8) } := by
  unfold freshKeys
  rw [List.getElem?_map, List.getElem?_zipIdx, h]
  simp [freshKey, restKey]

/-- The reset makes the same of the state before the request (R170). -/
theorem SoftMode.request {s t : State} (h : SoftMode (goodRequest s) t) : SoftMode s t := by
  obtain ⟨held, idle, origin, seeking⟩ := h
  obtain ⟨own, -, -, loop, -, -, -, -, -, -, -, lock⟩ := parts_goodRequest s
  rw [own, loop] at held seeking
  rw [own] at idle
  rw [own, loop, lock] at origin
  exact ⟨held, idle, origin, seeking⟩

theorem SoftBlocks.request {tag : Byte} {s t : State} (h : SoftBlocks tag (goodRequest s) t) :
    t.start = { s.start with
      straps := s.start.straps.map fun x => { x with holdn := s.start.holdn }
      cause := .soft, strapsRead := false, softTag := some tag, held := !s.start.holdn } ∧
    (∀ p, t.port p = softPort (s.port p)) ∧
    t.lock = ⟨s.lock.level, false, none, viewAlone s.start.id s.lock.level⟩ ∧
    (t.queue.lead = s.queue.lead ∧ t.queue.outstanding = none ∧ t.queue.written = none) ∧
    t.loop.formerOwn = formerAfter s ∧ (t.loop.policy = s.loop.policy ∧ t.loop.healDelay = s.loop.healDelay ∧
      t.loop.takeoverMs = s.loop.takeoverMs ∧ t.loop.preempt = s.loop.preempt) ∧
    t.slots = softSlots s ∧ t.talk = { TalkRec.power with keys := freshKeys s.talk.keys } ∧
    (t.safety.holdMs = s.safety.holdMs ∧ t.safety.filterMs = s.safety.filterMs) ∧
    t.supervision = { s.supervision with
      silent := false, since := none, timer := silenceTimer s.supervision.periodMs } := by
  obtain ⟨own, -, -, loop, queue, -, -, slots, -, -, talk, lock⟩ := parts_goodRequest s
  have former : formerAfter (goodRequest s) = formerAfter s := by
    unfold formerAfter State.isOrigin
    rw [loop]
  have router : softSlots (goodRequest s) = softSlots s := by
    unfold softSlots clearTalkEntries
    rw [slots]
  have times : (goodRequest s).safety.holdMs = s.safety.holdMs ∧ (goodRequest s).safety.filterMs = s.safety.filterMs := by
    rw [(goodRequest_safety s).1]
    exact ⟨rfl, rfl⟩
  obtain ⟨-, -, -, -, -, -, -, -, -, -, -, -, formerOwn⟩ := h.loop
  refine ⟨h.start.trans (by rw [own]), fun p => (h.ports p).trans (by rw [port_goodRequest]),
    h.lock.trans (by rw [own, lock]), ?_, formerOwn.trans former, ?_, h.slots.trans router, h.talk.trans (by rw [talk]),
    ⟨h.times.1.trans times.1, h.times.2.trans times.2⟩, h.supervision.trans (goodRequest_supervision s)⟩
  · have parts := h.queue
    rwa [queue] at parts
  · have parts := h.recovery
    rwa [loop] at parts

theorem NoteSent.request {s : State} {i : Nat} {g : GainSetting} {n : GainSerial} :
    NoteSent (goodRequest s) i g n ↔ NoteSent s i g n := by
  obtain ⟨own, -, -, -, queue, -, switches, -⟩ := parts_goodRequest s
  unfold NoteSent
  rw [own, queue, switches]

theorem softReport_request (tag : Byte) (s : State) : softReport tag (goodRequest s) = softReport tag s := by
  obtain ⟨own, -, -, -, -, -, -, -, -, -, -, lock⟩ := parts_goodRequest s
  unfold softReport
  rw [own, lock]

theorem softGain_request (s : State) (i : Nat) (e : GainEntry) (h : s.gain.table[i]? = some e) :
    ((∀ g n, NoteSent s i g n → newer8 n e.serial = false) → e.inFlight = none →
      (softGain (goodRequest s)).table[i]? = some e) ∧
    ((∀ g n, NoteSent s i g n → newer8 n e.serial = false) → e.inFlight ≠ none →
      (softGain (goodRequest s)).table[i]? = some
        { e with inFlight := none, issued := e.issued + 1, serial := e.issued + 1 }) ∧
    (∀ g n, NoteSent s i g n → newer8 n e.serial = true →
      (∀ g' n', NoteSent s i g' n' → (g' = g ∧ n' = n) ∨ (newer8 n' e.serial = false ∧ newer8 n' n = false)) →
      let now := { e with
        applied := g, serial := n, inFlight := none
        mute := if e.applied.phantom ≠ g.phantom ∧ s.gain.muteMs ≠ 0 then some (s.gain.muteMs * 96) else e.mute }
      (e.inFlight = none ∨ e.inFlight = some ⟨g, n⟩ → (softGain (goodRequest s)).table[i]? = some now) ∧
      (∀ f, e.inFlight = some f → f.serial ≠ n → (softGain (goodRequest s)).table[i]? = some
        { now with issued := e.issued + 1, serial := e.issued + 1 })) := by
  obtain ⟨-, -, -, -, -, -, -, -, -, gain, -⟩ := parts_goodRequest s
  have entries := softGain_entries (goodRequest s) i e (by rw [gain]; exact h)
  simp only [NoteSent.request, gain] at entries
  exact entries

/-- Settles O7: the reset's blocks are those of the start sequence (three ends, by HOLDN and role), on which the outputs
and the node's own cache entries are then built. -/
theorem resetPart_softReset : Obligations.SoftReset := by
  unfold Obligations.SoftReset
  intro tag s taken settled
  refine ⟨fun high => ?_, fun low => ?_⟩
  · refine request_idle taken settled ?_
    unfold judgeResetPart
    rw [locked_goodRequest, if_pos (by simpa using high)]
    rfl
  obtain ⟨c, next, inbox, overflow, ops, ended, l, quiet, notices⟩ := exec_resetPart (tag := tag) taken low
  have blocks := softReset_blocks tag (goodRequest s)
  have same := blocks.request
  have mode := (softReset_mode tag (goodRequest s)).request
  have control := softReset_ctl tag (goodRequest s)
  rw [softReport_request] at control
  have outs := fun n r => softReset_out tag (s := goodRequest s) (n := n) (r := r)
  have taps := fun i x => softReset_tap tag (s := goodRequest s) (i := i) (x := x)
  have cache := softReset_cache tag (goodRequest s)
  have gains := softGain_request s
  have causes := fun n r => goodRequest_outs (s := s) (n := n) (r := r)
  have panic : (goodRequest s).safety.panicRaw = s.safety.panicRaw ∧ (goodRequest s).safety.holdMs = s.safety.holdMs := by
    rw [(goodRequest_safety s).1]
    exact ⟨rfl, rfl⟩
  obtain ⟨own, -, -, -, -, -, -, -, lanes, -⟩ := parts_goodRequest s
  have tap (i : Nat) : tapAt (goodRequest s) i = tapAt s i := by
    unfold tapAt
    rw [lanes]
  rw [own] at cache taps
  rw [lanes] at taps
  have gainIs := blocks.gain
  obtain ⟨-, -, -, -, switches, ⟨count, wrapA, wrapB, timeout, takeover, circuit, conflict, visits, plan, restart, acted,
    links, -⟩, -, -, -, -, heldTalk, -, -⟩ := blocks
  have records : (softGain (goodRequest s)).answers = List.replicate 8 none ∧
      (softGain (goodRequest s)).records = recordsOf (softGain (goodRequest s)).table := ⟨rfl, rfl⟩
  generalize softReset tag (goodRequest s) = u at *
  rw [← gainIs] at gains records
  generalize goodRequest s = a at *
  obtain ⟨n, b, d, ctl, head, noGain⟩ := control
  obtain ⟨start, ports, lock, ⟨lead, outstanding, written⟩, formerOwn, recovery, slots, talk, times, supervision⟩ := same
  rw [ctl] at inbox overflow ops ended notices
  refine ⟨_, next, rfl, inbox, overflow, ops, ended, ?_, start, ports, lock, lead, outstanding, written, switches,
    ⟨count, wrapA, wrapB, timeout, takeover, circuit, conflict, visits, plan, restart, acted, links,
      formerOwn.trans (formerAfter_eq s)⟩, fun i k hk => ?_, ?_, ?_, heldTalk, cache, taps, recovery.1, recovery.2.1,
    recovery.2.2.1, recovery.2.2.2, times.1, times.2, supervision, mode.held, mode.idle, mode.origin, mode.seeking,
    fun i e he => ?_, ?_, ?_, ?_, ?_, ?_, ?_, ?_, ?_, ?_, ⟨gains, ?_⟩, records.1, records.2, fun i r hr => ?_⟩
  · have front : c.notices.head? = n.head? := by
      rw [notices]
      cases n with
      | nil => cases head
      | cons x n => rfl
    exact front.trans head
  · have keys : u.talk.keys = freshKeys s.talk.keys := congrArg TalkRec.keys talk
    exact (congrArg (·[i]?) keys).trans (freshKeys_at hk)
  · exact congrArg TalkRec.views talk
  · exact congrArg TalkRec.records talk
  · have table : u.slots.table = s.slots.table.map fun e => if e.state = .talk then { e with writer := none } else e :=
      congrArg SlotRec.table slots
    exact (congrArg (·[i]?) table).trans (by rw [List.getElem?_map, he]; rfl)
  · exact (congrArg SlotRec.applied slots).trans rfl
  · exact congrArg SlotRec.issued slots
  · intro x hx
    have flight : u.slots.inFlight = s.slots.inFlight.map fun _ => none := congrArg SlotRec.inFlight slots
    obtain ⟨_, -, rfl⟩ := List.mem_map.1 (flight ▸ hx)
    rfl
  · exact (congrArg SlotRec.unsettled slots).trans rfl
  · exact congrArg SlotRec.answers slots
  · exact congrArg SlotRec.requests slots
  · exact congrArg SlotRec.current slots
  · exact congrArg SlotRec.lastApplied slots
  · exact congrArg SlotRec.collection slots
  · intro x hx
    have all : x ∈ n ++ l := notices ▸ hx
    rcases List.mem_append.1 all with k | k
    · exact noGain x k
    · exact quiet x k
  · obtain ⟨q, hq, same⟩ := causes i r hr
    have out := outs i q hq
    simp only [tap, panic.1, panic.2, same] at out
    exact out

end Sys2Proof.Machine
end

section
/-! PROOFS. SET_THRESHOLDS (R23): the test of the result at each named port, and the fields stored. -/

namespace Sys2Proof.Machine

open Sys2Proof

theorem mem_selPorts (sel : PortSel) (p : PortId) :
    p ∈ selPorts sel ↔ sel = .both ∨ (sel = .a ∧ p = .a) ∨ (sel = .b ∧ p = .b) := by
  cases sel <;> cases p <;> simp [selPorts]

theorem inRange_iff (lo hi x : Int) : inRange lo hi x = true ↔ lo ≤ x ∧ x ≤ hi := by simp [inRange]

/-- R23's tests, one by one. -/
theorem thresholdsFit_iff (f : ThresholdFields) (r : PortRec) : thresholdsFit f r = true ↔
    (∀ x, f.loss = some x → -400 ≤ x ∧ x ≤ -100) ∧ (∀ x, f.marginal = some x → -400 ≤ x ∧ x ≤ 0) ∧
    (∀ x, f.hyst = some x → 5 ≤ x ∧ x ≤ 50) ∧ (∀ x, f.settle = some x → x ≤ 2000) ∧
    (withThresholds f r).loss + (withThresholds f r).hyst ≤ (withThresholds f r).marginalAt ∧
    (withThresholds f r).loss + (withThresholds f r).hyst ≤ 30 := by
  simp only [thresholdsFit, Bool.and_eq_true, Option.all_eq_true, inRange_iff, decide_eq_true_eq, and_assoc]

theorem thresholdsFit_goodRequest (f : ThresholdFields) (sel : PortSel) (s : State) :
    ((selPorts sel).all fun p => thresholdsFit f ((goodRequest s).port p)) = true ↔
      ∀ p, p ∈ selPorts sel → thresholdsFit f (s.port p) = true := by
  simp only [List.all_eq_true, port_goodRequest]

/-- The fields are stored in the named ports, and nowhere else (R23). -/
theorem port_storeThresholds (sel : PortSel) (f : ThresholdFields) (s : State) (p : PortId) :
    (storeThresholds sel f s).port p = if p ∈ selPorts sel then withThresholds f (s.port p) else s.port p := by
  cases sel <;> cases p <;> rfl

theorem storeThresholds_blocks (sel : PortSel) (f : ThresholdFields) (s : State) :
    storeThresholds sel f s =
      { s with portA := (storeThresholds sel f s).portA, portB := (storeThresholds sel f s).portB } := by
  cases sel <;> rfl

/-- The settings of a port do not make it usable or not. -/
theorem storeThresholds_settled (sel : PortSel) (f : ThresholdFields) {s : State} (h : Settled s) :
    Settled (storeThresholds sel f s) := by
  have stored (a : State) (p : PortId) (ha : Settled a) : Settled (a.setPort p (withThresholds f (a.port p))) :=
    ha.setPort p _ rfl
  cases sel with
  | a => exact stored s .a h
  | b => exact stored s .b h
  | both => exact stored _ .b (stored s .a h)

/-- Settles O12: the checks in order, then the fields stored port by port. -/
theorem thresholdsStored : Obligations.ThresholdsStored := by
  intro tag sel f s h hs new named fits
  have named_iff (p : PortId) : p ∈ selPorts sel ↔ named p := mem_selPorts sel p
  have fits_iff (p : PortId) : thresholdsFit f (s.port p) = true ↔ fits p := thresholdsFit_iff f (s.port p)
  have passes_iff : ((selPorts sel).all fun p => thresholdsFit f ((goodRequest s).port p)) = true ↔
      ∀ p, named p → fits p := by
    rw [thresholdsFit_goodRequest]
    simp only [named_iff, fits_iff]
  refine ⟨fun ⟨p, hp, hn⟩ => ?_, fun hf hl => ?_, fun hf hl => ?_⟩
  · have fails := mt passes_iff.1 fun k => hn (k p hp)
    exact request_idle h hs (by simp only [judgeSetThresholds, Bool.eq_false_iff.2 fails]; rfl)
  · exact request_idle h hs (by
      simp only [judgeSetThresholds, passes_iff.2 hf, locked_goodRequest, decide_eq_true hl]; rfl)
  · have low : locked 1 (goodRequest s) = false := by rw [locked_goodRequest, hl]; rfl
    obtain ⟨t, ht, answered⟩ := request_changed (tag := tag) (judge := judgeSetThresholds sel f)
      (u := storeThresholds sel f (goodRequest s)) h
      (by simp only [judgeSetThresholds, passes_iff.2 hf, low]; rfl)
      (storeThresholds_settled sel f (goodRequest_settled hs))
      (by rw [storeThresholds_blocks]) (by rw [storeThresholds_blocks]; simp)
    refine ⟨t, _, ht, answered, fun p hp => ?_, fun p hp => ?_, ?_⟩
    · rw [port_storeThresholds, if_pos ((named_iff p).2 hp), port_goodRequest]
      rfl
    · rw [port_storeThresholds, if_neg (mt (named_iff p).1 hp), port_goodRequest]
    · have blocks := storeThresholds_blocks sel f (goodRequest s)
      rw [← blocks]
      exact .refl _

end Sys2Proof.Machine
end

section
/-! PROOFS. STATUS, READ_PORT and the unknown request (R36, R94, R127, R161, R180, R186). -/

namespace Sys2Proof.Machine

open Sys2Proof

theorem mem_outsIn (st : OutState) (s : State) (n : Nat) :
    n ∈ outsIn st s ↔ ∃ o, s.safety.outs[n]? = some o ∧ o.state = st := by
  simp [outsIn, List.mem_zipIdx_iff_getElem?]

/-- Taking a request leaves PANIC and the settings of the outputs (R170: only resume holds end). -/
theorem panic_goodRequest (s : State) : (goodRequest s).safety.panicOn = s.safety.panicOn ∧
    (goodRequest s).safety.panicRaw = s.safety.panicRaw ∧ (goodRequest s).safety.filterMs = s.safety.filterMs ∧
    (goodRequest s).safety.holdMs = s.safety.holdMs := by
  unfold goodRequest
  simp only
  split <;> simp [onSilenceClear, mapOuts]

theorem loopView_goodRequest (s : State) : loopView (goodRequest s) =
    ⟨loopMode s, s.loop.role, s.loop.group, s.loop.epoch, s.loop.wrapA, s.loop.wrapB⟩ := by
  simp [loopView, loopMode_goodRequest]

theorem usable_goodRequest (s : State) (p : PortId) : (goodRequest s).usable p = s.usable p := by
  simp [State.usable]

/-- A MASTER reports its issued and applied allotment (R94). -/
theorem allotStatus_master {s : State} (h : s.start.role = .master) : allotStatus s =
    .master s.slots.issued s.slots.applied (s.snap.run.any fun x => x.kind == .allot) s.snap.pendAllot
      s.slots.requests := by
  unfold allotStatus
  rw [if_pos ((isMaster_iff s).2 h)]
  cases s.snap.run <;> rfl

/-- Any other node reports its copy (R94). -/
theorem allotStatus_copy {s : State} (h : s.start.role ≠ .master) : allotStatus s =
    .copy s.slots.current s.slots.lastApplied
      (s.slots.collection.map fun c => (c.serial, (c.pieces.filter Option.isSome).length)) := by
  unfold allotStatus
  exact if_neg (mt (isMaster_iff s).1 h)

theorem gainStatus_stage {s : State} (h : s.start.func = .stage) : gainStatus s =
    some (s.snap.run.any fun x => x.kind == .gain, s.snap.pendGain, s.gain.muteMs) := by
  unfold gainStatus
  rw [if_pos ((isStage_iff s).2 h)]
  cases s.snap.run <;> rfl

theorem gainStatus_desk {s : State} (h : s.start.func = .desk) : gainStatus s = none := by
  unfold gainStatus
  exact if_neg (by rw [isStage_iff, h]; simp)

/-- The drill of a port is reported in state DRILL alone (log entry 57). -/
theorem portReport_eq (r : PortRec) : portReport r = ⟨r.state, r.flags, r.light, r.partner, r.linkDelay, r.counters,
    r.loss, r.marginalAt, r.hyst, r.settleMs,
    if r.state = .drill then r.drill.map fun d => (d.start, r.drillT.getD 0) else none⟩ := by
  unfold portReport
  congr 1
  cases r.state <;> cases r.drill <;> rfl

/-- Settles O9, request by request. -/
theorem readsAnswered : Obligations.ReadsAnswered := by
  intro tag s h hs
  obtain ⟨start, portA, portB, loop, -, snap, -, slots, -, gain, -, lock⟩ := parts_goodRequest s
  refine ⟨?_, fun p => ?_, fun k => request_idle h hs rfl⟩
  · obtain ⟨t, ht, answered⟩ := request_idle (tag := tag) (judge := judgeStatus) h hs rfl
    obtain ⟨panicOn, panicRaw, filterMs, holdMs⟩ := panic_goodRequest s
    refine ⟨t, statusReport (goodRequest s), ht, answered, ?_, ⟨loopView_goodRequest s, ?_⟩, ?_, ?_, fun n => ?_,
      fun role => ?_, fun role => ?_, fun func => ?_, fun func => ?_, ?_, rfl, ⟨panicOn, panicRaw, filterMs, holdMs⟩,
      fun n st => ?_, ?_, rfl, rfl⟩
    · simp [statusReport]
    · simp [statusReport]
    · simp [statusReport, usable_goodRequest]
    · simp [statusReport]
    · simp [statusReport]
    · show allotStatus (goodRequest s) = _
      rw [allotStatus_master (by rw [start]; exact role), slots, snap]
    · show allotStatus (goodRequest s) = _
      rw [allotStatus_copy (by rw [start]; exact role), slots]
    · show gainStatus (goodRequest s) = _
      rw [gainStatus_stage (by rw [start]; exact func), snap, gain]
    · exact gainStatus_desk (by rw [start]; exact func)
    · simp [statusReport]
    · cases st <;> exact mem_outsIn _ _ n
    · simp [statusReport, opCount, goodRequest_ops]
  · have g := goodRequest_settled hs
    refine request_changed h ?_ (g.setPort p { s.port p with counters := .zero } (by
      simp [State.usable, portUsable])) (ctl_setPort _ _ _) (by simp)
    simp only [judgeReadPort, data, port_goodRequest, portReport_eq]
    rfl

end Sys2Proof.Machine
end

section
/-! PROOFS. Two changes of a port's record as events, whatever command brings them: MARGINAL moves at an aligned port
(R33, R54 to R56), and the port leaves alignment (R24, R25). -/

namespace Sys2Proof.Machine

open Sys2Proof

/-! ### MARGINAL moves -/

/-- What a change of MARGINAL at port `p` to `m` leaves, `x` the new record: at a port that is not usable its
PORT_CHANGE, at a usable one the note and the master's own record of it, too. -/
def MarginalMoves (p : PortId) (m : Bool) (c : PortCause) (x : PortRec) (s t : State) : Prop :=
  PortEventFrame s t ∧
    (s.usable p = false →
      Happened [.portChange p (s.port p).state { (s.port p).flags with marginal := m } x.light c] s (s.setPort p x) t) ∧
    (s.usable p = true → t.port p = { x with everUsable := (s.port p).everUsable || !s.start.held } ∧
      (s.start.role ≠ .master →
        Happened [.portChange p .up { (s.port p).flags with marginal := m } x.light c] s (portNoted p x s) t) ∧
      SameBlocks (portReported p x s) t)

/-- The two records of a port agree in state, REMOTE_FAULT and the mark of one that has been usable. -/
structure SameUse (r x : PortRec) : Prop where
  state : x.state = r.state
  fault : x.flags.remoteFault = r.flags.remoteFault
  ever : x.everUsable = r.everUsable

theorem SameUse.usable {r x : PortRec} (h : SameUse r x) : portUsable x = portUsable r := by
  unfold portUsable
  rw [h.state, h.fault]

/-- An event that moves MARGINAL at a port, `y` the record that the port holds when the change is made. -/
theorem event_marginal {f : State → State} {p : PortId} {c : PortCause} {m : Bool} {s : State} {x y : PortRec}
    (hr : s.inReset = false) (hs : Settled s) (e : f s = commit p c x (s.setPort p y)) (old : SameUse (s.port p) y)
    (oldFlags : y.flags = (s.port p).flags) (new : SameUse (s.port p) x)
    (flags : x.flags = { (s.port p).flags with marginal := m }) (differs : (s.port p).flags.marginal ≠ m) :
    ∃ t, done f s = .next t ∧ MarginalMoves p m c x s t := by
  have settledOld : Settled (s.setPort p y) := hs.setPort p y old.usable
  have moved : x.flags.marginal ≠ ((s.setPort p y).port p).flags.marginal := by
    rw [port_setPort, oldFlags, flags]
    exact differs.symm
  obtain ⟨t, ht, blocks, -, -, pending⟩ := done_blocks (f := f) hr
  have evented : Evented s (f s) := by
    rw [e]
    exact (setPort_evented _ _ _).trans (commit_evented _ _ _ _)
  refine ⟨t, ht, evented.portEventFrame blocks pending, fun down => ?_, fun up => ?_⟩
  · have differ : stateOrFlags y x = true := by
      have k : (y.flags != x.flags) = true := by
        rw [port_setPort] at moved
        rw [bne_iff_ne]
        exact fun e => moved (by rw [e])
      unfold stateOrFlags
      rw [k, Bool.or_true]
    have notice : f s = notify (.portChange p (s.port p).state { (s.port p).flags with marginal := m } x.light c)
        (s.setPort p x) := by
      rw [e, commit_unusable settledOld (by rw [port_setPort]; exact old.usable.trans down) (new.usable.trans down)
        (by rw [port_setPort, old.state, new.state]; exact id)
        (by rw [port_setPort]; exact overtakes_off (.inl (old.state.trans new.state.symm)) (by rw [flags, oldFlags]; exact id))
        (by rw [port_setPort]; exact differ), setPort_setPort, new.state, flags]
    obtain ⟨t', ht', happened⟩ := event_portChange hr hs notice new.usable
    cases ht.symm.trans ht'
    exact happened
  · obtain ⟨isUp, noFault⟩ : (s.port p).state = .up ∧ (s.port p).flags.remoteFault = false := by
      simpa [State.usable, portUsable] using up
    have xUp := new.state.trans isUp
    have xFault := new.fault.trans noFault
    have effect := e.trans (commit_usable settledOld (by rw [usable_setPort]; exact old.usable.trans up) xUp xFault moved)
    rw [portNoted_setPort, start_setPort] at effect
    have noted := portNoted_settled hs xUp xFault up
    have judged := takeLinkNote_judged s.start.id p (.port .up) x.flags.marginal (x.partner.map (·.sender))
      (x.partner.bind (·.offer.origin)) (notify (.portChange p x.state x.flags x.light c) (portNoted p x s))
    have settled := judged.settled (notify_settled _ noted)
    rw [← effect] at judged settled
    rw [settle_self settled] at blocks
    refine ⟨?_, fun member => ?_, ?_⟩
    · rw [port_of_parts blocks.portA blocks.portB, judged.ports, port_notify, port_portNoted s xUp xFault, new.ever]
    · have notMaster : (portNoted p x s).isMaster = false := by
        rw [Bool.eq_false_iff, ne_eq, isMaster_iff, start_portNoted]
        exact member
      have alone : f s = notify (.portChange p .up { (s.port p).flags with marginal := m } x.light c)
          (portNoted p x s) := by
        rw [effect, xUp, flags]
        exact if_pos (by rw [Bool.not_eq_true', notify_raised]; exact notMaster)
      obtain ⟨t', ht', happened⟩ := event_oneNotice hr alone noted (ctl_portNoted p x s) (start_portNoted p x s)
      cases ht.symm.trans ht'
      exact happened
    · rw [effect] at blocks
      exact (takeLinkNote_notify _ _ _ _ _ _ _ _).trans blocks

/-! ### Alignment is left -/

/-- What a port leaves that goes to `st` out of alignment, `x` its record just before. -/
def AlignmentLeft (p : PortId) (st : PortState) (c : PortCause) (x : PortRec) (s t : State) : Prop :=
  Unaligned st (s.port p) (t.port p) ∧ (t.port p).light = x.light ∧ (t.port p).counters = x.counters ∧
    PortEventFrame s t ∧
    ((s.port p).state ≠ .up → Happened [.portChange p st ⟨false, false, false⟩ x.light c] s (s.setPort p (t.port p)) t)

/-- The record keeps what alignment does not hold (R20, R35, R39). -/
structure Lasts (r x : PortRec) : Prop where
  state : x.state = r.state
  relock : x.relock = r.relock
  drill : x.drill = r.drill ∧ x.drillT = r.drillT ∧ x.txOn = r.txOn
  settings : x.loss = r.loss ∧ x.marginalAt = r.marginalAt ∧ x.hyst = r.hyst ∧ x.settleMs = r.settleMs

/-- An event by which a port leaves alignment, `y` the record that the port holds when it does. -/
theorem event_unaligned {f : State → State} {p : PortId} {st : PortState} {c : PortCause} {s : State} {x y : PortRec}
    (hr : s.inReset = false) (hs : Settled s) (e : f s = commit p c (leaveAlignment st x) (s.setPort p y))
    (old : SameUse (s.port p) y) (new : Lasts (s.port p) x) (leaves : (s.port p).state ≠ st) (up : st ≠ .up)
    (drill : st ≠ .drill) : ∃ t, done f s = .next t ∧ AlignmentLeft p st c x s t := by
  obtain ⟨state, flags, light, -, counters⟩ := state_leaveAlignment st x
  have here : (f s).port p = leaveAlignment st x := by
    rw [e]
    exact port_commit_down (by rw [state]; exact drill) (by rw [state]; exact up)
  have evented : Evented s (f s) := by
    rw [e]
    exact (setPort_evented _ _ _).trans (commit_evented _ _ _ _)
  obtain ⟨t, ht, same, -, -, pending⟩ := done_blocks (f := f) hr
  have record := (port_settled same p).trans here
  refine ⟨t, ht, ?_, ?_, ?_, evented.portEventFrame same pending, fun down => ?_⟩
  · rw [record]
    exact leaveAlignment_unaligned st new.state new.relock new.drill new.settings
  · rw [record]; exact light
  · rw [record]; exact counters
  · have notUp : (leaveAlignment st x).state ≠ .up := by rw [state]; exact up
    have wasDown : y.state ≠ .up := by rw [old.state]; exact down
    have notice : f s = notify (.portChange p st ⟨false, false, false⟩ x.light c) (s.setPort p (leaveAlignment st x)) := by
      rw [e, commit_unusable (hs.setPort p y old.usable) (by rw [port_setPort]; exact portUsable_down wasDown)
        (portUsable_down notUp) (fun _ => notUp)
        (by rw [port_setPort]; exact overtakes_off (.inr wasDown) (by rw [flags]; exact fun k => by cases k))
        (by
          rw [port_setPort]
          unfold stateOrFlags
          rw [old.state, state]
          simp [leaves]), setPort_setPort, state, flags, light]
    obtain ⟨t', ht', happened⟩ := event_portChange hr hs notice
      ((portUsable_down notUp).trans (usable_down down).symm)
    cases ht.symm.trans ht'
    rw [record]
    exact happened

end Sys2Proof.Machine
end

section
/-! PROOFS. LIGHT_MEASUREMENT (R22, R24, R33). -/

namespace Sys2Proof.Machine

open Sys2Proof

/-! ### The level (R22) -/

theorem nearest_hundred {x n : Int} (lo : 100 * n - 50 < x) (hi : x < 100 * n + 50) : nearest x 100 = n := by
  unfold nearest
  simp only
  split
  · omega
  · split <;> omega

/-- A rounded reading is one of the two steps beside it. -/
theorem nearest_hundred_between (x : Int) : 100 * nearest x 100 - 50 ≤ x ∧ x ≤ 100 * nearest x 100 + 50 := by
  unfold nearest
  simp only
  repeat' split
  all_goals omega

/-- A reading is rounded to 0.1 dB and clamped to -40.0 to +3.0 dBm (R22). -/
theorem lightLevel_cases : lightLevel none = -400 ∧
    (∀ x n : Int, -400 ≤ n → n ≤ 30 → 100 * n - 50 < x → x < 100 * n + 50 → lightLevel (some x) = n) ∧
    (∀ x : Int, 3000 ≤ x → lightLevel (some x) = 30) ∧ (∀ x : Int, x ≤ -40000 → lightLevel (some x) = -400) := by
  refine ⟨rfl, fun x n bottom top lo hi => ?_, fun x h => ?_, fun x h => ?_⟩
  · show max (-400) (min 30 (nearest x 100)) = n
    rw [nearest_hundred lo hi]
    omega
  · have near := nearest_hundred_between x
    show max (-400) (min 30 (nearest x 100)) = 30
    omega
  · have near := nearest_hundred_between x
    show max (-400) (min 30 (nearest x 100)) = -400
    omega

/-! ### The measurement by the port's state and the level's band -/

/-- A record with a new light level. -/
def withLight (level : Int) (r : PortRec) : PortRec := { r with light := level }

/-- The light condition at an aligned port once a level is measured (R33). -/
def conditionAt (r : PortRec) (level : Int) : Bool := decide (level < r.marginalAt + if r.lightCond then r.hyst else 0)

theorem lightCondAt_eq (r : PortRec) (level : Int) : lightCondAt r level = conditionAt r level := by
  unfold lightCondAt conditionAt
  cases r.lightCond <;> simp

/-- The record of an aligned port with a new light level and light condition (R33). -/
def litRec (level : Int) (r : PortRec) : PortRec :=
  { r with light := level, lightCond := conditionAt r level, lightHeld := r.lightHeld || conditionAt r level }

theorem isAligned_iff (st : PortState) :
    isAligned st = true ↔ st = .settle ∨ st = .offer ∨ st = .up ∨ st = .mismatch := by cases st <;> simp [isAligned]

theorem lightMeasured_stores {p : PortId} {x : Option Int} {s : State}
    (h : (s.port p).state = .drill ∨ ((s.port p).state = .dark ∧ lightLevel x ≤ (s.port p).loss + (s.port p).hyst) ∨
      ((s.port p).state = .seek ∧ (s.port p).loss ≤ lightLevel x)) :
    lightMeasured p x s = s.setPort p (withLight (lightLevel x) (s.port p)) := by
  unfold lightMeasured
  rcases h with h | ⟨h, band⟩ | ⟨h, band⟩
  all_goals
    simp only
    split <;> rename_i k <;> cases h.symm.trans k
  · rfl
  · exact if_neg (Int.not_lt.2 band)
  · exact (if_neg (Int.not_lt.2 band)).trans (if_neg (by rw [h]; simp [isAligned]))

theorem lightMeasured_rises {p : PortId} {x : Option Int} {s : State} (h : (s.port p).state = .dark)
    (band : (s.port p).loss + (s.port p).hyst < lightLevel x) : lightMeasured p x s =
      commit p .lightRise { withLight (lightLevel x) (s.port p) with state := .seek, alignRun := 0 } s := by
  unfold lightMeasured
  simp only
  split <;> rename_i k <;> cases h.symm.trans k
  exact if_pos band

theorem lightMeasured_lost {p : PortId} {x : Option Int} {s : State} (dark : (s.port p).state ≠ .dark)
    (drill : (s.port p).state ≠ .drill) (band : lightLevel x < (s.port p).loss) : lightMeasured p x s =
      commit p .lightLoss (leaveAlignment .dark (withLight (lightLevel x) (s.port p))) s := by
  unfold lightMeasured
  simp only
  split <;> rename_i k
  · exact absurd k drill
  · exact absurd k dark
  all_goals exact if_pos band

theorem lightMeasured_aligned {p : PortId} {x : Option Int} {s : State} (aligned : isAligned (s.port p).state = true)
    (band : (s.port p).loss ≤ lightLevel x) : lightMeasured p x s = commit p .marginalSet
      (if conditionAt (s.port p) (lightLevel x) then setMarginal (litRec (lightLevel x) (s.port p))
        else litRec (lightLevel x) (s.port p)) s := by
  have cond : lightCondAt { s.port p with light := lightLevel x } (lightLevel x) =
      conditionAt (s.port p) (lightLevel x) := lightCondAt_eq _ _
  unfold lightMeasured
  simp only
  split <;> rename_i k
  · rw [k] at aligned
    cases aligned
  · rw [k] at aligned
    cases aligned
  all_goals
    refine (if_neg (Int.not_lt.2 band)).trans ((if_pos aligned).trans ?_)
    simp only [cond]
    rfl

/-- Settles O22: the level, then the measurement by state and band. -/
theorem lightMeasured_holds : Obligations.LightMeasured := by
  refine ⟨lightLevel_cases, ?_⟩
  intro p x s hr hs r lv cond lit marked
  have self : s.setPort p (s.port p) = s := setPort_port s p
  have own : SameUse (s.port p) (s.port p) := ⟨rfl, rfl, rfl⟩
  refine ⟨fun h => ?_, fun dark band => ?_, fun dark drill band => ?_, fun aligned band k => ?_,
    fun aligned band set clear => ?_⟩
  · exact event_setPort hr hs (lightMeasured_stores h) rfl
  · have down : (s.port p).state ≠ .up := by rw [show (s.port p).state = .dark from dark]; simp
    have rises := (lightMeasured_rises dark band).trans (commit_unusable hs (portUsable_down down)
      (portUsable_down (by simp)) (by simp) (overtakes_off (.inr down) id)
      (by simp [stateOrFlags, show (s.port p).state = .dark from dark]))
    exact event_portChange hr hs rises ((portUsable_down (by simp)).trans (usable_down down).symm)
  · have effect := lightMeasured_lost dark drill band
    obtain ⟨t, ht, unaligned, light, counters, frame, notice⟩ := event_unaligned (f := lightMeasured p x) (st := .dark) (c := .lightLoss)
      (x := withLight lv r) (y := s.port p) hr hs (by rw [self]; exact effect) own
      ⟨rfl, rfl, ⟨rfl, rfl, rfl⟩, ⟨rfl, rfl, rfl, rfl⟩⟩ dark (by simp) (by simp)
    exact ⟨t, ht, unaligned, light, counters, frame, notice⟩
  · have effect := lightMeasured_aligned aligned band
    have record : (if conditionAt r lv then setMarginal (litRec lv r) else litRec lv r) = litRec lv r := by
      rcases k with k | k
      · exact if_neg (by rw [show conditionAt r lv = false from k]; simp)
      · split
        · exact if_pos k
        · rfl
    have same := effect.trans (congrArg (fun y => commit p .marginalSet y s) record)
    exact event_setPort hr hs (same.trans (commit_record rfl rfl rfl)) rfl
  · have effect := lightMeasured_aligned aligned band
    have record : (if conditionAt r lv then setMarginal (litRec lv r) else litRec lv r) = marked := by
      rw [if_pos (show conditionAt r lv = true from set)]
      exact if_neg (by rw [show (litRec lv r).flags.marginal = false from clear]; simp)
    have same := effect.trans (congrArg (fun y => commit p .marginalSet y s) record)
    exact event_marginal (f := lightMeasured p x) (m := true) (x := marked) (y := s.port p) hr hs (by rw [self]; exact same) own rfl
      ⟨rfl, rfl, rfl⟩ rfl (by rw [show (s.port p).flags.marginal = false from clear]; simp)

end Sys2Proof.Machine
end

section
/-! PROOFS. The port's own record after a change (R37, R41, R42), and a row that acts only where it has its consequence
(log entry 4). -/

namespace Sys2Proof.Machine

open Sys2Proof

/-! ### The port's own record after a change -/

theorem port_markUsable_own (p : PortId) (s : State) :
    ∃ e, (markUsable p s).port p = { s.port p with everUsable := e } := by
  unfold markUsable
  split
  · exact ⟨true, port_setPort _ _ _⟩
  · exact ⟨_, rfl⟩

/-- Of an undrilled port its own event changes at most the mark of one that has been usable. -/
theorem port_portEvent_own {p : PortId} {old : PortRec} {s : State} (h : (s.port p).state ≠ .drill) :
    ∃ e, (portEvent p old s).port p = { s.port p with everUsable := e } := by
  obtain ⟨e, marked⟩ := port_markUsable_own p (wrapStep p (portUsable old) s)
  rw [port_wrapStep] at marked
  have noted (a : State) (c : Bool) (n : NodeId) (st : LinkState) (m : Bool) (f : Option NodeId) (g : Option OriginGroup) :
      (if c = true then takeLinkNote n p st m f g (pushLinkNote p a) else a).port p = a.port p := by
    split
    · rw [(takeLinkNote_judged _ _ _ _ _ _ _).ports, port_pushLinkNote]
    · rfl
  have ends (a b : State) (c : Bool) (k : b.port p = { s.port p with everUsable := e }) :
      (if c = true then afterLoop .originLost a (dropKeys .originLost { b with loop := { b.loop with following := false } })
        else afterLoop .port a b).port p = { s.port p with everUsable := e } := by
    have dropped : (dropKeys .originLost { b with loop := { b.loop with following := false } }).port p = b.port p :=
      (port_of_parts (by simp) (by simp) p).trans (port_of_parts rfl rfl p)
    split
    · rw [port_afterLoop_undrilled (by rw [dropped, k]; exact h), dropped, k]
    · rw [port_afterLoop_undrilled (by rw [k]; exact h), k]
  unfold portEvent
  exact ⟨e, ends _ _ _ ((noted _ _ _ _ _ _ _).trans marked)⟩

/-- A port that takes an undrilled record holds it, but for the mark of a usable port and the record of a drill that has
ended by it. -/
theorem port_commit {p : PortId} {c : PortCause} {r : PortRec} {s : State} (h : r.state ≠ .drill) :
    ∃ e d, (commit p c r s).port p = { r with everUsable := e, drill := d } := by
  have told : (if stateOrFlags (s.port p) r then notifyPort p c (s.setPort p r) else s.setPort p r).port p = r := by
    split
    · exact (port_of_parts (by simp [notifyPort]) (by simp [notifyPort]) p).trans (port_setPort s p r)
    · exact port_setPort s p r
  have base : ∃ e, (commitBase p c r s).port p = { r with everUsable := e } := by
    unfold commitBase
    simp only
    generalize (if stateOrFlags (s.port p) r then notifyPort p c (s.setPort p r) else s.setPort p r) = u at told
    split
    · obtain ⟨e, k⟩ := port_portEvent_own (p := p) (old := s.port p) (s := u) (by rw [told]; exact h)
      exact ⟨e, k.trans (by rw [told])⟩
    · exact ⟨r.everUsable, told⟩
  obtain ⟨e, base⟩ := base
  unfold commit
  simp only
  generalize commitBase p c r s = b at base
  have overtaken : (if (overtakes (s.port p) r && (b.port (portOther p)).state == .drill) = true then
      overtakeDrill (portOther p) b else b).port p = { r with everUsable := e } := by
    split
    · have other := port_overtakeDrill_other (p := portOther p) (s := b) (by rw [portOther_portOther, base]; exact h)
      rw [portOther_portOther] at other
      exact other.trans base
    · exact base
  generalize (if (overtakes (s.port p) r && (b.port (portOther p)).state == .drill) = true then
      overtakeDrill (portOther p) b else b) = v at overtaken
  split
  · split
    · refine ⟨e, none, ?_⟩
      unfold endDrill
      rw [port_endOp, port_setPort, overtaken]
    · exact ⟨e, r.drill, overtaken⟩
  · exact ⟨e, r.drill, overtaken⟩

/-! ### Rows that act only where they have their consequence -/

theorem onlyIf_acts {cond : State → State → Bool} {f : State → State} {s : State} (h : cond s (f s) = true) :
    onlyIf cond f s = f s := if_pos h

theorem onlyIf_idle {cond : State → State → Bool} {f : State → State} {s : State} (h : cond s (f s) = false) :
    onlyIf cond f s = s := if_neg (by simp [h])

/-- Where the row has its consequence it is the event it stands for. -/
theorem done_onlyIf {cond : State → State → Bool} {f : State → State} {s : State} (h : cond s (f s) = true) :
    done (onlyIf cond f) s = done f s := by
  rw [done_eq, done_eq]
  unfold event
  rw [onlyIf_acts h]

end Sys2Proof.Machine
end

section
/-! PROOFS. ALIGN_LOST and MARGINAL_SET (R25, R33). -/

namespace Sys2Proof.Machine

open Sys2Proof

/-- The record of a port at which one more frame position has passed. -/
def passedOne (r : PortRec) : PortRec := { r with arrived := r.arrived + 1 }

theorem badFrameAt_unaligned {p : PortId} {s : State} (h : isAligned (s.port p).state = false) :
    badFrameAt p s = s.setPort p (passedOne (s.port p)) := by
  unfold badFrameAt missingFrame
  exact if_neg (by rw [port_setPort]; simp [h])

theorem badFrameAt_aligned {p : PortId} {s : State} (h : isAligned (s.port p).state = true) :
    badFrameAt p s = alignedBad p (s.setPort p (passedOne (s.port p))) := by
  unfold badFrameAt missingFrame
  exact if_pos (by rw [port_setPort]; exact h)

theorem badFrameAt_kept {p : PortId} {s : State} (h : isAligned (s.port p).state = true)
    (run : (s.port p).badRun + 1 < 16) : badFrameAt p s =
      commit p .marginalSet (countBad s.start.rate (passedOne (s.port p))) (s.setPort p (passedOne (s.port p))) := by
  rw [badFrameAt_aligned h, alignedBad_kept (by rw [port_setPort]; exact run), port_setPort, start_setPort]

theorem badFrameAt_lost {p : PortId} {s : State} (h : isAligned (s.port p).state = true)
    (run : 16 ≤ (s.port p).badRun + 1) : badFrameAt p s =
      commit p .alignLost (lostRec s.start.rate (passedOne (s.port p))) (s.setPort p (passedOne (s.port p))) := by
  rw [badFrameAt_aligned h, alignedBad_lost (by rw [port_setPort]; exact run), port_setPort, start_setPort]

/-- Short of the 16th bad frame in a row the port takes the count. -/
theorem port_badFrameAt_kept {p : PortId} {s : State} (h : isAligned (s.port p).state = true)
    (run : (s.port p).badRun + 1 < 16) : ((badFrameAt p s).port p).state = (s.port p).state ∧
      ((badFrameAt p s).port p).flags = (countBad s.start.rate (passedOne (s.port p))).flags := by
  have state := (countBad_keeps s.start.rate (passedOne (s.port p))).1
  obtain ⟨e, d, record⟩ := port_commit (p := p) (c := .marginalSet)
    (r := countBad s.start.rate (passedOne (s.port p))) (s := s.setPort p (passedOne (s.port p))) (by
      rw [state]
      intro k
      rw [show (s.port p).state = .drill from k] at h
      cases h)
  rw [badFrameAt_kept h run, record]
  exact ⟨state, rfl⟩

/-- The 16th takes it to SEEK. -/
theorem port_badFrameAt_lost {p : PortId} {s : State} (h : isAligned (s.port p).state = true)
    (run : 16 ≤ (s.port p).badRun + 1) : ((badFrameAt p s).port p).state = .seek ∧
      ((badFrameAt p s).port p).flags = ⟨false, false, false⟩ := by
  obtain ⟨state, flags, -⟩ := state_leaveAlignment .seek { countBad s.start.rate (passedOne (s.port p)) with
    counters := { (countBad s.start.rate (passedOne (s.port p))).counters with
      alignLosses := bump (countBad s.start.rate (passedOne (s.port p))).counters.alignLosses } }
  have lost : (lostRec s.start.rate (passedOne (s.port p))).state = .seek := state
  rw [badFrameAt_lost h run, port_commit_down (by rw [lost]; simp) (by rw [lost]; simp)]
  exact ⟨state, flags⟩

theorem flags_countBad_within {rate : Rate} {r : PortRec} (h : ¬ (if rate = .k48 then 48 else 96) < r.winBad + 1) :
    (countBad rate r).flags = r.flags := by
  rw [countBad_within h]
  rfl

/-- Settles O23, row by row. -/
theorem badFramesCounted : Obligations.BadFramesCounted := by
  intro p s hr hs r past marked
  have own : SameUse (s.port p) (passedOne (s.port p)) := ⟨rfl, rfl, rfl⟩
  refine ⟨fun h => ?_, fun aligned run => ?_, fun h => ?_, fun aligned clear beyond run => ?_⟩
  · refine event_nothing hr hs (onlyIf_idle ?_)
    unfold losesAlignment
    cases aligned : isAligned (s.port p).state with
    | false => rfl
    | true =>
      have run := h.resolve_left (by rw [show isAligned r.state = true from aligned]; simp)
      rw [(port_badFrameAt_kept aligned run).1]
      have notSeek : (s.port p).state ≠ .seek := fun k => by rw [k] at aligned; cases aligned
      simp [notSeek]
  · have acts : losesAlignment p s (badFrameAt p s) = true := by
      unfold losesAlignment
      rw [(port_badFrameAt_lost aligned run).1, show isAligned (s.port p).state = true from aligned]
      rfl
    obtain ⟨state, light, -, relock, drill, settings, counters⟩ := countBad_keeps s.start.rate (passedOne (s.port p))
    obtain ⟨t, ht, unaligned, lit, counted, frame, notice⟩ := event_unaligned
      (f := onlyIf (losesAlignment p) (badFrameAt p)) (p := p) (st := .seek) (c := .alignLost) hr hs
      ((onlyIf_acts acts).trans (badFrameAt_lost aligned run)) own ⟨state, relock, drill, settings⟩
      (fun k => by rw [show r.state = .seek from k] at aligned; cases aligned) (by simp) (by simp)
    refine ⟨t, ht, unaligned, lit.trans light, counted.trans ?_, frame, fun down => ?_⟩
    · simp only [counters]
      rfl
    · have raised := notice down
      rw [show (s.port p).light = _ from light.symm]
      exact raised
  · refine event_nothing hr hs (onlyIf_idle ?_)
    unfold marginalSetAt
    cases aligned : isAligned (s.port p).state with
    | false =>
      rw [badFrameAt_unaligned aligned, port_setPort]
      exact Bool.not_and_self _
    | true =>
      by_cases run : 16 ≤ (s.port p).badRun + 1
      · rw [(port_badFrameAt_lost aligned run).2]
        exact Bool.and_false _
      · rw [(port_badFrameAt_kept aligned (Nat.not_le.1 run)).2]
        rcases h with h | h | h | h
        · rw [show isAligned (s.port p).state = false from h] at aligned
          cases aligned
        · rw [show (s.port p).flags.marginal = true from h]
          rfl
        · rw [flags_countBad_within (r := passedOne (s.port p)) (of_decide_eq_false h)]
          exact Bool.not_and_self _
        · exact absurd h run
  · have counted : countBad s.start.rate (passedOne (s.port p)) = marked := countBad_sets (of_decide_eq_true beyond) clear
    have acts : marginalSetAt p s (badFrameAt p s) = true := by
      unfold marginalSetAt
      rw [(port_badFrameAt_kept aligned run).2, counted, show (s.port p).flags.marginal = false from clear]
      rfl
    have effect := (onlyIf_acts acts).trans (badFrameAt_kept aligned run)
    rw [counted] at effect
    exact event_marginal (f := onlyIf (marginalSetAt p) (badFrameAt p)) (m := true) (x := marked) hr hs effect own rfl
      ⟨rfl, rfl, rfl⟩ rfl (by rw [show (s.port p).flags.marginal = false from clear]; simp)

end Sys2Proof.Machine
end

section
/-! PROOFS. The timers of a port: SETTLE, OFFER and RELOCK timer expiry, ERROR_WINDOW_END (R26, R29, R33 to R35, R41). -/

namespace Sys2Proof.Machine

open Sys2Proof

/-! ### The mean of a window (R34) -/

/-- Away from a tie the rounded quotient is the integer nearest to it. -/
theorem nearest_eq {x n : Int} {den : Nat} (pos : 0 < den) (lo : 2 * (den * n) < 2 * x + den)
    (hi : 2 * x < 2 * (den * n) + den) : nearest x den = n := by
  have pos' : (0 : Int) < den := Int.natCast_pos.2 pos
  unfold nearest
  simp only
  by_cases below : x < den * n
  · obtain ⟨q, r⟩ := (Int.ediv_emod_unique (a := x) (r := x - den * n + den) (q := n - 1) pos').2
      ⟨by rw [Int.mul_sub]; omega, by omega, by omega⟩
    rw [q, r, if_neg (by omega), if_pos (by omega)]
    omega
  · obtain ⟨q, r⟩ := (Int.ediv_emod_unique (a := x) (r := x - den * n) (q := n) pos').2
      ⟨by omega, by omega, by omega⟩
    rw [q, r, if_pos (by omega)]

theorem windowDelay_kept {r : PortRec} (h : r.winWholeUp = false ∨ r.delayCount = 0) : windowDelay r = r.linkDelay := by
  unfold windowDelay
  exact if_neg (by rcases h with h | h <;> simp [h])

theorem windowDelay_mean {r : PortRec} {d : Nat} (whole : r.winWholeUp = true) (some_ : 0 < r.delayCount)
    (lo : 2 * r.delayCount * d < 2 * r.delaySum + r.delayCount)
    (hi : 2 * r.delaySum < 2 * r.delayCount * d + r.delayCount) : windowDelay r = some d := by
  rw [Nat.mul_assoc] at lo hi
  have mean : nearest (r.delaySum : Int) r.delayCount = (d : Int) := nearest_eq some_ (by exact_mod_cast lo) (by exact_mod_cast hi)
  unfold windowDelay
  rw [if_pos (by simp [whole, Nat.pos_iff_ne_zero.1 some_]), mean]
  rfl

/-! ### SETTLE and OFFER -/

theorem settleExpired_idle {p : PortId} {s : State} (h : (s.port p).state ≠ .settle ∨ (s.port p).settle ≠ some 0) :
    settleExpired p s = s := by
  unfold settleExpired
  exact if_neg (by rcases h with h | h <;> simp [isDue, h])

theorem offerExpired_idle {p : PortId} {s : State} (h : (s.port p).state ≠ .offer ∨ (s.port p).offerT ≠ some 0) :
    offerExpired p s = s := by
  unfold offerExpired
  exact if_neg (by rcases h with h | h <;> simp [isDue, h])

/-- The offer timer that expires with no offer seen joins the link as FIXED. -/
theorem offerExpired_joins {p : PortId} {s : State} (offer : (s.port p).state = .offer)
    (due : (s.port p).offerT = some 0) (unseen : (s.port p).offerSeen = false) : offerExpired p s =
      commit p .fixedJoin { enterUp true (s.port p) with partner := none, linkDelay := none } s := by
  unfold offerExpired
  simp only
  rw [if_pos (by simp [offer, due, isDue]), if_neg (by simp [unseen])]

theorem settle_and_offer_expire (p : PortId) (s : State) (hr : s.inReset = false) (hs : Settled s) :
    let r := s.port p
    (r.state = .settle → r.settle = some 0 → ∃ t, exec (.settleTimerExpiry p) s = .next t ∧
      Happened [.portChange p .offer { r.flags with fixed := false, remoteFault := false } r.light .settled] s
        (s.setPort p { r with
          state := .offer, settle := none, offerT := some (500 * 96)
          flags := { r.flags with fixed := false, remoteFault := false }
          linkDelay := none, agreeRun := 0, agreeFrom := none, offerSeen := false, offerAgreed := false
          clearRun := 0, winWholeUp := false }) t) ∧
    (r.state ≠ .settle ∨ r.settle ≠ some 0 →
      ∃ t, exec (.settleTimerExpiry p) s = .next t ∧ Happened [] s s t) ∧
    (r.state = .offer → r.offerT = some 0 → r.offerSeen = true →
      ∃ t, exec (.offerTimerExpiry p) s = .next t ∧
        Happened [] s (s.setPort p { r with offerT := none }) t) ∧
    (r.state = .offer → r.offerT = some 0 → r.offerSeen = false →
      ∃ t, exec (.offerTimerExpiry p) s = .next t ∧ (t.port p).state = .up ∧
        (t.port p).flags = { r.flags with fixed := true } ∧ (t.port p).partner = none ∧
        (t.port p).linkDelay = none ∧ (t.port p).offerT = none ∧ (t.port p).relock = none ∧
        (t.port p).counters = r.counters ∧ PortEventFrame s t) ∧
    (r.state ≠ .offer ∨ r.offerT ≠ some 0 →
      ∃ t, exec (.offerTimerExpiry p) s = .next t ∧ Happened [] s s t) := by
  intro r
  refine ⟨fun settle due => ?_, fun h => event_nothing hr hs (settleExpired_idle h), fun offer due seen => ?_,
    fun offer due unseen => ?_, fun h => event_nothing hr hs (offerExpired_idle h)⟩
  · have down : (s.port p).state ≠ .up := by rw [show (s.port p).state = .settle from settle]; simp
    have entered : enterOffer { r with settle := none } = { r with
        state := .offer, settle := none, offerT := some (500 * 96)
        flags := { r.flags with fixed := false, remoteFault := false }
        linkDelay := none, agreeRun := 0, agreeFrom := none, offerSeen := false, offerAgreed := false
        clearRun := 0, winWholeUp := false } := if_neg down
    have effect : settleExpired p s = commit p .settled (enterOffer { r with settle := none }) s := by
      unfold settleExpired
      exact if_pos (by simp [show (s.port p).state = .settle from settle, show (s.port p).settle = some 0 from due, isDue])
    rw [entered] at effect
    exact event_portChange hr hs (effect.trans (commit_unusable hs (portUsable_down down) (portUsable_down (by simp))
        (by simp) (overtakes_off (.inr down) (by simp))
        (by simp [stateOrFlags, show (s.port p).state = .settle from settle])))
      ((portUsable_down (by simp)).trans (usable_down down).symm)
  · refine event_setPort hr hs (x := { r with offerT := none }) ?_ rfl
    unfold offerExpired
    simp only
    rw [if_pos (by simp [show (s.port p).state = .offer from offer, show (s.port p).offerT = some 0 from due, isDue])]
    exact if_pos seen
  · have effect := offerExpired_joins offer due unseen
    obtain ⟨e, d, record⟩ := port_commit (p := p) (c := .fixedJoin)
      (r := { enterUp true (s.port p) with partner := none, linkDelay := none }) (s := s) (by simp [enterUp])
    obtain ⟨t, ht, same, -, -, pending⟩ := done_blocks (f := offerExpired p) hr
    have evented : Evented s (offerExpired p s) := by rw [effect]; exact commit_evented _ _ _ _
    have here := port_settled same p
    rw [effect, record] at here
    refine ⟨t, ht, ?_, ?_, ?_, ?_, ?_, ?_, ?_, evented.portEventFrame same pending⟩ <;> rw [here] <;> rfl

/-! ### RELOCK -/

/-- The record after a relock failure (R35, R36). -/
def relockFailed (r : PortRec) : PortRec :=
  { r with relock := none, counters := { r.counters with relockFailures := bump r.counters.relockFailures } }

theorem relockExpired_idle {p : PortId} {s : State} (h : (s.port p).relock ≠ some 0) : relockExpired p s = s := by
  unfold relockExpired
  exact if_neg (by simp [isDue, h])

theorem relockExpired_counts {p : PortId} {s : State} (due : (s.port p).relock = some 0)
    (h : (s.port p).drill = none ∨ (s.port p).state = .drill) :
    relockExpired p s = s.setPort p (relockFailed (s.port p)) := by
  unfold relockExpired
  simp only
  rw [if_pos ((isDue_iff _).2 due)]
  split
  next d found =>
    rcases h with h | h
    · rw [h] at found
      cases found
    · exact if_pos h
  next => rfl

theorem relockExpired_ends {p : PortId} {d : DrillRec} {s : State} (due : (s.port p).relock = some 0)
    (found : (s.port p).drill = some d) (h : (s.port p).state ≠ .drill) :
    relockExpired p s = endOp d.tag .ok (.drill p (d.wrapFrame.map (· - d.start)) none)
      (s.setPort p { relockFailed (s.port p) with drill := none }) := by
  unfold relockExpired
  simp only [found]
  rw [if_pos ((isDue_iff _).2 due), if_neg h]
  unfold endDrill wrapFrames
  rw [port_setPort, setPort_setPort]
  rfl

/-! ### The error window -/

/-- The record with which a new window starts (R33, R34). -/
def windowAnew (rate : Rate) (r : PortRec) : PortRec :=
  startWindow { r with
    flags := { r.flags with marginal := r.flags.marginal && !windowClean rate r }, linkDelay := windowDelay r }

theorem windowClean_eq (rate : Rate) (r : PortRec) :
    windowClean rate r = (decide (r.winBad ≤ if rate = .k48 then 48 else 96) && !r.lightHeld) := by
  unfold windowClean
  rw [windowLimit_eq]

theorem windowEnded_idle {p : PortId} {s : State} (h : (s.port p).window ≠ some 0) : windowEnded p s = s := by
  unfold windowEnded
  exact if_neg (by simp [isDue, h])

theorem windowEnded_commits {p : PortId} {s : State} (due : (s.port p).window = some 0) :
    windowEnded p s = commit p .marginalClear (windowAnew s.start.rate (s.port p)) s := by
  unfold windowEnded
  exact if_pos ((isDue_iff _).2 due)

/-- Settles O26, timer by timer. -/
theorem portTimersExpire : Obligations.PortTimersExpire := by
  refine ⟨settle_and_offer_expire, ?_⟩
  intro p s hr hs r failed clean anew
  have renewed : windowAnew s.start.rate (s.port p) = anew := by
    unfold windowAnew
    rw [windowClean_eq]
    rfl
  refine ⟨fun due h => event_setPort hr hs (relockExpired_counts due h) rfl, fun d due found h op => ?_,
    fun h => event_nothing hr hs (relockExpired_idle h), windowDelay_kept, fun d => windowDelay_mean,
    fun due h => ?_, fun due marginal whole => ?_, fun h => event_nothing hr hs (windowEnded_idle h)⟩
  · obtain ⟨o, ho, kind⟩ := op
    have known : findOp d.tag (s.setPort p { relockFailed (s.port p) with drill := none }) = some o :=
      (findOp_of_ops (by rw [ctl_setPort]) d.tag).trans ho
    obtain ⟨blocks, raised, inbox, made, chosen⟩ := endOp_raised (v := .ok)
      (r := .drill p (d.wrapFrame.map (· - d.start)) none) known
    rw [kind, ctl_setPort] at blocks
    rw [kind] at raised
    exact event_noticed hr (relockExpired_ends due found h) (endOp_settled (hs.setPort p _ rfl))
      (raised.of_eq (by rw [ctl_setPort]) (by rw [ctl_setPort]) rfl rfl) blocks (inbox.trans (by rw [ctl_setPort]))
      (made.trans (by rw [ctl_setPort])) (chosen.trans (by rw [ctl_setPort])) (by simp)
  · have effect := windowEnded_commits due
    rw [renewed] at effect
    have flags : anew.flags = (s.port p).flags := by
      have keeps : (r.flags.marginal && !clean) = r.flags.marginal := by rcases h with h | h <;> simp [h]
      exact congrArg (fun m => { r.flags with marginal := m }) keeps
    exact event_setPort hr hs (effect.trans (commit_record rfl flags rfl))
      (show portUsable anew = portUsable (s.port p) from SameUse.usable ⟨rfl, by rw [flags], rfl⟩)
  · have effect := windowEnded_commits due
    rw [renewed] at effect
    have flags : anew.flags = { (s.port p).flags with marginal := false } := by
      have clears : (r.flags.marginal && !clean) = false := by rw [whole]; simp
      exact congrArg (fun m => { r.flags with marginal := m }) clears
    exact event_marginal (f := windowEnded p) (m := false) (x := anew) (y := s.port p) hr hs
      (by rw [setPort_port]; exact effect) ⟨rfl, rfl, rfl⟩ rfl ⟨rfl, by rw [flags], rfl⟩ flags
      (by rw [show (s.port p).flags.marginal = true from marginal]; simp)

end Sys2Proof.Machine
end

section
/-! PROOFS. The port event taken apart (R37, R40, R51 to R55): the blocks before the loop change, the drill's wrap frame,
the wraps, and the records of the ports. -/

namespace Sys2Proof.Machine

open Sys2Proof

/-! ### Ports that stand -/

/-- The ports stand as they did, but for the mark of one that has been usable, the drill record and the routed frame. -/
def PortsStand (s t : State) : Prop :=
  ∀ q, ∃ e d f, t.port q = { s.port q with everUsable := e, drill := d, routed := f }

theorem PortsStand.refl (s : State) : PortsStand s s := fun _ => ⟨_, _, _, rfl⟩

theorem PortsStand.of_ports {s t : State} (h : ∀ q, t.port q = s.port q) : PortsStand s t := fun q => ⟨_, _, _, h q⟩

theorem PortsStand.trans {s t u : State} (h : PortsStand s t) (k : PortsStand t u) : PortsStand s u := fun q => by
  obtain ⟨_, _, _, e⟩ := h q
  obtain ⟨_, _, _, e'⟩ := k q
  exact ⟨_, _, _, by rw [e', e]⟩

theorem PortsStand.ite {s a b : State} {c : Prop} [Decidable c] (h : PortsStand s a) (k : PortsStand s b) :
    PortsStand s (if c then a else b) := by
  split
  · exact h
  · exact k

theorem PortsStand.state {s t : State} (h : PortsStand s t) (q : PortId) : (t.port q).state = (s.port q).state := by
  obtain ⟨_, _, _, e⟩ := h q
  rw [e]

theorem PortsStand.usable {s t : State} (h : PortsStand s t) (q : PortId) : t.usable q = s.usable q := by
  obtain ⟨_, _, _, e⟩ := h q
  unfold State.usable
  rw [e]
  rfl

theorem Calm.portsStand {s t : State} (h : Calm s t) : PortsStand s t := fun q => by
  obtain ⟨_, _, e⟩ := h.ports q
  exact ⟨_, _, _, e⟩

/-! ### The Control Port through a loop change -/

theorem Quiet.ite {s a b : State} {c : Prop} [Decidable c] (h : Quiet s a) (k : Quiet s b) :
    Quiet s (if c then a else b) := by
  split
  · exact h
  · exact k

theorem loseCurrency_quiet (s : State) : Quiet s (loseCurrency s) := by
  unfold loseCurrency
  exact .ite (.refl s) (Quiet.trans (.of_ctl rfl) (.of_ctl (by simp)))

theorem afterLoop_quiet (c : LoopCause) (old s : State) : Quiet s (afterLoop c old s) := by
  have first : Quiet s (dropPlans (loopMode old) (takeoverCheck (loopMode old) s)) := .of_ctl (by simp)
  have drilled (a : State) (p : PortId) : Quiet a (drillWrap (loopMode old) a p) := .of_ctl (by simp)
  have closed (a : State) : Quiet a (retryCheck (rejudge a)) := .of_ctl (by simp)
  have all (a : State) := (Quiet.ite (c := modeLosesCopy a = true) (loseCurrency_quiet a) (.refl a)).trans (closed _)
  have changed := ((first.trans (drilled _ .a)).trans (drilled _ .b)).trans (all _)
  unfold afterLoop
  exact .ite (changed.trans (notify_quiet _ _)) changed

theorem dropKeys_quiet (c : DropCause) (s : State) : Quiet s (dropKeys c s) := by
  unfold dropKeys
  exact Quiet.trans (.of_ctl rfl) (notify_quiet _ _)

/-! ### The wrap frame of a drill (R40) -/

/-- The record of port `p` after a change of the loop mode from `before` to `now` at frame `count`: a drilled port's own
wrap is noted once. -/
def drillMark (before now : LoopMode) (count : FrameNo) (p : PortId) (r : PortRec) : PortRec :=
  match r.drill with
  | none => r
  | some d =>
    if r.state = .drill && d.wrapFrame.isNone && before != wrapMode p && now == wrapMode p then
      { r with drill := some { d with wrapFrame := some count } }
    else r

theorem port_drillWrap_own (m : LoopMode) (s : State) (p : PortId) :
    (drillWrap m s p).port p = drillMark m (loopMode s) s.loop.count p (s.port p) := by
  unfold drillWrap drillMark
  simp only
  cases (s.port p).drill with
  | none => rfl
  | some d =>
    simp only
    split
    · exact port_setPort _ _ _
    · rfl

theorem port_drillWrap_other (m : LoopMode) (s : State) (p : PortId) :
    (drillWrap m s p).port (portOther p) = s.port (portOther p) := by
  unfold drillWrap
  simp only
  split
  · rfl
  · split
    · exact port_setPort_other _ _ _
    · rfl

theorem loopMode_drillWrap (m : LoopMode) (s : State) (p : PortId) : loopMode (drillWrap m s p) = loopMode s :=
  loopMode_of_loop ⟨s.loop.takeover, by simp⟩ (by simp) (usable_drillWrap m s p)

/-- What a change of the loop record leaves in a port's record. -/
theorem port_afterLoop_mark (c : LoopCause) (old s : State) (q : PortId) :
    (afterLoop c old s).port q = drillMark (loopMode old) (loopMode s) s.loop.count q (s.port q) := by
  have ports (p : PortId) : (dropPlans (loopMode old) (takeoverCheck (loopMode old) s)).port p = s.port p := by
    rw [port_dropPlans, port_takeoverCheck]
  have loop : ∃ x, (dropPlans (loopMode old) (takeoverCheck (loopMode old) s)).loop = { s.loop with takeover := x } := by
    have kept : (dropPlans (loopMode old) (takeoverCheck (loopMode old) s)).loop =
        (takeoverCheck (loopMode old) s).loop := by simp
    rw [kept]
    unfold takeoverCheck
    repeat' split
    · exact ⟨_, rfl⟩
    · exact ⟨_, rfl⟩
    · exact ⟨s.loop.takeover, rfl⟩
  have mode : loopMode (dropPlans (loopMode old) (takeoverCheck (loopMode old) s)) = loopMode s :=
    loopMode_of_loop loop (by simp) fun p => congrArg portUsable (ports p)
  have count : (dropPlans (loopMode old) (takeoverCheck (loopMode old) s)).loop.count = s.loop.count := by
    obtain ⟨x, e⟩ := loop
    rw [e]
  unfold afterLoop
  simp only
  generalize dropPlans (loopMode old) (takeoverCheck (loopMode old) s) = a at ports mode count
  have marked : (drillWrap (loopMode old) (drillWrap (loopMode old) a .a) .b).port q =
      drillMark (loopMode old) (loopMode s) s.loop.count q (s.port q) := by
    rw [← mode, ← count, ← ports q]
    cases q with
    | a => exact (port_drillWrap_other _ _ .b).trans (port_drillWrap_own _ _ _)
    | b =>
      rw [port_drillWrap_own, loopMode_drillWrap, (parts_drillWrap _ _ _).2.1]
      exact congrArg _ (port_drillWrap_other _ _ .a)
  generalize drillWrap (loopMode old) (drillWrap (loopMode old) a .a) .b = d at marked
  have currency : (if modeLosesCopy d then loseCurrency d else d).port q = d.port q := by
    split
    · exact port_of_parts (by simp) (by simp) q
    · rfl
  generalize (if modeLosesCopy d then loseCurrency d else d) = u at currency
  have closed : (retryCheck (rejudge u)).port q = u.port q := port_of_parts (by simp) (by simp) q
  rw [currency, marked] at closed
  split
  · exact (port_of_parts (by simp) (by simp) q).trans closed
  · exact closed

theorem drillMark_elsewhere {before now : LoopMode} {count : FrameNo} {p : PortId} {r : PortRec} (h : now ≠ wrapMode p) :
    drillMark before now count p r = r := by
  unfold drillMark
  split
  · rfl
  · exact if_neg (by simp [h])

theorem drillMark_enters {before now : LoopMode} {count : FrameNo} {p : PortId} {r : PortRec} {d : DrillRec}
    (drill : r.drill = some d) (state : r.state = .drill) (first : d.wrapFrame = none) (h : before ≠ wrapMode p)
    (k : now = wrapMode p) :
    drillMark before now count p r = { r with drill := some { d with wrapFrame := some count } } := by
  unfold drillMark
  simp only [drill]
  exact if_pos (by simp [state, first, h, k])

/-! ### The blocks of a port event before the loop change -/

/-- Loop mode and wraps stand through the change but for usability, and the ports and the Control Port stand. -/
structure Told (s t : State) : Prop where
  same : SameLoop s t
  count : t.loop.count = s.loop.count
  ports : ∀ q, ∃ e, t.port q = { s.port q with everUsable := e }
  quiet : Quiet s t

theorem Told.refl (s : State) : Told s s :=
  ⟨⟨rfl, rfl, rfl, rfl, rfl, rfl, rfl⟩, rfl, fun _ => ⟨_, rfl⟩, .refl s⟩

theorem Told.trans {s t u : State} (h : Told s t) (k : Told t u) : Told s u where
  same := h.same.trans k.same
  count := k.count.trans h.count
  ports := fun q => by
    obtain ⟨_, e⟩ := h.ports q
    obtain ⟨x, e'⟩ := k.ports q
    exact ⟨x, by rw [e', e]⟩
  quiet := h.quiet.trans k.quiet

theorem Told.stands {s t : State} (h : Told s t) : PortsStand s t := fun q => by
  obtain ⟨_, e⟩ := h.ports q
  exact ⟨_, _, _, e⟩

theorem Told.usable {s t : State} (h : Told s t) (q : PortId) : t.usable q = s.usable q := h.stands.usable q

theorem Told.ite {s a b : State} {c : Prop} [Decidable c] (h : Told s a) (k : Told s b) : Told s (if c then a else b) := by
  split
  · exact h
  · exact k

theorem Told.mode {s t : State} (h : Told s t) : loopMode t = loopMode s :=
  h.same.mode (h.usable .a) (h.usable .b)

theorem Told.wrapAt {s t : State} (h : Told s t) (q : PortId) : t.wrapAt q = s.wrapAt q := by
  cases q
  · exact h.same.wrapA
  · exact h.same.wrapB

theorem notify_told (n : Notice) (s : State) : Told s (notify n s) :=
  ⟨(notify_admits n s).sameLoop, by simp, fun q => ⟨_, port_notify n s q⟩, notify_quiet n s⟩

theorem markUsable_told (p : PortId) (s : State) : Told s (markUsable p s) := by
  unfold markUsable
  refine .ite ⟨setPort_sameLoop _ _ _, by simp, fun q => ?_, .of_ctl (by simp)⟩ (.refl s)
  by_cases e : q = p
  · rw [e, port_setPort]
    exact ⟨_, rfl⟩
  · rw [eq_portOther e, port_setPort_other]
    exact ⟨_, rfl⟩

theorem pushLinkNote_told (p : PortId) (s : State) : Told s (pushLinkNote p s) := by
  refine ⟨(pushLinkNote_admits p s).sameLoop, ?_, fun q => ⟨_, port_pushLinkNote p s q⟩, .of_ctl ?_⟩
  all_goals
    unfold pushLinkNote
    split
    · rfl
    · cases p <;> rfl

theorem LinksJudged.told {s t : State} (h : LinksJudged s t) : Told s t := by
  refine ⟨h.sameLoop, ?_, fun q => ⟨_, h.ports q⟩, ?_⟩
  all_goals obtain ⟨_, _, _, _, l, b, d, rfl⟩ := h
  · rfl
  · exact ⟨l, b, d, rfl⟩

/-- The state of a port event before the loop change: the wraps, the mark of a usable port, the note and the master's
record of it (R37, R51 to R55). -/
def portTold (p : PortId) (old : PortRec) (s : State) : State :=
  let s1 := markUsable p (wrapStep p (portUsable old) s)
  if noteDue old (s.port p) then
    takeLinkNote s.start.id p (linkState (s.port p)) (s.port p).flags.marginal ((s.port p).partner.map (·.sender))
      ((s.port p).partner.bind (·.offer.origin)) (pushLinkNote p s1)
  else s1

theorem portTold_told (p : PortId) (old : PortRec) (s : State) :
    Told (wrapStep p (portUsable old) s) (portTold p old s) := by
  have marked := markUsable_told p (wrapStep p (portUsable old) s)
  unfold portTold
  exact .ite (marked.trans ((pushLinkNote_told p _).trans (takeLinkNote_judged _ _ _ _ _ _ _).told)) marked

/-- The last usable port of a follower is lost (R51). -/
def originGone (a : State) : State := dropKeys .originLost { a with loop := { a.loop with following := false } }

theorem portEvent_eq (p : PortId) (old : PortRec) (s : State) : portEvent p old s =
    if losesOrigin (portUsable old) (portTold p old s) then
      afterLoop .originLost (s.setPort p old) (originGone (portTold p old s))
    else afterLoop .port (s.setPort p old) (portTold p old s) := rfl

theorem originGone_calm (a : State) : Calm a (originGone a) := by
  unfold originGone
  exact (dropKeys_calm _ _).after rfl

theorem originGone_loop (a : State) : (originGone a).loop = { a.loop with following := false } := by
  unfold originGone
  simp

theorem originGone_quiet (a : State) : Quiet a (originGone a) := by
  unfold originGone
  exact Quiet.trans (.of_ctl rfl) (dropKeys_quiet _ _)

/-! ### What a port event leaves -/

theorem wrapStep_loop (p : PortId) (was : Bool) (s : State) :
    ∃ a b, (wrapStep p was s).loop = { s.loop with wrapA := a, wrapB := b } := by
  have one (a : State) (q : PortId) (w : Wrap) : ∃ x y, (a.setWrap q w).loop = { a.loop with wrapA := x, wrapB := y } := by
    cases q
    · exact ⟨w, a.loop.wrapB, rfl⟩
    · exact ⟨a.loop.wrapA, w, rfl⟩
  have two (a : State) (q q' : PortId) (w w' : Wrap) :
      ∃ x y, ((a.setWrap q w).setWrap q' w').loop = { a.loop with wrapA := x, wrapB := y } := by
    obtain ⟨_, _, e⟩ := one a q w
    obtain ⟨x, y, e'⟩ := one (a.setWrap q w) q' w'
    exact ⟨x, y, by rw [e', e]⟩
  unfold wrapStep
  simp only
  repeat' split
  · exact two _ _ _ _ _
  · exact two _ _ _ _ _
  · exact one _ _ _
  · exact one _ _ _
  · exact ⟨s.loop.wrapA, s.loop.wrapB, rfl⟩
  · exact ⟨s.loop.wrapA, s.loop.wrapB, rfl⟩

theorem ctl_wrapStep (p : PortId) (was : Bool) (s : State) : (wrapStep p was s).ctl = s.ctl := by
  unfold wrapStep
  simp only
  repeat' split
  all_goals simp

theorem portTold_ports (p : PortId) (old : PortRec) (s : State) : PortsStand s (portTold p old s) :=
  (PortsStand.of_ports (port_wrapStep p _ s)).trans (portTold_told p old s).stands

theorem portEvent_ports (p : PortId) (old : PortRec) (s : State) : PortsStand s (portEvent p old s) := by
  rw [portEvent_eq]
  exact (portTold_ports p old s).trans (.ite
    ((originGone_calm _).portsStand.trans (afterLoop_calm _ _ _).portsStand) (afterLoop_calm _ _ _).portsStand)

theorem portEvent_quiet (p : PortId) (old : PortRec) (s : State) : Quiet s (portEvent p old s) := by
  rw [portEvent_eq]
  exact (Quiet.of_ctl (ctl_wrapStep p _ s)).trans ((portTold_told p old s).quiet.trans (.ite
    ((originGone_quiet _).trans (afterLoop_quiet _ _ _)) (afterLoop_quiet _ _ _)))

/-- The wraps after a port event are those of R52 and R53. -/
theorem wrapAt_portEvent (p : PortId) (old : PortRec) (s : State) (q : PortId) :
    (portEvent p old s).wrapAt q = (wrapStep p (portUsable old) s).wrapAt q := by
  have told := (portTold_told p old s).wrapAt q
  rw [portEvent_eq]
  split
  · rw [wrapAt_of_loop (loop_afterLoop _ _ _), ← told]
    cases q <;> simp [State.wrapAt, originGone_loop]
  · rw [wrapAt_of_loop (loop_afterLoop _ _ _), told]

/-- Where the other port is usable the node keeps its origin. -/
theorem portEvent_keeps {p : PortId} {old : PortRec} {s : State} (other : s.usable (portOther p) = true) :
    portEvent p old s = afterLoop .port (s.setPort p old) (portTold p old s) := by
  have still := ((portTold_ports p old s).usable (portOther p)).trans other
  rw [portEvent_eq]
  refine if_neg ?_
  unfold losesOrigin
  cases p <;> simp [portOther] at still <;> simp [still]

/-! ### A change of a port's record and the other port -/

/-- A change of state or flags brings the port event. -/
theorem commitBase_event {p : PortId} {c : PortCause} {r : PortRec} {s : State}
    (h : stateOrFlags (s.port p) r = true) : commitBase p c r s =
      portEvent p (s.port p) (notify (.portChange p r.state r.flags r.light c) (s.setPort p r)) := by
  unfold commitBase notifyPort
  simp only [h, if_true, Bool.true_or, port_setPort]

/-- Where no drill at the other port is overtaken and the port does not come to be UP, the change has no more to it. -/
theorem commit_base {p : PortId} {c : PortCause} {r : PortRec} {s : State}
    (drill : overtakes (s.port p) r = false ∨ ((commitBase p c r s).port (portOther p)).state ≠ .drill)
    (join : (s.port p).state = .up ∨ r.state ≠ .up) : commit p c r s = commitBase p c r s := by
  unfold commit
  simp only
  have none_ : (overtakes (s.port p) r && ((commitBase p c r s).port (portOther p)).state == .drill) = false := by
    rcases drill with h | h <;> simp [h]
  simp only [none_, Bool.false_eq_true, if_false]
  exact if_neg (by rcases join with h | h <;> simp [h])

theorem commitBase_quiet (p : PortId) (c : PortCause) (r : PortRec) (s : State) : Quiet s (commitBase p c r s) := by
  have told (a : State) (b : Bool) : Quiet a (if b = true then notifyPort p c a else a) :=
    .ite (notify_quiet _ _) (.refl a)
  have moved (a : State) (b : Bool) (old : PortRec) : Quiet a (if b = true then portEvent p old a else a) :=
    .ite (portEvent_quiet _ _ _) (.refl a)
  unfold commitBase
  exact (Quiet.of_ctl (ctl_setPort _ _ _)).trans ((told _ _).trans (moved _ _ _))

/-- The other port stands through the change. -/
theorem commitBase_ports (p : PortId) (c : PortCause) (r : PortRec) (s : State) :
    PortsStand (s.setPort p r) (commitBase p c r s) := by
  have told (a : State) (b : Bool) : PortsStand a (if b = true then notifyPort p c a else a) :=
    .ite (notify_calm _ _).portsStand (.refl a)
  have moved (a : State) (b : Bool) (old : PortRec) : PortsStand a (if b = true then portEvent p old a else a) :=
    .ite (portEvent_ports _ _ _) (.refl a)
  unfold commitBase
  exact (told _ _).trans (moved _ _ _)

/-- A usable port beside the changed one is not drilled. -/
theorem commitBase_undrilled {p : PortId} {c : PortCause} {r : PortRec} {s : State}
    (other : s.usable (portOther p) = true) : ((commitBase p c r s).port (portOther p)).state ≠ .drill := by
  have up : (s.port (portOther p)).state = .up := by
    simp only [State.usable, portUsable, Bool.and_eq_true, beq_iff_eq] at other
    exact other.1
  rw [(commitBase_ports p c r s).state, port_setPort_other, up]
  simp

/-- The record of a port that stops being usable differs in state or flags. -/
theorem stateOrFlags_usable {a b : PortRec} (h : portUsable a ≠ portUsable b) : stateOrFlags a b = true := by
  cases k : stateOrFlags a b with
  | true => rfl
  | false =>
    obtain ⟨state, flags⟩ := not_stateOrFlags k
    refine absurd ?_ h
    unfold portUsable
    rw [state, flags]

/-- A usable port beside another is lost: its wrap is LOSS, and the other port's is released (R52). -/
theorem wrapStep_lost {p : PortId} {s : State} (now : s.usable p = false) (other : s.usable (portOther p) = true) :
    wrapStep p true s = (s.setWrap p .loss).setWrap (portOther p) .none := by
  unfold wrapStep
  simp [now, other]

theorem commit_lost {p : PortId} {c : PortCause} {r : PortRec} {s : State} (was : s.usable p = true)
    (now : portUsable r = false) (other : s.usable (portOther p) = true) :
    commit p c r s =
      portEvent p (s.port p) (notify (.portChange p r.state r.flags r.light c) (s.setPort p r)) ∧
    (commit p c r s).wrapAt p = .loss ∧ (commit p c r s).wrapAt (portOther p) = .none := by
  have wasUp : (s.port p).state = .up := by
    simp only [State.usable, portUsable, Bool.and_eq_true, beq_iff_eq] at was
    exact was.1
  have base := (commit_base (c := c) (r := r) (.inr (commitBase_undrilled other)) (.inl wasUp)).trans
    (commitBase_event (stateOrFlags_usable (by rw [now]; exact fun k => by rw [show portUsable (s.port p) = true from was] at k; cases k)))
  have told := notify_told (.portChange p r.state r.flags r.light c) (s.setPort p r)
  have lost := wrapStep_lost (p := p) ((told.usable p).trans ((usable_setPort _ _ _).trans now))
    ((told.usable _).trans ((usable_setPort_other _ _ _).trans other))
  refine ⟨base, ?_, ?_⟩
  · rw [base, wrapAt_portEvent, show portUsable (s.port p) = true from was, lost, wrapAt_other_setWrap, wrapAt_setWrap]
  · rw [base, wrapAt_portEvent, show portUsable (s.port p) = true from was, lost, wrapAt_setWrap]

end Sys2Proof.Machine
end

section
/-! PROOFS. DRILL (R39, R40, R52, R183), the end of its period (R41), and the drill that the other port's loss overtakes
(R42). -/

namespace Sys2Proof.Machine

open Sys2Proof

/-! ### A drill starts (R39, R40, R52) -/

/-- The record of a port that a drill takes (R39). -/
def drillRec (ms : Nat) (tag : Byte) (count : FrameNo) (r : PortRec) : PortRec :=
  { clearWork r with
    state := .drill
    txOn := false
    relock := none
    drillT := some (ticksOf ms)
    drill := some ⟨count, ms, none, tag⟩
    counters := { r.counters with drills := bump r.counters.drills } }

theorem startDrill_eq (p : PortId) (ms : Nat) (tag : Byte) (s : State) :
    startDrill p ms tag s = commit p .drillStart (drillRec ms tag s.loop.count (s.port p)) s := rfl

/-- The mode of a CLOSED node at which a port's wrap has become LOSS (R45, R52). -/
theorem loopMode_lost {s t : State} {p : PortId} (closed : loopMode s = .closed) (start : t.start = s.start)
    (conflict : t.loop.conflict = s.loop.conflict) (role : t.loop.role = s.loop.role)
    (group : t.loop.group = s.loop.group) (following : t.loop.following = s.loop.following)
    (lost : t.wrapAt p = .loss) (released : t.wrapAt (portOther p) = .none)
    (usable : t.usable (portOther p) = true) : loopMode t = wrapMode p := by
  obtain ⟨held, free, follower⟩ := closed_parts closed
  rw [← start] at held
  rw [← conflict] at free
  rw [← role, ← group, ← following] at follower
  clear start conflict role group following closed
  unfold loopMode
  cases p <;> cases hr : t.loop.role <;>
    simp_all [State.isOrigin, State.wrapAt, portOther, wrapMode, Option.isNone_iff_eq_none]

/-- A port that is not usable before and after the change. -/
theorem commitBase_unusable {p : PortId} {c : PortCause} {r : PortRec} {s : State} (hs : Settled s)
    (was : portUsable (s.port p) = false) (now : portUsable r = false) : commitBase p c r s =
      if stateOrFlags (s.port p) r then notify (.portChange p r.state r.flags r.light c) (s.setPort p r)
      else s.setPort p r := by
  have settled : Settled (s.setPort p r) := hs.setPort p r (by rw [now]; exact was.symm)
  have event (a : State) (ha : Settled a) (k : a.port p = r) : portEvent p (s.port p) a = a :=
    portEvent_unusable ha was (by unfold State.usable; rw [k]; exact now)
  cases moved : stateOrFlags (s.port p) r with
  | true =>
    rw [commitBase_event moved, event _ (notify_settled _ settled) (by rw [port_notify, port_setPort])]
    rfl
  | false =>
    unfold commitBase
    simp only [moved, Bool.false_eq_true, if_false, event _ settled (port_setPort _ _ _), ite_self]

/-- What a drill leaves that starts beside a usable port of a CLOSED node. -/
structure DrillStarted (p : PortId) (ms : Nat) (tag : Byte) (s t : State) : Prop where
  record : ∃ e, t.port p = { drillRec ms tag s.loop.count (s.port p) with
    everUsable := e
    drill := some ⟨s.loop.count, ms, if s.usable p then some s.loop.count else none, tag⟩ }
  quiet : Quiet s t
  wraps : s.usable p = true → t.wrapAt p = .loss ∧ t.wrapAt (portOther p) = .none ∧ loopMode t = wrapMode p

/-- The drill of a usable port takes its link to a LOSS wrap, whose frame the drill's record notes (R40, R52). -/
theorem startDrill_usable {p : PortId} {ms : Nat} {tag : Byte} {s : State} (closed : loopMode s = .closed)
    (other : s.usable (portOther p) = true) (usable : s.usable p = true) :
    DrillStarted p ms tag s (startDrill p ms tag s) := by
  let r := drillRec ms tag s.loop.count (s.port p)
  let u := notify (.portChange p r.state r.flags r.light .drillStart) (s.setPort p r)
  have set : Told (s.setPort p r) u := notify_told _ _
  obtain ⟨effect, lost, released⟩ := commit_lost (c := .drillStart) (r := r) usable (portUsable_down (by simp [r, drillRec])) other
  rw [← startDrill_eq] at effect lost released
  have stillOther : u.usable (portOther p) = true := (set.usable _).trans ((usable_setPort_other _ _ _).trans other)
  have event := effect.trans (portEvent_keeps stillOther)
  have before : loopMode (u.setPort p (s.port p)) = .closed := by
    rw [show u.setPort p (s.port p) = notify _ s by rw [setPort_notify, setPort_setPort, setPort_port]]
    exact (notify_told _ s).mode.trans closed
  obtain ⟨a, b, wrapped⟩ := wrapStep_loop p (portUsable (s.port p)) u
  have told := portTold_told p (s.port p) u
  have mode : loopMode (portTold p (s.port p) u) = wrapMode p := by
    rw [event, wrapAt_of_loop (loop_afterLoop _ _ _)] at lost released
    refine loopMode_lost closed ?_ ?_ ?_ ?_ ?_ lost released (((portTold_ports p _ u).usable _).trans stillOther)
    · rw [told.same.start, start_wrapStep, set.same.start, start_setPort]
    · rw [told.same.conflict, wrapped]
      exact set.same.conflict.trans (by rw [loop_setPort])
    · rw [told.same.role, wrapped]
      exact set.same.role.trans (by rw [loop_setPort])
    · rw [told.same.group, wrapped]
      exact set.same.group.trans (by rw [loop_setPort])
    · rw [told.same.following, wrapped]
      exact set.same.following.trans (by rw [loop_setPort])
  have count : (portTold p (s.port p) u).loop.count = s.loop.count := by
    rw [told.count, wrapped]
    exact set.count.trans (by rw [loop_setPort])
  refine ⟨?_, ?_, fun _ => ⟨lost, released, by rw [event, loopMode_afterLoop, mode]⟩⟩
  · have marked : ∃ e, (portTold p (s.port p) u).port p = { r with everUsable := e } := by
      obtain ⟨x, hx⟩ := set.ports p
      obtain ⟨y, hy⟩ := told.ports p
      exact ⟨y, by rw [hy, port_wrapStep, hx, port_setPort]⟩
    obtain ⟨e, marked⟩ := marked
    refine ⟨e, ?_⟩
    rw [event, port_afterLoop_mark, mode, before, count, marked,
      drillMark_enters (d := ⟨s.loop.count, ms, none, tag⟩) rfl rfl rfl (by cases p <;> simp [wrapMode]) rfl, usable]
    rfl
  · rw [event]
    exact (Quiet.of_ctl (ctl_setPort _ _ _)).trans (set.quiet.trans ((Quiet.of_ctl (ctl_wrapStep _ _ _)).trans
      (told.quiet.trans (afterLoop_quiet _ _ _))))

/-- The drill of a port that is not usable moves no wrap. -/
theorem startDrill_unusable {p : PortId} {ms : Nat} {tag : Byte} {s : State} (hs : Settled s)
    (other : s.usable (portOther p) = true) (unusable : s.usable p = false) :
    DrillStarted p ms tag s (startDrill p ms tag s) := by
  have base := commit_base (c := .drillStart) (r := drillRec ms tag s.loop.count (s.port p))
    (.inr (commitBase_undrilled other)) (.inr (by simp [drillRec]))
  have effect := base.trans (commitBase_unusable hs unusable (portUsable_down (by simp [drillRec])))
  rw [← startDrill_eq] at effect
  have record : (startDrill p ms tag s).port p = drillRec ms tag s.loop.count (s.port p) := by
    rw [effect]
    split
    · rw [port_notify, port_setPort]
    · exact port_setPort _ _ _
  refine ⟨⟨(s.port p).everUsable, ?_⟩, ?_, fun usable => by rw [unusable] at usable; cases usable⟩
  · rw [record, unusable]
    rfl
  · rw [effect]
    exact .ite ((Quiet.of_ctl (ctl_setPort _ _ _)).trans (notify_quiet _ _)) (.of_ctl (ctl_setPort _ _ _))

theorem startDrill_started {p : PortId} {ms : Nat} {tag : Byte} {s : State} (hs : Settled s)
    (closed : loopMode s = .closed) (other : s.usable (portOther p) = true) :
    DrillStarted p ms tag s (startDrill p ms tag s) := by
  cases usable : s.usable p with
  | true => exact startDrill_usable closed other usable
  | false => exact startDrill_unusable hs other usable

/-! ### DRILL's checks (R39, R183) -/

/-- An operation enters a table that has room and does not know its tag. -/
theorem findOp_addOp {o : Operation} {s : State} (room : opCount s < 8) (size : s.ctl.ops.length = 8)
    (unknown : findOp o.tag s = none) : findOp o.tag (addOp o s) = some o := by
  have placed (l : List (Option Operation)) (free : (l.filter Option.isSome).length < l.length)
      (fresh : ∀ x, some x ∈ l → x.tag ≠ o.tag) : (placeOp o l).findSome? (fun x => match x with
        | some x => if x.tag = o.tag then some x else none
        | none => none) = some o := by
    induction l with
    | nil => cases free
    | cons x l ih =>
      cases x with
      | none => simp [placeOp]
      | some x =>
        have other := fresh x (by simp)
        simp only [placeOp, List.findSome?_cons, if_neg other]
        refine ih ?_ fun y hy => fresh y (List.mem_cons_of_mem _ hy)
        simpa using free
  exact placed s.ctl.ops (by unfold opCount at room; omega) (findOp_eq_none.1 unknown)

theorem admission_unqueued (tag : Byte) (s : State) :
    (8 ≤ opCount s → admission tag false s = some .busy) ∧
    (opCount s < 8 → (findOp tag s).isSome = true → admission tag false s = some (.refused .state)) ∧
    (opCount s < 8 → findOp tag s = none → admission tag false s = none) := by
  unfold admission
  refine ⟨fun h => if_pos h, fun h hf => ?_, fun h hf => ?_⟩
  all_goals rw [if_neg (Nat.not_le.2 h)]
  · rw [if_pos hf]
  · simp [hf]

/-- DRILL's own checks once it is admitted, in order (R39). -/
theorem judgeDrill_admitted {tag : Byte} {p : PortId} {ms : Nat} {s : State} (admitted : admission tag false s = none) :
    (ms < 100 ∨ 10000 < ms → judgeDrill tag p ms s = refuse .range s) ∧
    (¬ (ms < 100 ∨ 10000 < ms) → locked 1 s = true → judgeDrill tag p ms s = refuse .locked s) ∧
    (¬ (ms < 100 ∨ 10000 < ms) → locked 1 s = false →
      (s.portA.drill.isSome = true ∨ s.portB.drill.isSome = true ∨ loopMode s ≠ .closed ∨
        s.usable (portOther p) = false → judgeDrill tag p ms s = refuse .state s) ∧
      (s.portA.drill.isSome = false → s.portB.drill.isSome = false → loopMode s = .closed →
        s.usable (portOther p) = true → judgeDrill tag p ms s =
          started (startDrill p ms tag (addOp ⟨tag, .drill, .running, none, none, none⟩ s)))) := by
  have range_iff : (decide (ms < 100) || decide (10000 < ms)) = true ↔ ms < 100 ∨ 10000 < ms := by simp
  unfold judgeDrill
  simp only [admitted]
  refine ⟨fun range => if_pos (range_iff.2 range), fun range lock => ?_, fun range low => ⟨fun state => ?_,
    fun a b closed other => ?_⟩⟩
  all_goals rw [if_neg (mt range_iff.1 range)]
  · exact if_pos lock
  · rw [if_neg (by simp [low])]
    rcases state with h | h | h | h
    · exact if_pos (by simp [h])
    · exact if_pos (by simp [h])
    · rw [if_pos h, ite_self]
    · rw [if_pos (show (!s.usable (portOther p)) = true by simp [h]), ite_self, ite_self]
  · rw [if_neg (by simp [low]), if_neg (by simp [a, b]), if_neg (by simp [closed]), if_neg (by simp [other])]

theorem addOp_settled (o : Operation) {s : State} (h : Settled s) : Settled (addOp o s) :=
  ⟨h.1, h.2, h.3, h.4, h.5, h.6⟩

theorem opCount_goodRequest (s : State) : opCount (goodRequest s) = opCount s := by simp [opCount, goodRequest_ops]

theorem pending_goodRequest (s : State) : (goodRequest s).pending = s.pending := by
  unfold goodRequest
  simp only
  split <;> simp [onSilenceClear, mapOuts, notify_raised]

/-- The drill that passes its checks (R39, R40, R52). -/
theorem drill_passes {tag : Byte} {p : PortId} {ms : Nat} {s : State} (h : Taken s) (hs : Settled s)
    (size : s.ctl.ops.length = 8) (room : opCount s < 8) (unknown : findOp tag s = none)
    (range : ¬ (ms < 100 ∨ 10000 < ms)) (low : s.lock.level = 0) (noA : s.portA.drill.isSome = false)
    (noB : s.portB.drill.isSome = false) (closed : loopMode s = .closed) (other : s.usable (portOther p) = true) :
    ∃ t e, exec (.drill tag p ms) s = .next t ∧ Replied tag .started s t ∧
      findOp tag t = some ⟨tag, .drill, .running, none, none, none⟩ ∧
      t.port p = { drillRec ms tag s.loop.count (s.port p) with
        everUsable := e
        drill := some ⟨s.loop.count, ms, if s.usable p then some s.loop.count else none, tag⟩ } ∧
      (s.usable p = true → t.wrapAt p = .loss ∧ t.wrapAt (portOther p) = .none ∧ loopMode t = wrapMode p) ∧
      PortEventFrame (goodRequest s) t := by
  let g := goodRequest s
  let a := addOp ⟨tag, .drill, .running, none, none, none⟩ g
  have admitted : admission tag false g = none := by
    rw [admission_goodRequest]
    exact (admission_unqueued tag s).2.2 room unknown
  obtain ⟨start, portA, portB, loop, -⟩ := parts_goodRequest s
  have usable (q : PortId) : a.usable q = s.usable q := usable_goodRequest s q
  have port (q : PortId) : a.port q = s.port q := port_goodRequest s q
  have count : a.loop.count = s.loop.count := by rw [show a.loop = g.loop from rfl, loop]
  have judged := ((judgeDrill_admitted (p := p) admitted).2.2 range (by rw [locked_goodRequest, low]; rfl)).2
    (by rw [portA]; exact noA) (by rw [portB]; exact noB) ((loopMode_goodRequest s).trans closed)
    ((usable_goodRequest s _).trans other)
  obtain ⟨t, ht, replied, same, pending⟩ := request_replied (tag := tag) (judge := judgeDrill tag p ms) h judged
  obtain ⟨⟨e, record⟩, quiet, wraps⟩ := startDrill_started (p := p) (ms := ms) (tag := tag)
    (addOp_settled ⟨tag, .drill, .running, none, none, none⟩ (goodRequest_settled hs))
    (show loopMode a = .closed from (loopMode_goodRequest s).trans closed) ((usable _).trans other)
  have added : Evented g a := .still rfl rfl rfl rfl rfl rfl rfl
  have evented : Evented g (startDrill p ms tag a) := by
    rw [startDrill_eq]
    exact added.trans (commit_evented _ _ _ _)
  have looped := loop_settled same
  refine ⟨t, e, ht, replied, ?_, ?_, fun u => ?_, evented.portEventFrame same (pending.trans (pending_goodRequest s).symm)⟩
  · have ops : t.ctl.ops = a.ctl.ops := by rw [same.ops, settle_inbox, quiet.ops]
    rw [findOp_of_ops ops]
    exact findOp_addOp (o := ⟨tag, .drill, .running, none, none, none⟩) (by rw [opCount_goodRequest]; exact room)
      (by rw [goodRequest_ops]; exact size) ((findOp_goodRequest tag s).trans unknown)
  · have here := (port_settled same p).trans record
    rw [usable, port, count] at here
    exact here
  · obtain ⟨lost, released, mode⟩ := wraps ((usable p).trans u)
    exact ⟨(wrapAt_of_loop looped _).trans lost, (wrapAt_of_loop looped _).trans released,
      (loopMode_of_loop looped (settled_blocks same).1
        (usable_of_ports (settled_blocks same).2.1 (settled_blocks same).2.2.1)).trans mode⟩

/-! ### The end of the drill period, and the drill overtaken (R41, R42) -/

theorem drillExpired_idle {p : PortId} {s : State} (h : (s.port p).state ≠ .drill ∨ (s.port p).drillT ≠ some 0) :
    drillExpired p s = s := by
  unfold drillExpired
  exact if_neg (by rcases h with h | h <;> simp [isDue, h])

theorem drillExpired_ends {p : PortId} {s : State} (hs : Settled s) (drill : (s.port p).state = .drill)
    (due : (s.port p).drillT = some 0) : drillExpired p s =
      notify (.portChange p .dark (s.port p).flags (s.port p).light .drillEnd) (s.setPort p (drillOver (s.port p))) := by
  have effect : drillExpired p s = commit p .drillEnd (drillOver (s.port p)) s := by
    unfold drillExpired
    exact if_pos (by simp [drill, due, isDue])
  exact effect.trans (commit_unusable hs (portUsable_down (by simp [drill])) (portUsable_down (by simp [drillOver]))
    (by simp [drillOver]) (overtakes_off (.inr (by simp [drill])) id) (by simp [stateOrFlags, drill, drillOver]))

/-- With no usable port there is no wrap mode (R45). -/
theorem loopMode_unusable {s : State} (h : ∀ q, s.usable q = false) (p : PortId) : loopMode s ≠ wrapMode p := by
  have a := h .a
  have b := h .b
  unfold loopMode State.isOrigin
  cases p <;> cases hr : s.loop.role <;> cases hg : s.loop.group <;> simp [a, b, wrapMode] <;> repeat' split
  all_goals simp_all

/-- A port event that leaves no usable port leaves every port's record. -/
theorem port_portEvent_unusable {p : PortId} {old : PortRec} {s : State} (h : ∀ q, s.usable q = false) (q : PortId) :
    (portEvent p old s).port q = s.port q := by
  have unmarked : markUsable p (wrapStep p (portUsable old) s) = wrapStep p (portUsable old) s :=
    port_markUsable_idle (by unfold State.usable; rw [port_wrapStep]; exact h p)
  have told : (portTold p old s).port q = s.port q := by
    unfold portTold
    simp only [unmarked]
    split
    · rw [(takeLinkNote_judged _ _ _ _ _ _ _).ports, port_pushLinkNote, port_wrapStep]
    · exact port_wrapStep _ _ _ _
  have down (r : PortId) : (portTold p old s).usable r = false := ((portTold_ports p old s).usable r).trans (h r)
  rw [portEvent_eq]
  split
  · rw [port_afterLoop_mark, drillMark_elsewhere (loopMode_unusable
      (fun r => ((originGone_calm _).usable r).trans (down r)) q)]
    have gone : (originGone (portTold p old s)).port q = (portTold p old s).port q := by
      unfold originGone
      exact (port_of_parts (by simp) (by simp) q).trans (port_of_parts rfl rfl q)
    exact gone.trans told
  · rw [port_afterLoop_mark, drillMark_elsewhere (loopMode_unusable down q)]
    exact told

/-- The drill that the other port's loss of light overtakes: the drilled port is DARK again, and the operation ends. -/
theorem lightMeasured_overtakes {p : PortId} {x : Option Int} {d : DrillRec} {s : State} (up : (s.port p).state = .up)
    (band : lightLevel x < (s.port p).loss) (drilled : (s.port (portOther p)).state = .drill)
    (found : (s.port (portOther p)).drill = some d) :
    ∃ b, lightMeasured p x s =
        endOp d.tag (.no .overtaken) (.drill (portOther p) (d.wrapFrame.map (· - d.start)) none) b ∧
      (b.port p).state = .dark ∧
      b.port (portOther p) = { drillOver (s.port (portOther p)) with drill := none } ∧ Quiet s b := by
  let r := leaveAlignment .dark (withLight (lightLevel x) (s.port p))
  have dark : r.state = .dark := (state_leaveAlignment _ _).1
  let u := notify (.portChange p r.state r.flags r.light .lightLoss) (s.setPort p r)
  have base : commitBase p .lightLoss r s = portEvent p (s.port p) u :=
    commitBase_event (by simp [stateOrFlags, up, dark])
  have ports (q : PortId) : (commitBase p .lightLoss r s).port q = (s.setPort p r).port q := by
    have down : ∀ q, u.usable q = false := fun q => by
      rw [(notify_told _ _).usable]
      by_cases e : q = p
      · rw [e, usable_setPort, portUsable_down (by simp [dark])]
      · rw [eq_portOther e, usable_setPort_other]
        exact usable_down (by simp [drilled])
    rw [base, port_portEvent_unusable down, port_notify]
  have quiet := commitBase_quiet p .lightLoss r s
  have here : (commitBase p .lightLoss r s).port p = r := (ports p).trans (port_setPort _ _ _)
  have there : (commitBase p .lightLoss r s).port (portOther p) = s.port (portOther p) :=
    (ports _).trans (port_setPort_other _ _ _)
  have effect : lightMeasured p x s = overtakeDrill (portOther p) (commitBase p .lightLoss r s) := by
    rw [lightMeasured_lost (by simp [up]) (by simp [up]) band]
    show commit p .lightLoss r s = _
    unfold commit
    simp only [there, drilled]
    rw [if_neg (by simp [up]), if_pos (by simp [overtakes, up, dark])]
  generalize commitBase p .lightLoss r s = b at quiet here there effect
  have ended : (commitBase (portOther p) .drillEnd (drillOver (b.port (portOther p))) b).port (portOther p) =
      drillOver (b.port (portOther p)) := by
    rw [port_commitBase (by rw [port_setPort]; simp [drillOver]) (.inr (portUsable_down (by simp [drillOver]))),
      port_setPort]
  have stands : (commitBase (portOther p) .drillEnd (drillOver (b.port (portOther p))) b).port p = r := by
    rw [port_commitBase (by rw [port_other_setPort, here]; simp [dark]) (.inl (portOther_ne p)), port_other_setPort, here]
  have quiet2 := commitBase_quiet (portOther p) .drillEnd (drillOver (b.port (portOther p))) b
  unfold overtakeDrill at effect
  simp only at effect
  generalize commitBase (portOther p) .drillEnd (drillOver (b.port (portOther p))) b = c at ended stands quiet2 effect
  rw [there] at ended
  have known : (c.port (portOther p)).drill = some d := by rw [ended]; exact found
  rw [known] at effect
  refine ⟨c.setPort (portOther p) { c.port (portOther p) with drill := none }, effect, ?_, ?_,
    (quiet.trans quiet2).trans (.of_ctl (ctl_setPort _ _ _))⟩
  · rw [port_other_setPort, stands]
    exact dark
  · rw [port_setPort, ended]

/-- An operation that ends stands no more in the table, and first in the list of those that have ended (R184). -/
theorem endOp_ended {tag : Byte} {v : Verdict} {r : OpResult} {s : State} {o : Operation} (h : findOp tag s = some o) :
    findOp tag (endOp tag v r s) = none ∧ (endOp tag v r s).ctl.ended.head? = some ⟨tag, o.kind, v, r⟩ := by
  refine ⟨findOp_eq_none.2 fun x hx => ((ops_endOp tag v r s x).1 hx).2, ?_⟩
  rw [(endOp_raised h).1.ended]
  rfl

theorem overtakes_iff (old new : PortRec) : overtakes old new = true ↔
    (old.state = .up ∧ new.state ≠ .up) ∨ (old.flags.remoteFault = false ∧ new.flags.remoteFault = true) := by
  simp [overtakes]

/-- Settles O27: DRILL by its checks, the end of its period, the drill overtaken. -/
theorem drillRuns : Obligations.DrillRuns := by
  refine ⟨?_, fun p s hr hs => ⟨fun drill due => ?_, fun h => event_nothing hr hs (drillExpired_idle h)⟩, ?_, overtakes_iff⟩
  · intro tag p ms s h hs inRoom r range state
    obtain ⟨full, known, admitted⟩ := admission_unqueued tag s
    rw [← admission_goodRequest] at full known admitted
    obtain ⟨-, portA, portB, -⟩ := parts_goodRequest s
    have unadmitted (y : Reply) (k : admission tag false (goodRequest s) = some y) :
        ∃ t, exec (.drill tag p ms) s = .next t ∧ Answered tag y [] s (goodRequest s) t :=
      request_idle h hs (by unfold judgeDrill; simp only [k])
    refine ⟨fun k => unadmitted _ (full k), fun k found => unadmitted _ (known k found), fun k new out => ?_,
      fun k new fits lock => ?_, fun k new fits low no => ?_, fun k new fits low yes => ?_⟩
    · exact request_idle h hs ((judgeDrill_admitted (admitted k new)).1 out)
    · exact request_idle h hs ((judgeDrill_admitted (admitted k new)).2.1 fits
        (by rw [locked_goodRequest]; exact decide_eq_true lock))
    · refine request_idle h hs (((judgeDrill_admitted (admitted k new)).2.2 fits
        (by rw [locked_goodRequest, low]; rfl)).1 ?_)
      rw [portA, portB, loopMode_goodRequest, usable_goodRequest]
      exact no
    · obtain ⟨noA, noB, closed, other⟩ : s.portA.drill.isSome = false ∧ s.portB.drill.isSome = false ∧
          loopMode s = .closed ∧ s.usable (portOther p) = true := by
        simp only [state, not_or, Bool.not_eq_true, Bool.not_eq_false, ne_eq, not_not] at yes
        exact yes
      obtain ⟨t, e, ht, replied, found, record, wraps, frame⟩ :=
        drill_passes h hs inRoom.ops k new fits low noA noB closed other
      refine ⟨t, ht, replied, found, congrArg PortRec.state record, congrArg PortRec.txOn record,
        congrArg PortRec.flags record, congrArg PortRec.partner record, congrArg PortRec.linkDelay record,
        congrArg PortRec.settle record, congrArg PortRec.offerT record, congrArg PortRec.relock record,
        congrArg PortRec.drillT record, congrArg PortRec.drill record, congrArg PortRec.counters record,
        fun u => ?_, frame⟩
      obtain ⟨lost, released, mode⟩ := wraps u
      exact ⟨lost, released, mode.trans (by cases p <;> rfl)⟩
  · have down : (s.port p).state ≠ .up := by rw [drill]; simp
    exact event_portChange hr hs (drillExpired_ends hs drill due)
      ((portUsable_down (by simp)).trans (usable_down down).symm)
  · intro p x d s hr hs up band drilled found
    obtain ⟨b, effect, dark, other, quiet⟩ := lightMeasured_overtakes up band drilled found
    obtain ⟨t, ht, same, -⟩ := done_blocks (f := lightMeasured p x) hr
    have here (q : PortId) : t.port q = b.port q := by
      rw [port_settled same, effect, port_endOp]
    have there := (here _).trans other
    refine ⟨t, ht, by rw [here]; exact dark, congrArg PortRec.state there, congrArg PortRec.txOn there,
      congrArg PortRec.drillT there, congrArg PortRec.relock there, congrArg PortRec.drill there, fun o ho => ?_⟩
    obtain ⟨gone, first⟩ := endOp_ended (v := .no .overtaken)
      (r := .drill (portOther p) (d.wrapFrame.map (· - d.start)) none) ((findOp_of_ops quiet.ops d.tag).trans ho)
    rw [← effect] at gone first
    refine ⟨(findOp_of_ops (by rw [same.ops, settle_inbox]) d.tag).trans gone, ?_⟩
    rw [same.ended, settle_inbox]
    exact first

end Sys2Proof.Machine
end

section
/-! PROOFS. The handover of a loop frame leaves the ports, for PORT_FRAME_RECEIVE at a port that is UP (R37, R47 to
R49). -/

namespace Sys2Proof.Machine

open Sys2Proof

/-! ### The origin of a frame (R50, R62, R65 to R67) -/

theorem epochChange_ports (g : OriginGroup) (r : OriginRole) (s : State) : PortsStand s (epochChange g r s) :=
  (PortsStand.of_ports (t := { s with loop := epochLoop g r s }) fun _ => rfl).trans (epochChange_calm g r s).portsStand

theorem askSnapshot_calm (g : OriginGroup) (s : State) : Calm s (askSnapshot g s) := by
  unfold askSnapshot
  exact .ite (pushSnapReq_calm s) (.refl s)

theorem adopt_ports (g : OriginGroup) (s : State) : PortsStand s (adopt g s) := by
  let u : State := { s with loop := { s.loop with following := true, timeout := 0, takeover := none } }
  have followed : PortsStand s u := .of_ports fun _ => rfl
  unfold adopt
  exact (followed.trans (.ite (.refl _) (epochChange_ports g .follower _))).trans
    ((afterLoop_calm _ _ _).on (askSnapshot_calm _ _)).portsStand

theorem switchTo_ports (g : OriginGroup) (ask : Bool) (s : State) : PortsStand s (switchTo g ask s) := by
  unfold switchTo
  exact (epochChange_ports g .follower s).trans
    ((afterLoop_calm _ _ _).on (.ite (askSnapshot_calm _ _) (.refl _))).portsStand

theorem yieldTo_ports (g : OriginGroup) (s : State) : PortsStand s (yieldTo g s) := by
  unfold yieldTo
  exact (epochChange_ports g .follower s).trans ((afterLoop_calm _ _ _).on (askSnapshot_calm _ _)).portsStand

/-- The blocks that an event at a port leaves, the pending entries apart. -/
def eventBlocks (s : State) := (s.start, s.snap, s.gain, s.lock, s.supervision)

theorem Evented.blocks {s t : State} (h : Evented s t) : eventBlocks t = eventBlocks s := by
  unfold eventBlocks
  rw [h.start, h.snap, h.gain, h.lock, h.supervision]

/-- The entry to CONFLICT leaves them and the ports (R67). -/
theorem enterConflict_still (c : ConflictCause) (s : State) :
    PortsStand s (enterConflict c s) ∧ eventBlocks (enterConflict c s) = eventBlocks s := by
  have entered (u : State) (ports : ∀ q, u.port q = s.port q) (blocks : eventBlocks u = eventBlocks s) :
      PortsStand s (afterLoop (.conflict c) s (dropKeys .conflict u)) ∧
        eventBlocks (afterLoop (.conflict c) s (dropKeys .conflict u)) = eventBlocks s :=
    ⟨(PortsStand.of_ports ports).trans ((afterLoop_calm (.conflict c) s _).on (dropKeys_calm .conflict u)).portsStand,
      ((dropKeys_evented .conflict u).trans (afterLoop_evented (.conflict c) s _)).blocks.trans blocks⟩
  have told (a : State) : Calm a (notifyLoop (.conflict c) a) ∧ Evented a (notifyLoop (.conflict c) a) :=
    ⟨notify_calm _ _, notify_evented _ _⟩
  unfold enterConflict
  split
  · exact ⟨.refl s, rfl⟩
  · simp only
    obtain ⟨ports, blocks⟩ := entered { s with
      loop := { s.loop with
        conflict := some c, role := .follower, following := false, takeover := none, restart := .idle
        formerOwn := formerAfter s }
      talk := { s.talk with records := List.replicate 4 .empty } } (fun _ => rfl) rfl
    split
    · exact ⟨ports, blocks⟩
    · exact ⟨ports.trans (told _).1.portsStand, (told _).2.blocks.trans blocks⟩

theorem wrapAt_enterConflict (c : ConflictCause) (s : State) (q : PortId) :
    (enterConflict c s).wrapAt q = s.wrapAt q := by
  by_cases free : s.loop.conflict = none
  · obtain ⟨x, e⟩ := loop_enterConflict (c := c) free
    cases q <;> simp [State.wrapAt, e]
  · rw [enterConflict_again free]

/-! ### A first visit (R9, R11, R73) -/

theorem takeRestart_ports (e : Epoch) (s : State) : PortsStand s (takeRestart e s) := by
  have emptied : PortsStand s (supervisionLoopReset (emptyQueue s)) := .of_ports fun q =>
    port_of_parts (parts_emptyQueue s).2.1 (parts_emptyQueue s).2.2.1 q
  unfold takeRestart
  split
  · exact .refl s
  · exact .ite (.refl s) ((emptied.trans (epochChange_ports _ _ _)).trans (afterLoop_calm _ _ _).portsStand)

theorem actOn_ports (n : NodeId) (h : Header) (m : Message) (s : State) : PortsStand s (actOn n h m s) := by
  unfold actOn
  split
  · exact (takeMap_calm _ _ _).portsStand
  · exact (takeAllot_calm _ _ _ _ _).portsStand
  · exact (takeSnap_calm _ _ _ _ _ _ _).portsStand
  · exact (takeSnapReq_calm _ _ _).portsStand
  · exact (takeSlotAsk_calm _ _ _ _ _).portsStand
  · exact (takeSlotAsk_calm _ _ _ _ _).portsStand
  · exact (takeSlotAnswer_calm _ _ _).portsStand
  · exact (takeGainAsk_calm _ _ _ _ _ _).portsStand
  · exact (takeGainAsk_calm _ _ _ _ _ _).portsStand
  · exact (takeGainAsk_calm _ _ _ _ _ _).portsStand
  · exact (takeGainAnswer_calm _ _ _).portsStand
  · exact (enterReceived_calm _ _ _ _ _).portsStand
  · exact (takeGainSnap_calm _ _ _ _).portsStand
  · exact (takeTalkClaim_calm _ _ _).portsStand
  · exact (takeTalkRelease_admits _ _ _).calm.portsStand
  · exact .ite ((enterReceived_calm _ _ _ _ _).on (grantHeard_calm _ _)).portsStand (.refl s)
  · exact .ite (applyRefuse_calm _ _ _ _ _).portsStand (.refl s)
  · exact (takeLinkNote_judged _ _ _ _ _ _ _).calm.portsStand
  · exact (enterReceived_calm _ _ _ _ _).portsStand
  · exact (enterReceived_calm _ _ _ _ _).portsStand
  · exact takeRestart_ports _ _
  · exact (setLockView_calm _ _ _).portsStand

theorem readCell_ports (h : Header) (s : State) (n : NodeId) (c : Option Message) : PortsStand s (readCell h s n c) := by
  unfold readCell
  split
  · exact .refl s
  · exact .ite (.refl s) (.ite (.refl s) ((PortsStand.of_ports fun _ => rfl).trans (actOn_ports _ _ _ _)))

theorem visitRead_ports (f : Frame) (s : State) : PortsStand s (visitRead f s) := by
  have cells (a : State) : PortsStand a (readCells f a) :=
    List.foldlRecOn (motive := fun b => PortsStand a b) _ _ (.refl a) fun _ hb _ _ => hb.trans (readCell_ports _ _ _ _)
  exact (((tellConfirmed_calm f _).on (visitSamples_calm (f.slots.getD []) s)).portsStand.trans (cells _)).trans
    (assess_calm _ _).portsStand

theorem chooseCell_ports (h : Header) (s : State) : PortsStand s (chooseCell h s).1 := by
  by_cases prepared : ∃ e, s.loop.restart = .prepared e
  · obtain ⟨e, prepared⟩ := prepared
    unfold chooseCell
    rw [prepared]
    simp only
    split
    · exact .of_ports fun _ => rfl
    · exact .refl s
  · exact (chooseCell_calm h fun e k => prepared ⟨e, k⟩).portsStand

theorem writeCell_ports (f : Frame) (s : State) : PortsStand s (writeCell f s).1 := by
  have last (a : State) : Calm a { a with queue := { a.queue with last := .neither } } := .of_fixed rfl
  rw [writeCell_fst]
  exact .ite ((chooseIn_calm s).portsStand.trans (chooseCell_ports f.header _))
    ((last _).on (admitOwed_admits s).calm).portsStand

theorem firstVisit_ports (f : Frame) (d : Direction) (s : State) : PortsStand s (firstVisit f d s).1 := by
  have read : PortsStand s (visitIn f s) := (visitStart_calm f.header s).portsStand.trans (visitRead_ports f _)
  have noted (a : State) : PortsStand a (noteVisit f.header a) := .of_ports fun _ => rfl
  rw [firstVisit_state]
  exact (read.trans (writeCell_ports f _)).trans (noted _)

/-! ### Dispatch (R47 to R49) -/

theorem relay_ports (p : PortId) (f : Frame) (s : State) : PortsStand s (relay p f s) := by
  unfold relay
  split
  · exact (route_calm _ _ _).portsStand
  · exact .refl s

theorem takeFrame_ports (p : PortId) (f : Frame) (s : State) : PortsStand s (takeFrame p f s) := by
  have heard : PortsStand s (hearFollowed p s) := by
    unfold hearFollowed
    exact .ite (.of_ports fun _ => rfl) (.refl s)
  by_cases visited : s.start.id ∈ f.header.visited
  · by_cases known : f.header.count ∈ s.loop.visits
    · rw [(takeFrame_again visited).1 known]
      exact heard.trans (relay_ports _ _ _)
    · rw [(takeFrame_again visited).2 known]
      exact (heard.trans (enterConflict_still _ _).1).trans (relay_ports _ _ _)
  · rw [takeFrame_visits visited]
    exact (heard.trans (firstVisit_ports _ _ _)).trans (relay_ports _ _ _)

theorem ownIdFrame_ports (p : PortId) (f : Frame) (now : Nanos) (s : State) : PortsStand s (ownIdFrame p f now s) := by
  unfold ownIdFrame
  exact .ite (.ite (circuitEnd_calm _ _ _).portsStand (relay_ports _ _ _))
    (.ite (.refl s) ((enterConflict_still _ _).1.trans (relay_ports _ _ _)))

theorem otherOrigin_ports (p : PortId) (f : Frame) (s : State) : PortsStand s (otherOrigin p f s) := by
  unfold otherOrigin
  simp only
  split
  · exact .refl s
  · refine .ite (.refl s) (.ite ((switchTo_ports _ _ _).trans (takeFrame_ports _ _ _)) ?_)
    split
    · exact (yieldTo_ports _ _).trans (takeFrame_ports _ _ _)
    · exact (enterConflict_still _ _).1.trans (relay_ports _ _ _)

theorem dispatchOrigin_ports (p : PortId) (f : Frame) (s : State) : PortsStand s (dispatchOrigin p f s) := by
  unfold dispatchOrigin
  simp only
  split
  · exact .ite (takeFrame_ports _ _ _) (.ite (.ite ((switchTo_ports _ _ _).trans (takeFrame_ports _ _ _))
      (relay_ports _ _ _)) (otherOrigin_ports _ _ _))
  · split
    any_goals exact .refl s
    all_goals exact (adopt_ports _ _).trans (takeFrame_ports _ _ _)

theorem dispatchRest_ports (p : PortId) (f : Frame) (now : Nanos) (s : State) : PortsStand s (dispatchRest p f now s) := by
  unfold dispatchRest
  exact .ite (ownIdFrame_ports _ _ _ _) (dispatchOrigin_ports _ _ _)

theorem wrappedArrival_ports (p : PortId) (f : Frame) (now : Nanos) (s : State) :
    PortsStand s (wrappedArrival p f now s) := by
  have merged : PortsStand s (if mergeDue s p f then dispatchRest p f now (mergeRelease p s) else s) :=
    .ite (((afterLoop_calm _ _ _).on (setWrap_calm p .none s)).portsStand.trans (dispatchRest_ports _ _ _ _)) (.refl s)
  unfold wrappedArrival
  split
  · exact .ite ((applyPending_calm _ _).portsStand.trans (dispatchOrigin_ports _ _ _)) merged
  · exact merged

/-- A loop frame handed over leaves the ports but for their drill records and routed frames. -/
theorem dispatch_ports (p : PortId) (f : Frame) (now : Nanos) (s : State) : PortsStand s (dispatch p f now s) := by
  have free : PortsStand s (match s.wrapAt p with
      | .none => dispatchRest p f now s
      | .loss => s
      | .planned _ => wrappedArrival p f now s) := by
    split
    · exact dispatchRest_ports _ _ _ _
    · exact .refl s
    · exact wrappedArrival_ports _ _ _ _
  unfold dispatch
  refine .ite (.refl s) ?_
  split
  · exact relay_ports _ _ _
  · exact relay_ports _ _ _
  all_goals exact free

end Sys2Proof.Machine
end

section
/-! PROOFS. The record of a port after a good frame (R25 to R36). -/

namespace Sys2Proof.Machine

open Sys2Proof

/-! ### The good frame counted -/

/-- What the count of a good frame leaves in the record. -/
theorem seenGood_record (a : Arrival) (r : PortRec) : ∃ arrived rate time run frames delay sum n last,
    seenGood a r = { r with
      arrived := arrived, lineRate := rate, time := time, badRun := run, winFrames := frames, linkDelay := delay
      delaySum := sum, delayCount := n, lastGood := last
      counters := { r.counters with good := bump r.counters.good } } := by
  have count : ∃ run frames, countGood (seen a r) = { seen a r with
      badRun := run, winFrames := frames, counters := { r.counters with good := bump r.counters.good } } := by
    unfold countGood
    simp only
    split
    · exact ⟨_, _, rfl⟩
    · exact ⟨r.badRun, r.winFrames, rfl⟩
  have delay (x : PortRec) : ∃ delay sum n, measureDelay a.frame.link a.now x = { x with
      linkDelay := delay, delaySum := sum, delayCount := n } := by
    unfold measureDelay
    repeat' split
    all_goals exact ⟨_, _, _, rfl⟩
  have stamp (x : PortRec) : ∃ last, noteStamp a.frame.link a.now x = { x with lastGood := last } := by
    unfold noteStamp
    split <;> exact ⟨_, rfl⟩
  obtain ⟨run, frames, hc⟩ := count
  obtain ⟨delay, sum, n, hd⟩ := delay (countGood (seen a r))
  obtain ⟨last, hl⟩ := stamp (measureDelay a.frame.link a.now (countGood (seen a r)))
  refine ⟨r.arrived + 1, if passesCheck a then a.frame.header.rate else r.lineRate, a.now, run, frames, delay, sum, n,
    last, ?_⟩
  unfold seenGood
  rw [hl, hd, hc]
  rfl

/-! ### The visits to OFFER, MISMATCH and UP (R28 to R32, R35) -/

theorem offerAgrees_iff (s : State) (o : Offer) :
    offerAgrees s o = true ↔ o.loopName = s.start.loopName ∧ o.rate = s.start.rate := by
  simp [offerAgrees]

theorem sameSender_iff (r : PortRec) (l : LinkField) :
    sameSender r l = true ↔ ∃ k, r.partner = some k ∧ k.sender = l.sender ∧ k.port = l.port := by
  unfold sameSender
  cases r.partner <;> simp

/-- The record that keeps an agreeing offer (R28). -/
def offered (l : LinkField) (run : Nat) (r : PortRec) : PortRec :=
  { r with
    partner := some l, offerSeen := true, offerAgreed := true, agreeRun := run
    agreeFrom := some (l.sender, l.port) }

theorem examineOffer_disagrees {s : State} {l : LinkField} {r : PortRec} (h : offerAgrees s l.offer = false) :
    examineOffer s (some l) r = (enterMismatch l r, .disagree) := by
  simp [examineOffer, h]

theorem examineOffer_agrees {s : State} {l : LinkField} {r : PortRec} (h : offerAgrees s l.offer = true) :
    examineOffer s (some l) r =
      (if 3 ≤ nextRun r l then enterUp false (offered l (nextRun r l) r) else offered l (nextRun r l) r, .joined) := by
  unfold examineOffer
  simp only [h, Bool.not_true, Bool.false_eq_true, if_false]
  rfl

/-- The run that the offer which opens a visit to OFFER begins (R30, R32). -/
def firstRun (l : LinkField) : Nat := if l.offer.hearYou then 1 else 0

/-- The record of a port that an agreeing offer takes to OFFER (R30, R32). -/
def reOffered (l : LinkField) (r : PortRec) : PortRec := offered l (firstRun l) (enterOffer r)

theorem enterOffer_fresh (r : PortRec) : (enterOffer r).agreeFrom = none ∧ (enterOffer r).state = .offer := by
  unfold enterOffer relockIfUp
  split <;> exact ⟨rfl, rfl⟩

theorem examineOffer_reOffered {s : State} {l : LinkField} {r : PortRec} (h : offerAgrees s l.offer = true) :
    examineOffer s (some l) (enterOffer r) = (reOffered l r, .joined) := by
  have run : nextRun (enterOffer r) l = firstRun l := by
    unfold nextRun firstRun
    rw [(enterOffer_fresh r).1]
    simp
  have short : ¬ 3 ≤ firstRun l := by
    unfold firstRun
    split <;> omega
  rw [examineOffer_agrees h, run, if_neg short]
  rfl

theorem enterOffer_up {r : PortRec} (h : r.state = .up) : enterOffer r = { r with
    state := .offer
    flags := { r.flags with fixed := false, remoteFault := false }
    linkDelay := none
    offerT := some (500 * 96)
    relock := some (2000 * 96)
    agreeRun := 0, agreeFrom := none, offerSeen := false, offerAgreed := false
    clearRun := 0, winWholeUp := false } := if_pos h

theorem enterOffer_down {r : PortRec} (h : r.state ≠ .up) : enterOffer r = { r with
    state := .offer
    flags := { r.flags with fixed := false, remoteFault := false }
    linkDelay := none
    offerT := some (500 * 96)
    agreeRun := 0, agreeFrom := none, offerSeen := false, offerAgreed := false
    clearRun := 0, winWholeUp := false } := if_neg h

theorem enterMismatch_up {l : LinkField} {r : PortRec} (h : r.state = .up) : enterMismatch l r = { r with
    state := .mismatch
    flags := { r.flags with fixed := false, remoteFault := false }
    partner := some l
    linkDelay := none
    offerT := none
    relock := some (2000 * 96)
    agreeRun := 0, agreeFrom := none, offerAgreed := false
    clearRun := 0, winWholeUp := false } := if_pos h

theorem enterMismatch_down {l : LinkField} {r : PortRec} (h : r.state ≠ .up) : enterMismatch l r = { r with
    state := .mismatch
    flags := { r.flags with fixed := false, remoteFault := false }
    partner := some l
    linkDelay := none
    offerT := none
    agreeRun := 0, agreeFrom := none, offerAgreed := false
    clearRun := 0, winWholeUp := false } := if_neg h

theorem enterMismatch_flags (l : LinkField) (r : PortRec) :
    (enterMismatch l r).state = .mismatch ∧ (enterMismatch l r).flags.remoteFault = false := by
  unfold enterMismatch relockIfUp
  split <;> exact ⟨rfl, rfl⟩

theorem enterOffer_flags (r : PortRec) : (enterOffer r).flags.remoteFault = false := by
  unfold enterOffer relockIfUp
  split <;> rfl

/-- The hear-you-clear run at its limit (R31). -/
theorem hearClear_reached {r : PortRec} (h : 48 ≤ r.clearRun + 1) : hearClear r = { r with
    clearRun := bump r.clearRun, flags := { r.flags with remoteFault := true } } := by
  have run : Config.clearFrames ≤ bump r.clearRun := by
    have clear : Config.clearFrames = 48 := rfl
    have top : Config.countTop = 4294967295 := rfl
    unfold bump
    split <;> omega
  simp [hearClear, run]

theorem hearClear_short {r : PortRec} (h : r.clearRun + 1 < 48) :
    hearClear r = { r with clearRun := r.clearRun + 1 } := by
  have clear : Config.clearFrames = 48 := rfl
  have top : Config.countTop = 4294967295 := rfl
  have run : bump r.clearRun = r.clearRun + 1 := by
    unfold bump
    split <;> omega
  have below : ¬ Config.clearFrames ≤ r.clearRun + 1 := by omega
  simp [hearClear, run, below]

/-! ### The record by the port's state -/

/-- The record a good frame leaves at a port that is UP without FIXED (R30, R31). -/
def upRec (s : State) (f : Option LinkField) (r : PortRec) : PortRec :=
  match f with
  | none => hearClear r
  | some l =>
    if offerAgrees s l.offer then
      if sameSender r l then
        if l.offer.hearYou then
          { r with partner := some l, clearRun := 0, flags := { r.flags with remoteFault := false } }
        else hearClear r
      else reOffered l r
    else enterMismatch l r

/-- The record a good frame leaves at a port (R25 to R32). -/
def heardRec (s : State) (f : Option LinkField) (r : PortRec) : PortRec :=
  match r.state with
  | .dark | .settle | .drill => r
  | .seek => if 8 ≤ r.alignRun + 1 then alignedRec r else { r with alignRun := r.alignRun + 1 }
  | .offer => (examineOffer s f r).1
  | .up =>
    if r.flags.fixed then
      match f with
      | none => r
      | some l => if offerAgrees s l.offer then reOffered l r else enterMismatch l (enterOffer r)
    else upRec s f r
  | .mismatch =>
    match f with
    | none => r
    | some l => if offerAgrees s l.offer then reOffered l r else { r with partner := some l }

/-- Another offer at a port in UP or MISMATCH: one change where it agrees, two where it ends a FIXED join and
disagrees. -/
theorem reOffer_agrees {p : PortId} {c : PortCause} {l : LinkField} {r : PortRec} {s : State}
    (h : offerAgrees s l.offer = true) : reOffer p c (some l) r s = commit p c (reOffered l r) s := by
  unfold reOffer
  simp only [examineOffer_reOffered h]
  exact if_pos (enterOffer_fresh r).2

theorem reOffer_disagrees {p : PortId} {c : PortCause} {l : LinkField} {r : PortRec} {s : State}
    (h : offerAgrees s l.offer = false) : reOffer p c (some l) r s =
      commit p .disagree (enterMismatch l (enterOffer r)) (commit p c (enterOffer r) s) := by
  unfold reOffer
  simp only [examineOffer_disagrees h]
  exact if_neg (by simp [(enterMismatch_flags _ _).1])

theorem upFrame_commit (p : PortId) (f : Option LinkField) (r : PortRec) (s : State) :
    ∃ c, upFrame p f r s = commit p c (upRec s f r) s := by
  cases f with
  | none => exact ⟨_, rfl⟩
  | some l =>
    unfold upFrame upRec
    cases agrees : offerAgrees s l.offer with
    | false => exact ⟨.disagree, by simp [agrees]⟩
    | true =>
      cases same : sameSender r l with
      | false => exact ⟨.partnerChange, by simp [agrees, same, reOffer_agrees agrees]⟩
      | true =>
        cases hear : l.offer.hearYou with
        | false => exact ⟨.remoteFaultSet, by simp [agrees, same, hear]⟩
        | true => exact ⟨.remoteFaultClear, by simp [agrees, same, hear]⟩

/-- The states a good frame leaves a port in are not DRILL. -/
theorem upRec_undrilled {s : State} {f : Option LinkField} {r : PortRec} (h : r.state = .up) :
    (upRec s f r).state ≠ .drill := by
  have clear : (hearClear r).state ≠ .drill := by rw [show (hearClear r).state = .up from h]; simp
  unfold upRec
  split
  · exact clear
  · split
    · split
      · split
        · simp [h]
        · exact clear
      · rw [show (reOffered _ r).state = .offer from (enterOffer_fresh r).2]
        simp
    · rw [(enterMismatch_flags _ _).1]
      simp

/-- A good frame leaves its port that record, but for the mark of a usable port and the record of a drill that has
ended. -/
theorem port_frameEffect {p : PortId} {f : Option LinkField} {r x : PortRec} {s : State} (h : r.state ≠ .drill) :
    ∃ e d, (frameEffect p f r (s.setPort p x)).port p =
      { heardRec s f r with everUsable := e, drill := d } := by
  have start : (s.setPort p x).start = s.start := start_setPort s p x
  have set (y : PortRec) : ∃ e d, ((s.setPort p x).setPort p y).port p = { y with everUsable := e, drill := d } :=
    ⟨_, _, port_setPort _ _ _⟩
  have agrees (l : LinkField) : offerAgrees (s.setPort p x) l.offer = offerAgrees s l.offer := by
    unfold offerAgrees
    rw [start]
  have examined (y : PortRec) : examineOffer (s.setPort p x) f y = examineOffer s f y := by
    unfold examineOffer
    cases f with
    | none => rfl
    | some l => simp only [agrees]
  have again (c : PortCause) (l : LinkField) : ∃ e d, (reOffer p c (some l) r (s.setPort p x)).port p =
      { (if offerAgrees s l.offer then reOffered l r else enterMismatch l (enterOffer r)) with
        everUsable := e, drill := d } := by
    cases k : offerAgrees s l.offer with
    | true =>
      rw [reOffer_agrees ((agrees l).trans k)]
      exact port_commit (by rw [show (reOffered l r).state = .offer from (enterOffer_fresh r).2]; simp)
    | false =>
      rw [reOffer_disagrees ((agrees l).trans k)]
      exact port_commit (by rw [(enterMismatch_flags _ _).1]; simp)
  unfold frameEffect heardRec
  cases state : r.state with
  | drill => exact absurd state h
  | dark => exact set r
  | settle => exact set r
  | seek =>
    by_cases k : 8 ≤ r.alignRun + 1
    · rw [show alignFrame p r (s.setPort p x) = commit p .aligned (alignedRec r) (s.setPort p x) from if_pos k]
      simp only [k, if_true]
      exact port_commit (by simp [alignedRec])
    · rw [show alignFrame p r (s.setPort p x) = (s.setPort p x).setPort p { r with alignRun := r.alignRun + 1 } from
        if_neg k]
      simp only [k, if_false]
      rw [← state]
      exact set { r with alignRun := r.alignRun + 1 }
  | offer =>
    simp only [examined]
    refine port_commit ?_
    cases f with
    | none => simp [examineOffer, state]
    | some l =>
      cases k : offerAgrees s l.offer with
      | false => rw [examineOffer_disagrees k]; simp [(enterMismatch_flags _ _).1]
      | true =>
        rw [examineOffer_agrees k]
        simp only
        split <;> simp [enterUp, offered, state]
  | up =>
    simp only
    split
    · split
      · exact set r
      · exact again _ _
    · obtain ⟨c, committed⟩ := upFrame_commit p f r (s.setPort p x)
      have same : upRec (s.setPort p x) f r = upRec s f r := by
        unfold upRec
        cases f with
        | none => rfl
        | some l => simp only [agrees]
      rw [committed, same]
      exact port_commit (upRec_undrilled state)
  | mismatch =>
    unfold mismatchFrame
    simp only
    cases f with
    | none => exact set r
    | some l =>
      simp only
      cases k : offerAgrees s l.offer with
      | true =>
        rw [if_pos ((agrees l).trans k)]
        have renewed := again .agree l
        rw [k] at renewed
        exact renewed
      | false =>
        rw [if_neg (by rw [agrees, k]; simp)]
        simp only [Bool.false_eq_true, if_false]
        rw [← state]
        exact port_commit (r := { r with partner := some l }) (by simp [state])

end Sys2Proof.Machine
end

section
/-! PROOFS. PORT_FRAME_RECEIVE of a good frame: the port's record and what else the event moves (R25 to R37). -/

namespace Sys2Proof.Machine

open Sys2Proof

/-! ### The frame as received -/

/-- A record but for the mark of a usable port, the record of a drill and the routed frame. -/
def HoldsRec (r x : PortRec) : Prop := ∃ e d f, x = { r with everUsable := e, drill := d, routed := f }

theorem HoldsRec.stands {r : PortRec} {s t : State} {q : PortId} (h : HoldsRec r (s.port q)) (k : PortsStand s t) :
    HoldsRec r (t.port q) := by
  obtain ⟨_, _, _, e⟩ := h
  obtain ⟨x, y, z, e'⟩ := k q
  exact ⟨x, y, z, by rw [e', e]⟩

theorem HoldsRec.state {r x : PortRec} (h : HoldsRec r x) : x.state = r.state := by
  obtain ⟨_, _, _, e⟩ := h
  rw [e]

theorem HoldsRec.flags {r x : PortRec} (h : HoldsRec r x) : x.flags = r.flags := by
  obtain ⟨_, _, _, e⟩ := h
  rw [e]

/-- What a good frame does at its port, the sight of the node's own id and the handover apart. -/
def frameOutcome (p : PortId) (arr : Arrival) (s : State) : State :=
  frameEffect p arr.frame.link (seenGood arr (s.port p)) (s.setPort p (seen arr (s.port p)))

/-- That with the sight of the node's own id (R28, R67). -/
def frameHeard (p : PortId) (arr : Arrival) (s : State) : State :=
  if sightsSelf s arr.frame.link then enterConflict .duplicateId (frameOutcome p arr s) else frameOutcome p arr s

/-- The record that it leaves at the port. -/
def outcomeRec (p : PortId) (arr : Arrival) (s : State) : PortRec :=
  heardRec s arr.frame.link (seenGood arr (s.port p))

theorem state_seenGood (arr : Arrival) (r : PortRec) : (seenGood arr r).state = r.state := by
  obtain ⟨_, _, _, _, _, _, _, _, _, e⟩ := seenGood_record arr r
  rw [e]

theorem port_frameOutcome {p : PortId} {arr : Arrival} {s : State} (h : (s.port p).state ≠ .drill) :
    HoldsRec (outcomeRec p arr s) ((frameOutcome p arr s).port p) := by
  obtain ⟨e, d, k⟩ := port_frameEffect (p := p) (f := arr.frame.link) (r := seenGood arr (s.port p))
    (x := seen arr (s.port p)) (s := s) (by rw [state_seenGood]; exact h)
  exact ⟨e, d, _, k⟩

theorem frameOutcome_evented (p : PortId) (arr : Arrival) (s : State) : Evented s (frameOutcome p arr s) :=
  (setPort_evented _ _ _).trans (frameEffect_evented _ _ _ _)

theorem frameHeard_still (p : PortId) (arr : Arrival) (s : State) :
    PortsStand (frameOutcome p arr s) (frameHeard p arr s) ∧ eventBlocks (frameHeard p arr s) = eventBlocks s ∧
      ∀ q, (frameHeard p arr s).wrapAt q = (frameOutcome p arr s).wrapAt q := by
  have blocks := (frameOutcome_evented p arr s).blocks
  obtain ⟨ports, still⟩ := enterConflict_still .duplicateId (frameOutcome p arr s)
  unfold frameHeard
  split
  · exact ⟨ports, still.trans blocks, wrapAt_enterConflict _ _⟩
  · exact ⟨.refl _, blocks, fun _ => rfl⟩

theorem frameHeard_other {p : PortId} {arr : Arrival} {s : State} (h : sightsSelf s arr.frame.link = false) :
    frameHeard p arr s = frameOutcome p arr s := by
  unfold frameHeard
  rw [h]
  rfl

/-- The port's rules for a good frame, by its state. -/
theorem goodFrame_heard {p : PortId} {arr : Arrival} {s : State} (h : (s.port p).state ≠ .drill) :
    goodFrame p arr.frame.link arr.now (s.setPort p (seen arr (s.port p))) =
      if (s.port p).state = .settle then frameOutcome p arr s else frameHeard p arr s := by
  have here : ((s.setPort p (seen arr (s.port p))).port p).state = (s.port p).state := by rw [port_setPort]; rfl
  split
  · next settle =>
    rw [goodFrame_settle (here.trans settle), port_setPort]
    unfold frameOutcome frameEffect
    rw [state_seenGood, settle]
    rfl
  · next k =>
    rw [goodFrame_eq (by rw [here]; exact k) (by rw [here]; exact h), port_setPort]
    unfold frameHeard sightsSelf
    rw [start_setPort]
    rfl

theorem receive_good {p : PortId} {arr : Arrival} {s : State} (good : passesCheck arr = true)
    (h : (s.port p).state ≠ .drill) : receive p arr s =
      if (s.port p).state = .up ∧ (outcomeRec p arr s).state = .up ∧ arr.frame.slots.isSome = true then
        dispatch p arr.frame arr.now (frameHeard p arr s)
      else if (s.port p).state = .settle then frameOutcome p arr s else frameHeard p arr s := by
  have state : ((frameHeard p arr s).port p).state = (outcomeRec p arr s).state :=
    ((port_frameOutcome h).stands (frameHeard_still p arr s).1).state
  unfold receive
  simp only
  rw [markArrived_seen h, if_pos good, goodFrame_heard h]
  by_cases up : (s.port p).state = .up
  · simp [up, state]
  · simp [up]

/-- The handover of the loop frame of a port that is UP before and after it, and no more (R37). -/
theorem receive_kept {p : PortId} {arr : Arrival} {s : State} (good : passesCheck arr = true)
    (h : (s.port p).state = .offer ∨ (s.port p).state = .up ∨ (s.port p).state = .mismatch)
    (k : (s.port p).state ≠ .up ∨ (outcomeRec p arr s).state ≠ .up ∨ arr.frame.slots = none) :
    receive p arr s = frameHeard p arr s := by
  have drill : (s.port p).state ≠ .drill := by rcases h with h | h | h <;> simp [h]
  have settle : (s.port p).state ≠ .settle := by rcases h with h | h | h <;> simp [h]
  rw [receive_good good drill, if_neg, if_neg settle]
  rintro ⟨up, still, slots⟩
  rcases k with k | k | k
  · exact k up
  · exact k still
  · simp [k] at slots

/-- The port's record after a good frame. -/
theorem port_receive {p : PortId} {arr : Arrival} {s : State} (good : passesCheck arr = true)
    (h : (s.port p).state ≠ .drill) : HoldsRec (outcomeRec p arr s) ((receive p arr s).port p) := by
  have outcome := port_frameOutcome (arr := arr) h
  have heard := outcome.stands (frameHeard_still p arr s).1
  rw [receive_good good h]
  split
  · exact heard.stands (dispatch_ports _ _ _ _)
  · split
    · exact outcome
    · exact heard

/-- A frame at a port whose wrap is LOSS goes no further (R47, R49). -/
theorem dispatch_lost {p : PortId} {f : Frame} {now : Nanos} {s : State} (lost : s.wrapAt p = .loss)
    (other : s.wrapAt (portOther p) = .none) : dispatch p f now s = s := by
  have unrouted : relay p f s = s := by
    refine relay_none ?_
    unfold relayPort
    cases p <;> simp only [State.wrapAt, portOther] at lost other <;> simp [lost, other]
  unfold dispatch
  split
  · rfl
  · split
    · exact unrouted
    · exact unrouted
    all_goals rw [lost]

/-! ### The event -/

/-- The event of a good frame leaves the port that record. -/
theorem event_record {p : PortId} {arr : Arrival} {s : State} (hr : s.inReset = false) (good : passesCheck arr = true)
    (h : (s.port p).state ≠ .drill) :
    ∃ t, exec (.portFrameReceive p arr) s = .next t ∧ HoldsRec (outcomeRec p arr s) (t.port p) := by
  obtain ⟨t, ht, same, -⟩ := done_blocks (f := receive p arr) hr
  refine ⟨t, ht, ?_⟩
  rw [port_settled same p]
  exact port_receive good h

/-- What it leaves where it is not handed over. -/
theorem event_kept {p : PortId} {arr : Arrival} {s : State} (hr : s.inReset = false) (h : (s.port p).state ≠ .drill)
    (e : receive p arr s = frameHeard p arr s) :
    ∃ t, exec (.portFrameReceive p arr) s = .next t ∧ HoldsRec (outcomeRec p arr s) (t.port p) ∧
      PortEventFrame s t ∧ ∀ q, t.wrapAt q = (frameOutcome p arr s).wrapAt q := by
  obtain ⟨t, ht, same, -, -, pending⟩ := done_blocks (f := receive p arr) hr
  obtain ⟨ports, blocks, wraps⟩ := frameHeard_still p arr s
  rw [e] at same
  obtain ⟨start, -, -, -, snap, -, gain, -, lock, supervision⟩ := settled_blocks same
  simp only [eventBlocks, Prod.mk.injEq] at blocks
  obtain ⟨start', snap', gain', lock', supervision'⟩ := blocks
  refine ⟨t, ht, ?_, ⟨start.trans start', snap.trans snap', gain.trans gain', lock.trans lock',
    supervision.trans supervision', pending⟩, fun q => (wrapAt_of_loop (loop_settled same) q).trans (wraps q)⟩
  rw [port_settled same p]
  exact (port_frameOutcome h).stands ports

end Sys2Proof.Machine
end

section
/-! PROOFS. The good frame at a port in OFFER, UP or MISMATCH (R28 to R32, R35, R52, R53). -/

namespace Sys2Proof.Machine

open Sys2Proof

/-! ### The record, by what the frame offers -/

theorem heardRec_offer_none {s : State} {r : PortRec} (offer : r.state = .offer) :
    heardRec s none r = { r with agreeRun := 0 } := by
  unfold heardRec
  rw [offer]
  exact congrArg (fun st => { r with state := st, agreeRun := 0 }) offer

theorem heardRec_offer_disagrees {s : State} {l : LinkField} {r : PortRec} (offer : r.state = .offer)
    (h : offerAgrees s l.offer = false) : heardRec s (some l) r = enterMismatch l r := by
  unfold heardRec
  rw [offer]
  exact congrArg Prod.fst (examineOffer_disagrees h)

theorem heardRec_offer_waits {s : State} {l : LinkField} {r : PortRec} (offer : r.state = .offer)
    (h : offerAgrees s l.offer = true) (run : nextRun r l < 3) :
    heardRec s (some l) r = offered l (nextRun r l) r := by
  unfold heardRec
  rw [offer]
  exact (congrArg Prod.fst (examineOffer_agrees h)).trans (if_neg (Nat.not_le.2 run))

theorem heardRec_offer_joins {s : State} {l : LinkField} {r : PortRec} (offer : r.state = .offer)
    (h : offerAgrees s l.offer = true) (run : 3 ≤ nextRun r l) :
    heardRec s (some l) r = enterUp false (offered l (nextRun r l) r) := by
  unfold heardRec
  rw [offer]
  exact (congrArg Prod.fst (examineOffer_agrees h)).trans (if_pos run)

theorem heardRec_up {s : State} {f : Option LinkField} {r : PortRec} (up : r.state = .up)
    (h : r.flags.fixed = false) : heardRec s f r = upRec s f r := by
  unfold heardRec
  rw [up]
  exact if_neg (by simp [h])

theorem heardRec_fixed {s : State} {r : PortRec} (up : r.state = .up) (h : r.flags.fixed = true) :
    heardRec s none r = r ∧ ∀ l, heardRec s (some l) r =
      if offerAgrees s l.offer then reOffered l r else enterMismatch l (enterOffer r) := by
  unfold heardRec
  rw [up]
  exact ⟨if_pos h, fun l => if_pos h⟩

/-- The end of a FIXED join and the partner change (R29, R30). -/
theorem heardRec_up_renews {s : State} {l : LinkField} {r : PortRec} (up : r.state = .up)
    (h : r.flags.fixed = true ∨ sameSender r l = false) (agrees : offerAgrees s l.offer = true) :
    heardRec s (some l) r = reOffered l r := by
  cases fixed : r.flags.fixed with
  | true => exact ((heardRec_fixed up fixed).2 l).trans (if_pos agrees)
  | false =>
    rw [heardRec_up up fixed]
    unfold upRec
    simp [agrees, h.resolve_left (by simp [fixed])]

/-- The disagreeing offer at a port that is UP (R29, R30). -/
theorem heardRec_up_disagrees {s : State} {l : LinkField} {r : PortRec} (up : r.state = .up)
    (disagrees : offerAgrees s l.offer = false) :
    ∃ b, heardRec s (some l) r = { enterMismatch l r with offerSeen := b } := by
  cases fixed : r.flags.fixed with
  | true =>
    refine ⟨false, ((heardRec_fixed up fixed).2 l).trans ((if_neg (by simp [disagrees])).trans ?_)⟩
    rw [enterOffer_up up, enterMismatch_down (by simp), enterMismatch_up up]
  | false =>
    refine ⟨(enterMismatch l r).offerSeen, ?_⟩
    rw [heardRec_up up fixed]
    unfold upRec
    simp [disagrees]

/-- The offer of the held partner that hears this node (R31). -/
theorem heardRec_up_heard {s : State} {l : LinkField} {r : PortRec} (up : r.state = .up)
    (fixed : r.flags.fixed = false) (agrees : offerAgrees s l.offer = true) (same : sameSender r l = true)
    (hear : l.offer.hearYou = true) : heardRec s (some l) r =
      { r with partner := some l, clearRun := 0, flags := { r.flags with remoteFault := false } } := by
  rw [heardRec_up up fixed]
  unfold upRec
  simp [agrees, same, hear]

/-- A good frame with hear-you clear: without an offer, or with an agreeing one of the held partner (R31). -/
def HearYouClear (s : State) (r : PortRec) (f : Option LinkField) : Prop :=
  f = none ∨ ∃ l, f = some l ∧ offerAgrees s l.offer = true ∧ sameSender r l = true ∧ l.offer.hearYou = false

theorem heardRec_up_clear {s : State} {f : Option LinkField} {r : PortRec} (up : r.state = .up)
    (fixed : r.flags.fixed = false) (h : HearYouClear s r f) : heardRec s f r = hearClear r := by
  rw [heardRec_up up fixed]
  unfold upRec
  rcases h with rfl | ⟨l, rfl, agrees, same, hear⟩
  · rfl
  · simp [agrees, same, hear]

theorem heardRec_mismatch {s : State} {r : PortRec} (mismatch : r.state = .mismatch) :
    heardRec s none r = r ∧ ∀ l, heardRec s (some l) r =
      if offerAgrees s l.offer then reOffered l r else { r with partner := some l } := by
  unfold heardRec
  simp only [mismatch, implies_true, and_self]

/-- REMOTE_FAULT is set by the 48th frame with hear-you clear at a port that is UP without FIXED, and by no other
(R31). -/
theorem remoteFault_heardRec {s : State} {f : Option LinkField} {r : PortRec}
    (h : (heardRec s f r).flags.remoteFault = true) : r.flags.remoteFault = true ∨
      (r.state = .up ∧ r.flags.fixed = false ∧ 48 ≤ r.clearRun + 1 ∧ HearYouClear s r f) := by
  have renewed (l : LinkField) : (reOffered l r).flags.remoteFault = false := enterOffer_flags r
  have parted (l : LinkField) (x : PortRec) : (enterMismatch l x).flags.remoteFault = false :=
    (enterMismatch_flags l x).2
  have clear (up : r.state = .up) (fixed : r.flags.fixed = false) (k : HearYouClear s r f)
      (set : (hearClear r).flags.remoteFault = true) : r.flags.remoteFault = true ∨
      (r.state = .up ∧ r.flags.fixed = false ∧ 48 ≤ r.clearRun + 1 ∧ HearYouClear s r f) := by
    by_cases run : r.clearRun + 1 < 48
    · rw [hearClear_short run] at set
      exact .inl set
    · exact .inr ⟨up, fixed, Nat.not_lt.1 run, k⟩
  cases state : r.state with
  | dark | settle | drill =>
    unfold heardRec at h
    rw [state] at h
    exact .inl h
  | seek =>
    unfold heardRec at h
    rw [state] at h
    simp only at h
    split at h <;> exact .inl h
  | offer =>
    cases f with
    | none =>
      rw [heardRec_offer_none state] at h
      exact .inl h
    | some l =>
      cases agrees : offerAgrees s l.offer with
      | false =>
        rw [heardRec_offer_disagrees state agrees, parted] at h
        cases h
      | true =>
        by_cases run : 3 ≤ nextRun r l
        · rw [heardRec_offer_joins state agrees run] at h
          exact .inl h
        · rw [heardRec_offer_waits state agrees (Nat.not_le.1 run)] at h
          exact .inl h
  | mismatch =>
    cases f with
    | none =>
      rw [(heardRec_mismatch state).1] at h
      exact .inl h
    | some l =>
      rw [(heardRec_mismatch state).2] at h
      split at h
      · rw [renewed] at h
        cases h
      · exact .inl h
  | up =>
    cases f with
    | none =>
      cases fixed : r.flags.fixed with
      | true =>
        rw [(heardRec_fixed state fixed).1] at h
        exact .inl h
      | false =>
        rw [heardRec_up_clear state fixed (.inl rfl)] at h
        exact (clear state fixed (.inl rfl) h).imp_right fun ⟨_, _, k⟩ => ⟨rfl, rfl, k⟩
    | some l =>
      cases agrees : offerAgrees s l.offer with
      | false =>
        obtain ⟨b, record⟩ := heardRec_up_disagrees state agrees
        rw [record, parted] at h
        cases h
      | true =>
        by_cases other : r.flags.fixed = true ∨ sameSender r l = false
        · rw [heardRec_up_renews state other agrees, renewed] at h
          cases h
        · obtain ⟨fixed, same⟩ : r.flags.fixed = false ∧ sameSender r l = true := by simpa using other
          cases hear : l.offer.hearYou with
          | true =>
            rw [heardRec_up_heard state fixed agrees same hear] at h
            cases h
          | false =>
            have k : HearYouClear s r (some l) := .inr ⟨l, rfl, agrees, same, hear⟩
            rw [heardRec_up_clear state fixed k] at h
            exact (clear state fixed k h).imp_right fun ⟨_, k⟩ => ⟨rfl, k⟩

/-- A port in OFFER comes to be UP by the third agreeing offer, and by no other frame (R28). -/
theorem heardRec_offer_up {s : State} {f : Option LinkField} {r : PortRec} (offer : r.state = .offer)
    (h : (heardRec s f r).state = .up) :
    ∃ l, f = some l ∧ offerAgrees s l.offer = true ∧ 3 ≤ nextRun r l := by
  cases f with
  | none =>
    rw [heardRec_offer_none offer] at h
    exact absurd (offer.symm.trans h) (by simp)
  | some l =>
    cases agrees : offerAgrees s l.offer with
    | false =>
      rw [heardRec_offer_disagrees offer agrees, (enterMismatch_flags l r).1] at h
      cases h
    | true =>
      refine ⟨l, rfl, agrees, ?_⟩
      by_contra run
      rw [heardRec_offer_waits offer agrees (Nat.not_le.1 run)] at h
      exact absurd (offer.symm.trans h) (by simp)

/-! ### The change of a port that is not UP before and after it -/

/-- Such a change is the record, with its PORT_CHANGE where state or flags moved. -/
theorem commit_down {p : PortId} {c : PortCause} {r : PortRec} {s : State} (hs : Settled s)
    (was : (s.port p).state ≠ .up) (now : r.state ≠ .up)
    (fault : r.flags.remoteFault = true → (s.port p).flags.remoteFault = true) : commit p c r s =
      if stateOrFlags (s.port p) r then notify (.portChange p r.state r.flags r.light c) (s.setPort p r)
      else s.setPort p r :=
  (commit_base (.inl (overtakes_off (.inr was) fault)) (.inr now)).trans
    (commitBase_unusable hs (portUsable_down was) (portUsable_down now))

/-- It leaves the wraps. -/
theorem wrapAt_commit_down {p : PortId} {c : PortCause} {r : PortRec} {s : State} (was : (s.port p).state ≠ .up)
    (now : r.state ≠ .up) (fault : r.flags.remoteFault = true → (s.port p).flags.remoteFault = true) (q : PortId) :
    (commit p c r s).wrapAt q = s.wrapAt q := by
  have told (a : State) (b : Bool) : Told a (if b = true then notifyPort p c a else a) :=
    .ite (notify_told _ _) (.refl a)
  have event (a : State) (b : Bool) (h : a.usable p = false) :
      (if b = true then portEvent p (s.port p) a else a).wrapAt q = a.wrapAt q := by
    split
    · rw [wrapAt_portEvent, portUsable_down was]
      unfold wrapStep
      simp [h]
    · rfl
  rw [commit_base (.inl (overtakes_off (.inr was) fault)) (.inr now)]
  unfold commitBase
  refine (event _ _ (((told _ _).usable p).trans ?_)).trans (((told _ _).wrapAt q).trans (wrapAt_setPort _ _ _ _))
  rw [usable_setPort]
  exact portUsable_down now

/-! ### The change of the port -/

/-- A good frame at a port in OFFER is one change. -/
theorem frameOutcome_offer {p : PortId} {arr : Arrival} {s : State} (offer : (s.port p).state = .offer) :
    frameOutcome p arr s = commit p (examineOffer s arr.frame.link (seenGood arr (s.port p))).2 (outcomeRec p arr s)
      (s.setPort p (seen arr (s.port p))) := by
  have examined (f : Option LinkField) (r : PortRec) :
      examineOffer (s.setPort p (seen arr (s.port p))) f r = examineOffer s f r := by
    unfold examineOffer offerAgrees
    rw [start_setPort]
  unfold frameOutcome outcomeRec frameEffect heardRec
  rw [state_seenGood, offer]
  simp only [examined]

/-- So is an offer at one in MISMATCH. -/
theorem frameOutcome_mismatch {p : PortId} {arr : Arrival} {s : State} (mismatch : (s.port p).state = .mismatch) :
    (arr.frame.link = none → frameOutcome p arr s = s.setPort p (seenGood arr (s.port p))) ∧
    (∀ l, arr.frame.link = some l → frameOutcome p arr s =
      commit p (if offerAgrees s l.offer then .agree else .disagree) (outcomeRec p arr s)
        (s.setPort p (seen arr (s.port p)))) := by
  have effect : frameOutcome p arr s = mismatchFrame p arr.frame.link (seenGood arr (s.port p))
      (s.setPort p (seen arr (s.port p))) := by
    unfold frameOutcome frameEffect
    rw [state_seenGood, mismatch]
  rw [effect]
  refine ⟨fun none_ => ?_, fun l some_ => ?_⟩
  · rw [none_]
    exact setPort_setPort _ _ _ _
  · have agrees : offerAgrees (s.setPort p (seen arr (s.port p))) l.offer = offerAgrees s l.offer := by
      unfold offerAgrees
      rw [start_setPort]
    unfold mismatchFrame outcomeRec
    rw [some_, (heardRec_mismatch ((state_seenGood _ _).trans mismatch)).2]
    simp only [agrees]
    cases k : offerAgrees s l.offer with
    | true => exact reOffer_agrees (agrees.trans k)
    | false => rfl

/-- A good frame at a port that is UP is one change, and two where a disagreeing offer ends a FIXED join. -/
theorem frameOutcome_up {p : PortId} {arr : Arrival} {s : State} (up : (s.port p).state = .up)
    (h : (s.port p).flags.fixed = false ∨ ∃ l, arr.frame.link = some l) :
    (∃ c, frameOutcome p arr s = commit p c (outcomeRec p arr s) (s.setPort p (seen arr (s.port p)))) ∨
    ∃ l, outcomeRec p arr s = enterMismatch l (enterOffer (seenGood arr (s.port p))) ∧ frameOutcome p arr s =
      commit p .disagree (outcomeRec p arr s)
        (commit p .fixedEnd (enterOffer (seenGood arr (s.port p))) (s.setPort p (seen arr (s.port p)))) := by
  have agrees (l : LinkField) : offerAgrees (s.setPort p (seen arr (s.port p))) l.offer = offerAgrees s l.offer := by
    unfold offerAgrees
    rw [start_setPort]
  have flags : (seenGood arr (s.port p)).flags = (s.port p).flags := by
    obtain ⟨_, _, _, _, _, _, _, _, _, e⟩ := seenGood_record arr (s.port p)
    rw [e]
  have here : (seenGood arr (s.port p)).state = .up := (state_seenGood _ _).trans up
  cases fixed : (s.port p).flags.fixed with
  | false =>
    have rec_ : upRec (s.setPort p (seen arr (s.port p))) arr.frame.link (seenGood arr (s.port p)) =
        outcomeRec p arr s := by
      unfold outcomeRec
      rw [heardRec_up here (by rw [flags]; exact fixed)]
      unfold upRec
      simp only [agrees]
    obtain ⟨c, committed⟩ := upFrame_commit p arr.frame.link (seenGood arr (s.port p)) (s.setPort p (seen arr (s.port p)))
    refine .inl ⟨c, ?_⟩
    rw [← rec_, ← committed]
    exact (frameEffect_up here _).2 (by rw [flags]; exact fixed)
  | true =>
    obtain ⟨l, some_⟩ := h.resolve_left (by simp [fixed])
    have effect : frameOutcome p arr s =
        reOffer p .fixedEnd (some l) (seenGood arr (s.port p)) (s.setPort p (seen arr (s.port p))) := by
      unfold frameOutcome frameEffect
      rw [here, some_]
      exact if_pos (by rw [flags]; exact fixed)
    have record : outcomeRec p arr s = if offerAgrees s l.offer then reOffered l (seenGood arr (s.port p))
        else enterMismatch l (enterOffer (seenGood arr (s.port p))) := by
      unfold outcomeRec
      rw [some_]
      exact (heardRec_fixed here (by rw [flags]; exact fixed)).2 l
    rw [effect, record]
    cases k : offerAgrees s l.offer with
    | true => exact .inl ⟨_, reOffer_agrees ((agrees l).trans k)⟩
    | false => exact .inr ⟨l, rfl, reOffer_disagrees ((agrees l).trans k)⟩

/-! ### The wraps (R52, R53) -/

/-- A usable port is lost beside another: its wrap becomes LOSS, the other's is released (R52). -/
theorem frameOutcome_lost {p : PortId} {arr : Arrival} {s : State}
    (link : (s.port p).flags.fixed = false ∨ ∃ l, arr.frame.link = some l) (usable : s.usable p = true)
    (other : s.usable (portOther p) = true) (now : portUsable (outcomeRec p arr s) = false) :
    (frameOutcome p arr s).wrapAt p = .loss ∧ (frameOutcome p arr s).wrapAt (portOther p) = .none := by
  have up : (s.port p).state = .up := by
    simp only [State.usable, portUsable, Bool.and_eq_true, beq_iff_eq] at usable
    exact usable.1
  have was : (s.setPort p (seen arr (s.port p))).usable p = true := (usable_setPort _ _ _).trans usable
  have still : (s.setPort p (seen arr (s.port p))).usable (portOther p) = true :=
    (usable_setPort_other _ _ _).trans other
  rcases frameOutcome_up up link with ⟨c, e⟩ | ⟨l, record, e⟩
  · rw [e]
    exact (commit_lost was now still).2
  · obtain ⟨fresh, offer⟩ := enterOffer_fresh (seenGood arr (s.port p))
    have lost := (commit_lost (c := .fixedEnd) (r := enterOffer (seenGood arr (s.port p))) was
      (portUsable_down (by rw [offer]; simp)) still).2
    obtain ⟨_, _, between⟩ := port_commit (p := p) (c := .fixedEnd) (r := enterOffer (seenGood arr (s.port p)))
      (s := s.setPort p (seen arr (s.port p))) (by rw [offer]; simp)
    have kept := wrapAt_commit_down (c := .disagree) (r := outcomeRec p arr s)
      (s := commit p .fixedEnd (enterOffer (seenGood arr (s.port p))) (s.setPort p (seen arr (s.port p))))
      (by rw [between]; simp [offer])
      (by rw [record, (enterMismatch_flags _ _).1]; simp) (by rw [record, (enterMismatch_flags _ _).2]; simp)
    rw [e, kept, kept]
    exact lost

/-- A port that comes to be usable again under a LOSS wrap holds a PLANNED one for its link (R53). -/
theorem frameOutcome_regained {p : PortId} {arr : Arrival} {s : State} {l : LinkField} (up : (s.port p).state = .up)
    (fixed : (s.port p).flags.fixed = false) (unusable : s.usable p = false)
    (lost : s.wrapAt p = .loss) (state : (outcomeRec p arr s).state = .up)
    (fault : (outcomeRec p arr s).flags.remoteFault = false) (partner : (outcomeRec p arr s).partner = some l) :
    (frameOutcome p arr s).wrapAt p = .planned (some l.sender) := by
  let r := outcomeRec p arr s
  let a := s.setPort p (seen arr (s.port p))
  have was : portUsable (a.port p) = false := by rw [port_setPort]; exact unusable
  have now : portUsable r = true := by simp [portUsable, r, state, fault]
  have stood : (a.port p).state = .up := by rw [port_setPort]; exact up
  have one : ∃ c, frameOutcome p arr s = commit p c r a := by
    refine (frameOutcome_up up (.inl fixed)).resolve_right ?_
    rintro ⟨m, record, -⟩
    rw [record, (enterMismatch_flags _ _).1] at state
    cases state
  obtain ⟨c, e⟩ := one
  have base := (commit_base (c := c) (r := r) (s := a) (.inl (overtakes_off (.inl (stood.trans state.symm))
    (by rw [show r.flags.remoteFault = false from fault]; simp))) (.inl stood)).trans
    (commitBase_event (stateOrFlags_usable (by rw [was, now]; simp)))
  have told := notify_told (.portChange p r.state r.flags r.light c) (a.setPort p r)
  have port : (notify (.portChange p r.state r.flags r.light c) (a.setPort p r)).port p = r := by
    rw [port_notify, port_setPort]
  have usable : (notify (.portChange p r.state r.flags r.light c) (a.setPort p r)).usable p = true :=
    (told.usable p).trans ((usable_setPort _ _ _).trans now)
  have wrap : (notify (.portChange p r.state r.flags r.light c) (a.setPort p r)).wrapAt p = .loss :=
    (told.wrapAt p).trans ((wrapAt_setPort _ _ _ _).trans ((wrapAt_setPort _ _ _ _).trans lost))
  rw [e, base, wrapAt_portEvent, was]
  unfold wrapStep
  simp only [usable, wrap, Bool.false_and, Bool.not_false, Bool.and_self, Bool.false_eq_true, if_false, if_true]
  rw [wrapAt_setWrap, port]
  unfold plannedWrap
  rw [show r.partner = some l from partner]
  rfl

end Sys2Proof.Machine
end

section
/-! PROOFS. JOINED, REMOTE_FAULT_SET and the good frame at a port in OFFER, UP or MISMATCH (R28 to R32, R35, R37). -/

namespace Sys2Proof.Machine

open Sys2Proof

/-! ### The failed check (R25, R33) -/

/-- A frame that fails its check neither takes a port to UP nor sets REMOTE_FAULT. -/
theorem receive_bad_leaves {p : PortId} {arr : Arrival} {s : State} (bad : passesCheck arr = false) :
    (((receive p arr s).port p).state = .up → (s.port p).state = .up) ∧
      (((receive p arr s).port p).flags.remoteFault = true → (s.port p).flags.remoteFault = true) := by
  have fault (rate : Rate) (r : PortRec) : (countBad rate r).flags.remoteFault = r.flags.remoteFault := by
    rw [countBad_eq]
    unfold setMarginal
    repeat' split
    all_goals rfl
  have aligned (h : isAligned (s.port p).state = true) :
      (((receive p arr s).port p).state = .up → (s.port p).state = .up) ∧
      (((receive p arr s).port p).flags.remoteFault = true → (s.port p).flags.remoteFault = true) := by
    let u := s.setPort p { s.port p with time := arr.now }
    have here : u.port p = { s.port p with time := arr.now } := port_setPort _ _ _
    have still : isAligned (u.port p).state = true := by rw [here]; exact h
    have effect : receive p arr s = badFrameAt p u := by
      rw [receive_aligned_bad h bad, badFrameAt_aligned still, here, setPort_setPort]
      rfl
    rw [effect]
    by_cases run : (u.port p).badRun + 1 < 16
    · obtain ⟨state, flags⟩ := port_badFrameAt_kept still run
      rw [state, flags, fault, here]
      exact ⟨id, id⟩
    · obtain ⟨state, flags⟩ := port_badFrameAt_lost still (Nat.not_lt.1 run)
      rw [state, flags]
      exact ⟨fun k => (by cases k), fun k => (by cases k)⟩
  cases k : (s.port p).state with
  | drill =>
    rw [receive_drill k, port_setPort, ← k]
    exact ⟨id, id⟩
  | dark =>
    rw [receive_bad (by simp [k]) bad, failedFrame_dark (by rw [port_setPort]; exact k), port_setPort, port_setPort,
      ← k]
    exact ⟨id, id⟩
  | seek =>
    rw [receive_bad (by simp [k]) bad, failedFrame_seek (by rw [port_setPort]; exact k), port_setPort, port_setPort,
      ← k]
    exact ⟨id, id⟩
  | up => exact ⟨fun _ => rfl, (aligned (by rw [k]; rfl)).2⟩
  | settle | offer | mismatch =>
    rw [← k]
    exact aligned (by rw [k]; rfl)

/-! ### The rows that single out one consequence -/

theorem nextRun_seenGood (arr : Arrival) (r : PortRec) (l : LinkField) :
    nextRun (seenGood arr r) l = nextRun r l := by
  obtain ⟨_, _, _, _, _, _, _, _, _, e⟩ := seenGood_record arr r
  rw [e]
  rfl

theorem sameSender_seenGood (arr : Arrival) (r : PortRec) (l : LinkField) :
    sameSender (seenGood arr r) l = sameSender r l := by
  obtain ⟨_, _, _, _, _, _, _, _, _, e⟩ := seenGood_record arr r
  rw [e]
  rfl

theorem flags_seenGood (arr : Arrival) (r : PortRec) : (seenGood arr r).flags = r.flags := by
  obtain ⟨_, _, _, _, _, _, _, _, _, e⟩ := seenGood_record arr r
  rw [e]

theorem clearRun_seenGood (arr : Arrival) (r : PortRec) : (seenGood arr r).clearRun = r.clearRun := by
  obtain ⟨_, _, _, _, _, _, _, _, _, e⟩ := seenGood_record arr r
  rw [e]

/-- A frame that takes a port from OFFER to UP carries its third agreeing offer (R28). -/
theorem joinsAt_offer {p : PortId} {arr : Arrival} {s : State} (h : joinsAt p s (receive p arr s) = true) :
    (s.port p).state = .offer ∧ passesCheck arr = true ∧
      ∃ l, arr.frame.link = some l ∧ offerAgrees s l.offer = true ∧ 3 ≤ nextRun (s.port p) l := by
  obtain ⟨offer, up⟩ : (s.port p).state = .offer ∧ ((receive p arr s).port p).state = .up := by
    simpa [joinsAt] using h
  refine ⟨offer, ?_⟩
  cases good : passesCheck arr with
  | false =>
    have was := (receive_bad_leaves (p := p) (s := s) good).1 up
    rw [offer] at was
    cases was
  | true =>
    obtain ⟨l, link, agrees, run⟩ := heardRec_offer_up ((state_seenGood arr _).trans offer)
      ((port_receive good (by simp [offer])).state.symm.trans up)
    exact ⟨rfl, l, link, agrees, by rwa [nextRun_seenGood] at run⟩

/-- A frame that sets REMOTE_FAULT is the 48th good one with hear-you clear, at a port that is UP without FIXED (R31). -/
theorem faultSetAt_clear {p : PortId} {arr : Arrival} {s : State} (h : faultSetAt p s (receive p arr s) = true) :
    passesCheck arr = true ∧ (s.port p).state = .up ∧ (s.port p).flags.fixed = false ∧
      (s.port p).flags.remoteFault = false ∧ 48 ≤ (s.port p).clearRun + 1 ∧
      HearYouClear s (seenGood arr (s.port p)) arr.frame.link := by
  obtain ⟨clear, set⟩ : (s.port p).flags.remoteFault = false ∧ ((receive p arr s).port p).flags.remoteFault = true := by
    simpa [faultSetAt] using h
  cases good : passesCheck arr with
  | false =>
    have was := (receive_bad_leaves (p := p) (s := s) good).2 set
    rw [clear] at was
    cases was
  | true =>
    have drill : (s.port p).state ≠ .drill := fun k => by
      rw [receive_drill k, port_setPort] at set
      exact absurd (clear.symm.trans set) (by simp)
    have now : (outcomeRec p arr s).flags.remoteFault = true := by
      rw [← (port_receive good drill).flags]
      exact set
    have cause := remoteFault_heardRec now
    rw [state_seenGood, flags_seenGood, clearRun_seenGood] at cause
    obtain ⟨up, fixed, run, heard⟩ := cause.resolve_left (by simp [clear])
    exact ⟨rfl, up, fixed, clear, run, heard⟩

theorem joined_idle {p : PortId} {arr : Arrival} {s : State} (hr : s.inReset = false) (hs : Settled s)
    (h : ¬ ((s.port p).state = .offer ∧ passesCheck arr = true ∧
      ∃ l, arr.frame.link = some l ∧ offerAgrees s l.offer = true ∧ 3 ≤ nextRun (s.port p) l)) :
    ∃ t, exec (.joined p arr) s = .next t ∧ Happened [] s s t :=
  event_nothing hr hs (onlyIf_idle (Bool.eq_false_iff.2 (mt joinsAt_offer h)))

/-- JOINED is the frame itself where the port joins. -/
theorem exec_joined {p : PortId} {arr : Arrival} {s : State} (good : passesCheck arr = true)
    (offer : (s.port p).state = .offer) (up : (outcomeRec p arr s).state = .up) {c : Instr}
    (hc : c = .joined p arr ∨ c = .portFrameReceive p arr) : exec c s = exec (.portFrameReceive p arr) s := by
  have state := (port_receive good (by simp [offer])).state.trans up
  rcases hc with rfl | rfl
  · exact done_onlyIf (by simp [joinsAt, offer, state])
  · rfl

/-! ### OFFER (R28) -/

/-- What the third agreeing offer leaves in the record. -/
theorem outcome_joins {p : PortId} {arr : Arrival} {l : LinkField} {s : State} (link : arr.frame.link = some l)
    (offer : (s.port p).state = .offer) (agrees : offerAgrees s l.offer = true) (run : 3 ≤ nextRun (s.port p) l) :
    outcomeRec p arr s = enterUp false (offered l (nextRun (s.port p) l) (seenGood arr (s.port p))) := by
  unfold outcomeRec
  rw [link, heardRec_offer_joins ((state_seenGood _ _).trans offer) agrees (by rw [nextRun_seenGood]; exact run),
    nextRun_seenGood]

/-- The joining frame at a port in OFFER (R28, R35). -/
theorem joins {p : PortId} {arr : Arrival} {l : LinkField} {s : State} (hr : s.inReset = false)
    (good : passesCheck arr = true) (link : arr.frame.link = some l) (offer : (s.port p).state = .offer)
    (agrees : offerAgrees s l.offer = true) (run : 3 ≤ nextRun (s.port p) l) {c : Instr}
    (hc : c = .joined p arr ∨ c = .portFrameReceive p arr) : ∃ t, exec c s = .next t ∧
      (t.port p).state = .up ∧ (t.port p).flags = { (s.port p).flags with fixed := false } ∧
      (t.port p).partner = some l ∧ (t.port p).offerT = none ∧ (t.port p).relock = none ∧
      (t.port p).clearRun = 0 ∧
      (t.port p).counters = { (s.port p).counters with good := bump (s.port p).counters.good } ∧
      PortEventFrame s t := by
  have record := outcome_joins link offer agrees run
  obtain ⟨t, ht, ⟨e, d, f, here⟩, frame, -⟩ := event_kept hr (by simp [offer])
    (receive_kept good (.inl offer) (.inl (by simp [offer])))
  obtain ⟨_, _, _, _, _, _, _, _, _, seen⟩ := seenGood_record arr (s.port p)
  refine ⟨t, (exec_joined good offer (by rw [record]; rfl) hc).trans ht, ?_⟩
  rw [here, record, seen]
  exact ⟨rfl, rfl, rfl, rfl, rfl, rfl, rfl, frame⟩

/-- The joining frame with the node's own id is a conflict too (R37, R67). -/
theorem joins_own {p : PortId} {arr : Arrival} {l : LinkField} {s : State} (hr : s.inReset = false)
    (good : passesCheck arr = true) (link : arr.frame.link = some l) (own : l.sender = s.start.id)
    (free : s.loop.conflict = none) (offer : (s.port p).state = .offer)
    (agrees : offerAgrees s l.offer = true) (run : 3 ≤ nextRun (s.port p) l) {c : Instr}
    (hc : c = .joined p arr ∨ c = .portFrameReceive p arr) : ∃ t, exec c s = .next t ∧
      (t.port p).state = .up ∧ t.loop.conflict = some .duplicateId ∧ t.loop.role = .follower ∧
      t.loop.following = false := by
  obtain ⟨t, ht, up, -⟩ := joins hr good link offer agrees run hc
  obtain ⟨t', ht', conflict⟩ := duplicate_happened hr (receive_duplicate (p := p) good
    ((sightsSelf_iff s _).2 ⟨l, link, own⟩) (by simp [offer]) (by simp [offer]) free)
  have same : exec c s = .next t' :=
    (exec_joined good offer (by rw [outcome_joins link offer agrees run]; rfl) hc).trans ht'
  cases ht.symm.trans same
  exact ⟨t, ht, up, conflict⟩

/-! ### The changes of a port that is not UP -/

/-- The event whose effect is the port's record alone. -/
theorem happened_setPort {p : PortId} {arr : Arrival} {x : PortRec} {s t : State} (hr : s.inReset = false)
    (hs : Settled s) (ht : exec (.portFrameReceive p arr) s = .next t) (e : receive p arr s = s.setPort p x)
    (u : portUsable x = s.usable p) : Happened [] s (s.setPort p (t.port p)) t := by
  obtain ⟨t₁, ht₁, same, -⟩ := done_blocks (f := receive p arr) hr
  obtain ⟨t₂, ht₂, happened⟩ := event_setPort hr hs e u
  cases ht.symm.trans ht₁
  cases ht.symm.trans ht₂
  rwa [port_settled same p, e, port_setPort]

/-- The event whose effect is the port's record with its PORT_CHANGE. -/
theorem happened_portChange {p : PortId} {arr : Arrival} {x : PortRec} {n : Notice} {s t : State}
    (hr : s.inReset = false) (hs : Settled s) (ht : exec (.portFrameReceive p arr) s = .next t)
    (e : receive p arr s = notify n (s.setPort p x)) (u : portUsable x = s.usable p) :
    Happened [n] s (s.setPort p (t.port p)) t := by
  obtain ⟨t₁, ht₁, same, -⟩ := done_blocks (f := receive p arr) hr
  obtain ⟨t₂, ht₂, happened⟩ := event_portChange hr hs e u
  cases ht.symm.trans ht₁
  cases ht.symm.trans ht₂
  rwa [port_settled same p, e, port_notify, port_setPort]

/-- A change that leaves state and flags. -/
theorem commit_seen_same {p : PortId} {arr : Arrival} {c : PortCause} {x : PortRec} {s : State} (hs : Settled s)
    (was : (s.port p).state ≠ .up) (state : x.state = (s.port p).state) (flags : x.flags = (s.port p).flags) :
    commit p c x (s.setPort p (seen arr (s.port p))) = s.setPort p x := by
  have record : (s.setPort p (seen arr (s.port p))).port p = seen arr (s.port p) := port_setPort _ _ _
  have same : stateOrFlags (seen arr (s.port p)) x = false := by simp [stateOrFlags, seen, state, flags]
  rw [commit_down (hs.setPort p (seen arr (s.port p)) rfl) (by rw [record]; exact was) (by rw [state]; exact was)
    (by rw [record, flags]; exact id), record, same, setPort_setPort]
  rfl

/-- A change of state. -/
theorem commit_seen_moved {p : PortId} {arr : Arrival} {c : PortCause} {x : PortRec} {s : State} (hs : Settled s)
    (was : (s.port p).state ≠ .up) (now : x.state ≠ .up) (state : x.state ≠ (s.port p).state)
    (fault : x.flags.remoteFault = false) : commit p c x (s.setPort p (seen arr (s.port p))) =
      notify (.portChange p x.state x.flags x.light c) (s.setPort p x) := by
  have record : (s.setPort p (seen arr (s.port p))).port p = seen arr (s.port p) := port_setPort _ _ _
  have moved : stateOrFlags (seen arr (s.port p)) x = true := by simp [stateOrFlags, seen, state.symm]
  rw [commit_down (hs.setPort p (seen arr (s.port p)) rfl) (by rw [record]; exact was) now (by rw [fault]; simp), record, moved,
    setPort_setPort]
  rfl

end Sys2Proof.Machine
end

section
/-! PROOFS. The good frame by the port's state, clause by clause, and O25 (R28 to R32, R35, R37). -/

namespace Sys2Proof.Machine

open Sys2Proof

variable {p : PortId} {arr : Arrival} {s : State}

theorem passes_good (good : frameCheck arr.frame = arr.check) : passesCheck arr = true := (passesCheck_iff arr).2 good

theorem nextRun_third (r : PortRec) (l : LinkField) : 3 ≤ nextRun r l ↔
    l.offer.hearYou = true ∧ r.agreeFrom = some (l.sender, l.port) ∧ 3 ≤ r.agreeRun + 1 := by
  unfold nextRun
  split
  · next hear =>
    split
    · next same => simp [hear, same]
    · next other => simp [other]
  · next hear => simp [hear]

theorem sightsSelf_none {l : LinkField} (link : arr.frame.link = some l) (other : l.sender ≠ s.start.id) :
    sightsSelf s arr.frame.link = false := by
  rw [link]
  simp [sightsSelf, other]

/-! ### A port in OFFER or MISMATCH without an offer (R28, R32) -/

/-- A blank link field ends the run of a port in OFFER and leaves one in MISMATCH. -/
theorem blank_heard (hr : s.inReset = false) (hs : Settled s) (good : passesCheck arr = true)
    (link : arr.frame.link = none) (h : (s.port p).state = .offer ∨ (s.port p).state = .mismatch) :
    ∃ t, exec (.portFrameReceive p arr) s = .next t ∧ (t.port p).state = (s.port p).state ∧
      (t.port p).partner = (s.port p).partner ∧
      (t.port p).counters = { (s.port p).counters with good := bump (s.port p).counters.good } ∧
      (t.port p).agreeRun = (if (s.port p).state = .offer then 0 else (s.port p).agreeRun) ∧
      Happened [] s (s.setPort p (t.port p)) t := by
  have down : (s.port p).state ≠ .up := by rcases h with h | h <;> simp [h]
  have drill : (s.port p).state ≠ .drill := by rcases h with h | h <;> simp [h]
  have kept := receive_kept good (h.imp_right .inr) (.inl down)
  obtain ⟨t, ht, ⟨e, d, f, here⟩, -⟩ := event_kept hr drill kept
  have effect := kept.trans (frameHeard_other (by rw [link]; rfl))
  have flags := flags_seenGood arr (s.port p)
  have counted := state_seenGood arr (s.port p)
  obtain ⟨_, _, _, _, _, _, _, _, _, seen⟩ := seenGood_record arr (s.port p)
  refine ⟨t, ht, ?_⟩
  rcases h with offer | mismatch
  · have record : outcomeRec p arr s = { seenGood arr (s.port p) with agreeRun := 0 } := by
      unfold outcomeRec
      rw [link]
      exact heardRec_offer_none (counted.trans offer)
    rw [frameOutcome_offer offer, record, commit_seen_same (x := { seenGood arr (s.port p) with agreeRun := 0 }) hs
      down counted flags] at effect
    rw [record, seen] at here
    exact ⟨(congrArg PortRec.state here).trans rfl, (congrArg PortRec.partner here).trans rfl,
      congrArg PortRec.counters here,
      (congrArg PortRec.agreeRun here).trans (if_pos offer).symm, happened_setPort hr hs ht effect
        ((portUsable_down (mt counted.symm.trans down)).trans (usable_down down).symm)⟩
  · have record : outcomeRec p arr s = seenGood arr (s.port p) := by
      unfold outcomeRec
      rw [link]
      exact (heardRec_mismatch (counted.trans mismatch)).1
    rw [(frameOutcome_mismatch mismatch).1 link] at effect
    rw [record, seen] at here
    exact ⟨(congrArg PortRec.state here).trans rfl, (congrArg PortRec.partner here).trans rfl,
      congrArg PortRec.counters here,
      (congrArg PortRec.agreeRun here).trans (if_neg (by simp [mismatch])).symm, happened_setPort hr hs ht effect
        ((portUsable_down (mt counted.symm.trans down)).trans (usable_down down).symm)⟩

/-! ### A port in OFFER (R28) -/

theorem offer_disagrees {l : LinkField} (hr : s.inReset = false) (hs : Settled s) (good : passesCheck arr = true)
    (link : arr.frame.link = some l) (offer : (s.port p).state = .offer) (disagrees : offerAgrees s l.offer = false) :
    ∃ t, exec (.portFrameReceive p arr) s = .next t ∧ PortEventFrame s t ∧
      (t.port p).state = .mismatch ∧ (t.port p).partner = some l ∧ (t.port p).offerT = none ∧
      (t.port p).counters = { (s.port p).counters with good := bump (s.port p).counters.good } ∧
      (t.port p).relock = (s.port p).relock ∧
      (l.sender ≠ s.start.id → Happened [.portChange p .mismatch
        { (s.port p).flags with fixed := false, remoteFault := false } (s.port p).light .disagree] s
        (s.setPort p (t.port p)) t) := by
  have down : (s.port p).state ≠ .up := by simp [offer]
  have counted := (state_seenGood arr (s.port p)).trans offer
  have record : outcomeRec p arr s = enterMismatch l (seenGood arr (s.port p)) := by
    unfold outcomeRec
    rw [link]
    exact heardRec_offer_disagrees counted disagrees
  rw [enterMismatch_down (by simp [counted])] at record
  have kept := receive_kept good (.inl offer) (.inl down)
  obtain ⟨t, ht, ⟨e, d, f, here⟩, frame, -⟩ := event_kept hr (by simp [offer]) kept
  obtain ⟨_, _, _, _, _, _, _, _, _, seen⟩ := seenGood_record arr (s.port p)
  rw [seen] at record
  rw [record] at here
  refine ⟨t, ht, frame, congrArg PortRec.state here, congrArg PortRec.partner here, congrArg PortRec.offerT here,
    congrArg PortRec.counters here, (congrArg PortRec.relock here).trans rfl, fun other => ?_⟩
  have effect := kept.trans (frameHeard_other (sightsSelf_none link other))
  rw [frameOutcome_offer offer, link, examineOffer_disagrees disagrees, record,
    commit_seen_moved hs down (by simp) (by simp [offer]) rfl] at effect
  exact happened_portChange hr hs ht effect ((portUsable_down (by simp)).trans (usable_down down).symm)

theorem offer_waits {l : LinkField} (hr : s.inReset = false) (hs : Settled s) (good : passesCheck arr = true)
    (link : arr.frame.link = some l) (offer : (s.port p).state = .offer) (agrees : offerAgrees s l.offer = true)
    (run : nextRun (s.port p) l < 3) :
    ∃ t, exec (.portFrameReceive p arr) s = .next t ∧
      (t.port p).state = .offer ∧ (t.port p).partner = some l ∧ (t.port p).agreeRun = nextRun (s.port p) l ∧
      (t.port p).offerSeen = true ∧ (t.port p).offerT = (s.port p).offerT ∧
      (t.port p).counters = { (s.port p).counters with good := bump (s.port p).counters.good } ∧
      (l.sender ≠ s.start.id → Happened [] s (s.setPort p (t.port p)) t) := by
  have down : (s.port p).state ≠ .up := by simp [offer]
  have counted := (state_seenGood arr (s.port p)).trans offer
  have record : outcomeRec p arr s = offered l (nextRun (s.port p) l) (seenGood arr (s.port p)) := by
    unfold outcomeRec
    rw [link, heardRec_offer_waits counted agrees (by rw [nextRun_seenGood]; exact run), nextRun_seenGood]
  have kept := receive_kept good (.inl offer) (.inl down)
  obtain ⟨t, ht, ⟨e, d, f, here⟩, -⟩ := event_kept hr (by simp [offer]) kept
  obtain ⟨_, _, _, _, _, _, _, _, _, seen⟩ := seenGood_record arr (s.port p)
  rw [record, seen] at here
  refine ⟨t, ht, (congrArg PortRec.state here).trans offer, congrArg PortRec.partner here,
    congrArg PortRec.agreeRun here, congrArg PortRec.offerSeen here, (congrArg PortRec.offerT here).trans rfl,
    congrArg PortRec.counters here, fun other => ?_⟩
  have effect := kept.trans (frameHeard_other (sightsSelf_none link other))
  rw [frameOutcome_offer offer, record,
    commit_seen_same (x := offered l (nextRun (s.port p) l) (seenGood arr (s.port p))) hs down (state_seenGood _ _)
      (flags_seenGood _ _)] at effect
  exact happened_setPort hr hs ht effect
    ((portUsable_down (mt (state_seenGood _ _).symm.trans down)).trans (usable_down down).symm)

/-! ### A port in MISMATCH (R32) -/

theorem mismatch_disagrees {l : LinkField} (hr : s.inReset = false) (hs : Settled s) (good : passesCheck arr = true)
    (link : arr.frame.link = some l) (mismatch : (s.port p).state = .mismatch)
    (disagrees : offerAgrees s l.offer = false) :
    ∃ t, exec (.portFrameReceive p arr) s = .next t ∧
      (t.port p).state = .mismatch ∧ (t.port p).partner = some l ∧
      (t.port p).counters = { (s.port p).counters with good := bump (s.port p).counters.good } ∧
      (l.sender ≠ s.start.id → Happened [] s (s.setPort p (t.port p)) t) := by
  have down : (s.port p).state ≠ .up := by simp [mismatch]
  have counted := (state_seenGood arr (s.port p)).trans mismatch
  have record : outcomeRec p arr s = { seenGood arr (s.port p) with partner := some l } := by
    unfold outcomeRec
    rw [link, (heardRec_mismatch counted).2]
    exact if_neg (by simp [disagrees])
  have kept := receive_kept good (.inr (.inr mismatch)) (.inl down)
  obtain ⟨t, ht, ⟨e, d, f, here⟩, -⟩ := event_kept hr (by simp [mismatch]) kept
  obtain ⟨_, _, _, _, _, _, _, _, _, seen⟩ := seenGood_record arr (s.port p)
  rw [record, seen] at here
  refine ⟨t, ht, (congrArg PortRec.state here).trans mismatch, congrArg PortRec.partner here,
    congrArg PortRec.counters here, fun other => ?_⟩
  have effect := kept.trans (frameHeard_other (sightsSelf_none link other))
  rw [(frameOutcome_mismatch mismatch).2 l link, record,
    commit_seen_same (x := { seenGood arr (s.port p) with partner := some l }) hs down (state_seenGood _ _)
      (flags_seenGood _ _)] at effect
  exact happened_setPort hr hs ht effect
    ((portUsable_down (mt (state_seenGood _ _).symm.trans down)).trans (usable_down down).symm)

theorem mismatch_agrees {l : LinkField} (hr : s.inReset = false) (hs : Settled s) (good : passesCheck arr = true)
    (link : arr.frame.link = some l) (mismatch : (s.port p).state = .mismatch)
    (agrees : offerAgrees s l.offer = true) :
    ∃ t, exec (.portFrameReceive p arr) s = .next t ∧ PortEventFrame s t ∧
      (t.port p).state = .offer ∧ (t.port p).partner = some l ∧ (t.port p).offerT = some (500 * 96) ∧
      (t.port p).agreeRun = firstRun l ∧ (t.port p).offerSeen = true ∧
      (t.port p).counters = { (s.port p).counters with good := bump (s.port p).counters.good } ∧
      (t.port p).relock = (s.port p).relock ∧
      (l.sender ≠ s.start.id → Happened [.portChange p .offer
        { (s.port p).flags with fixed := false, remoteFault := false } (s.port p).light .agree] s
        (s.setPort p (t.port p)) t) := by
  have down : (s.port p).state ≠ .up := by simp [mismatch]
  have counted := (state_seenGood arr (s.port p)).trans mismatch
  have record : outcomeRec p arr s = reOffered l (seenGood arr (s.port p)) := by
    unfold outcomeRec
    rw [link, (heardRec_mismatch counted).2]
    exact if_pos agrees
  unfold reOffered at record
  rw [enterOffer_down (by simp [counted])] at record
  have kept := receive_kept good (.inr (.inr mismatch)) (.inl down)
  obtain ⟨t, ht, ⟨e, d, f, here⟩, frame, -⟩ := event_kept hr (by simp [mismatch]) kept
  obtain ⟨_, _, _, _, _, _, _, _, _, seen⟩ := seenGood_record arr (s.port p)
  rw [seen] at record
  rw [record] at here
  refine ⟨t, ht, frame, congrArg PortRec.state here, congrArg PortRec.partner here, congrArg PortRec.offerT here,
    congrArg PortRec.agreeRun here, congrArg PortRec.offerSeen here, congrArg PortRec.counters here,
    (congrArg PortRec.relock here).trans rfl, fun other => ?_⟩
  have effect := kept.trans (frameHeard_other (sightsSelf_none link other))
  rw [(frameOutcome_mismatch mismatch).2 l link, record, if_pos agrees,
    commit_seen_moved hs down (by simp [offered]) (by simp [mismatch, offered]) rfl] at effect
  exact happened_portChange hr hs ht effect ((portUsable_down (by simp [offered])).trans (usable_down down).symm)

/-! ### A port that is UP (R29 to R31, R35) -/

/-- A frame with an offer that ends UP is not handed over; a usable port is lost by it (R52). -/
theorem up_leaves {l : LinkField} {x : PortRec} (hr : s.inReset = false) (good : passesCheck arr = true)
    (link : arr.frame.link = some l) (up : (s.port p).state = .up) (record : outcomeRec p arr s = x)
    (now : x.state ≠ .up) : ∃ t, exec (.portFrameReceive p arr) s = .next t ∧ HoldsRec x (t.port p) ∧
      PortEventFrame s t ∧ (s.usable p = true → s.usable (portOther p) = true →
        t.wrapAt p = .loss ∧ t.wrapAt (portOther p) = .none) := by
  obtain ⟨t, ht, here, frame, wraps⟩ := event_kept hr (by simp [up])
    (receive_kept good (.inr (.inl up)) (.inr (.inl (by rw [record]; exact now))))
  refine ⟨t, ht, record ▸ here, frame, fun usable other => ?_⟩
  rw [wraps, wraps]
  exact frameOutcome_lost (.inr ⟨l, link⟩) usable other (by rw [record]; exact portUsable_down now)

theorem up_renews {l : LinkField} (hr : s.inReset = false) (good : passesCheck arr = true)
    (link : arr.frame.link = some l) (up : (s.port p).state = .up)
    (h : (s.port p).flags.fixed = true ∨ sameSender (s.port p) l = false) (agrees : offerAgrees s l.offer = true) :
    ∃ t, exec (.portFrameReceive p arr) s = .next t ∧
      (PortEventFrame s t ∧
        (t.port p).counters = { (s.port p).counters with good := bump (s.port p).counters.good } ∧
        (t.port p).linkDelay = none ∧ (t.port p).relock = some (2000 * 96) ∧
        (t.port p).flags = { (s.port p).flags with fixed := false, remoteFault := false } ∧
        (s.usable p = true → s.usable (portOther p) = true →
          t.wrapAt p = .loss ∧ t.wrapAt (portOther p) = .none)) ∧
      (t.port p).state = .offer ∧ (t.port p).partner = some l ∧ (t.port p).offerT = some (500 * 96) ∧
      (t.port p).agreeRun = firstRun l ∧ (t.port p).offerSeen = true := by
  have counted := (state_seenGood arr (s.port p)).trans up
  have record : outcomeRec p arr s = reOffered l (seenGood arr (s.port p)) := by
    unfold outcomeRec
    rw [link]
    exact heardRec_up_renews counted (by rw [flags_seenGood, sameSender_seenGood]; exact h) agrees
  unfold reOffered at record
  rw [enterOffer_up counted] at record
  obtain ⟨_, _, _, _, _, _, _, _, _, seen⟩ := seenGood_record arr (s.port p)
  rw [seen] at record
  obtain ⟨t, ht, ⟨e, d, f, here⟩, frame, wraps⟩ := up_leaves hr good link up record (by simp [offered])
  exact ⟨t, ht, ⟨frame, congrArg PortRec.counters here, congrArg PortRec.linkDelay here, congrArg PortRec.relock here,
    congrArg PortRec.flags here, wraps⟩, congrArg PortRec.state here, congrArg PortRec.partner here,
    congrArg PortRec.offerT here, congrArg PortRec.agreeRun here, congrArg PortRec.offerSeen here⟩

theorem up_disagrees {l : LinkField} (hr : s.inReset = false) (good : passesCheck arr = true)
    (link : arr.frame.link = some l) (up : (s.port p).state = .up) (disagrees : offerAgrees s l.offer = false) :
    ∃ t, exec (.portFrameReceive p arr) s = .next t ∧
      (PortEventFrame s t ∧
        (t.port p).counters = { (s.port p).counters with good := bump (s.port p).counters.good } ∧
        (t.port p).linkDelay = none ∧ (t.port p).relock = some (2000 * 96) ∧
        (t.port p).flags = { (s.port p).flags with fixed := false, remoteFault := false } ∧
        (s.usable p = true → s.usable (portOther p) = true →
          t.wrapAt p = .loss ∧ t.wrapAt (portOther p) = .none)) ∧
      (t.port p).state = .mismatch ∧ (t.port p).partner = some l ∧ (t.port p).offerT = none := by
  have counted := (state_seenGood arr (s.port p)).trans up
  have record : ∃ b, outcomeRec p arr s = { enterMismatch l (seenGood arr (s.port p)) with offerSeen := b } := by
    unfold outcomeRec
    rw [link]
    exact heardRec_up_disagrees counted disagrees
  obtain ⟨b, record⟩ := record
  rw [enterMismatch_up counted] at record
  obtain ⟨_, _, _, _, _, _, _, _, _, seen⟩ := seenGood_record arr (s.port p)
  rw [seen] at record
  obtain ⟨t, ht, ⟨e, d, f, here⟩, frame, wraps⟩ := up_leaves hr good link up record (by simp)
  exact ⟨t, ht, ⟨frame, congrArg PortRec.counters here, congrArg PortRec.linkDelay here, congrArg PortRec.relock here,
    congrArg PortRec.flags here, wraps⟩, congrArg PortRec.state here, congrArg PortRec.partner here,
    congrArg PortRec.offerT here⟩

theorem up_heard {l : LinkField} (hr : s.inReset = false) (good : passesCheck arr = true)
    (link : arr.frame.link = some l) (up : (s.port p).state = .up) (fixed : (s.port p).flags.fixed = false)
    (agrees : offerAgrees s l.offer = true) (same : sameSender (s.port p) l = true)
    (hear : l.offer.hearYou = true) :
    ∃ t, exec (.portFrameReceive p arr) s = .next t ∧ (t.port p).state = .up ∧
      (t.port p).flags = { (s.port p).flags with remoteFault := false } ∧ (t.port p).partner = some l ∧
      (t.port p).clearRun = 0 ∧
      (t.port p).counters = { (s.port p).counters with good := bump (s.port p).counters.good } ∧
      (arr.frame.slots = none → PortEventFrame s t ∧
        (s.usable p = false → s.wrapAt p = .loss → t.wrapAt p = .planned (some l.sender))) := by
  have counted := (state_seenGood arr (s.port p)).trans up
  have record : outcomeRec p arr s = { seenGood arr (s.port p) with
      partner := some l, clearRun := 0
      flags := { (seenGood arr (s.port p)).flags with remoteFault := false } } := by
    unfold outcomeRec
    rw [link]
    exact heardRec_up_heard counted (by rw [flags_seenGood]; exact fixed) agrees
      (by rw [sameSender_seenGood]; exact same) hear
  obtain ⟨_, _, _, _, _, _, _, _, _, seen⟩ := seenGood_record arr (s.port p)
  rw [seen] at record
  obtain ⟨t, ht, ⟨e, d, f, here⟩⟩ := event_record (p := p) hr good (by simp [up])
  rw [record] at here
  refine ⟨t, ht, (congrArg PortRec.state here).trans up, congrArg PortRec.flags here, congrArg PortRec.partner here,
    congrArg PortRec.clearRun here, congrArg PortRec.counters here, fun unslotted => ?_⟩
  obtain ⟨t', ht', -, frame, wraps⟩ := event_kept hr (by simp [up])
    (receive_kept good (.inr (.inl up)) (.inr (.inr unslotted)))
  cases ht.symm.trans ht'
  refine ⟨frame, fun unusable lost => (wraps p).trans ?_⟩
  exact frameOutcome_regained up fixed unusable lost (by rw [record]; exact up) (by rw [record]) (by rw [record])

/-! ### The hear-you-clear run (R31) -/

/-- A frame below the limit of the run. -/
theorem up_clear (hr : s.inReset = false) (good : passesCheck arr = true) (up : (s.port p).state = .up)
    (fixed : (s.port p).flags.fixed = false) (run : (s.port p).clearRun + 1 < 48)
    (h : HearYouClear s (seenGood arr (s.port p)) arr.frame.link) :
    ∃ t, exec (.portFrameReceive p arr) s = .next t ∧ (t.port p).state = .up ∧
      (t.port p).flags = (s.port p).flags ∧ (t.port p).partner = (s.port p).partner ∧
      (t.port p).clearRun = (s.port p).clearRun + 1 ∧
      (t.port p).counters = { (s.port p).counters with good := bump (s.port p).counters.good } := by
  have counted := (state_seenGood arr (s.port p)).trans up
  have record : outcomeRec p arr s = hearClear (seenGood arr (s.port p)) :=
    heardRec_up_clear counted (by rw [flags_seenGood]; exact fixed) h
  rw [hearClear_short (by rw [clearRun_seenGood]; exact run)] at record
  obtain ⟨_, _, _, _, _, _, _, _, _, seen⟩ := seenGood_record arr (s.port p)
  rw [seen] at record
  obtain ⟨t, ht, ⟨e, d, f, here⟩⟩ := event_record (p := p) hr good (by simp [up])
  refine ⟨t, ht, ?_⟩
  rw [here, record]
  exact ⟨up, rfl, rfl, rfl, rfl⟩

/-- A blank link field at a FIXED port. -/
theorem up_fixed_blank (hr : s.inReset = false) (good : passesCheck arr = true) (link : arr.frame.link = none)
    (up : (s.port p).state = .up) (fixed : (s.port p).flags.fixed = true) :
    ∃ t, exec (.portFrameReceive p arr) s = .next t ∧ (t.port p).state = .up ∧
      (t.port p).flags = (s.port p).flags ∧ (t.port p).partner = (s.port p).partner ∧
      (t.port p).counters = { (s.port p).counters with good := bump (s.port p).counters.good } := by
  have record : outcomeRec p arr s = seenGood arr (s.port p) := by
    unfold outcomeRec
    rw [link]
    exact (heardRec_fixed ((state_seenGood _ _).trans up) (by rw [flags_seenGood]; exact fixed)).1
  obtain ⟨_, _, _, _, _, _, _, _, _, seen⟩ := seenGood_record arr (s.port p)
  rw [seen] at record
  obtain ⟨t, ht, ⟨e, d, f, here⟩⟩ := event_record (p := p) hr good (by simp [up])
  refine ⟨t, ht, ?_⟩
  rw [here, record]
  exact ⟨up, rfl, rfl, rfl⟩

/-- The 48th frame: a port of which it sets REMOTE_FAULT is lost by it, so a loop frame goes no further (R31, R52). -/
theorem remoteFault_set (hr : s.inReset = false) (good : passesCheck arr = true) (up : (s.port p).state = .up)
    (fixed : (s.port p).flags.fixed = false) (clear : (s.port p).flags.remoteFault = false)
    (run : 48 ≤ (s.port p).clearRun + 1) (h : HearYouClear s (seenGood arr (s.port p)) arr.frame.link)
    (other : sightsSelf s arr.frame.link = false)
    (handed : arr.frame.slots = none ∨ s.usable (portOther p) = true) :
    ∃ t, exec (.remoteFaultSet p arr) s = .next t ∧ (t.port p).state = .up ∧
      (t.port p).flags = { (s.port p).flags with remoteFault := true } ∧
      (t.port p).partner = (s.port p).partner ∧
      (t.port p).counters = { (s.port p).counters with good := bump (s.port p).counters.good } ∧
      t.usable p = false ∧ PortEventFrame s t ∧
      (s.usable (portOther p) = true → t.wrapAt p = .loss ∧ t.wrapAt (portOther p) = .none) := by
  have counted := (state_seenGood arr (s.port p)).trans up
  have record : outcomeRec p arr s = hearClear (seenGood arr (s.port p)) :=
    heardRec_up_clear counted (by rw [flags_seenGood]; exact fixed) h
  rw [hearClear_reached (by rw [clearRun_seenGood]; exact run)] at record
  obtain ⟨_, _, _, _, _, _, _, _, _, seen⟩ := seenGood_record arr (s.port p)
  rw [seen] at record
  have usable : s.usable p = true := by simp [State.usable, portUsable, up, clear]
  have lost (k : s.usable (portOther p) = true) := frameOutcome_lost (arr := arr) (.inl fixed) usable k
    (by rw [record]; simp [portUsable])
  have kept : receive p arr s = frameHeard p arr s := by
    rcases handed with slots | k
    · exact receive_kept good (.inr (.inl up)) (.inr (.inr slots))
    · obtain ⟨loss, released⟩ := lost k
      rw [receive_good good (by simp [up]), frameHeard_other other, dispatch_lost loss released]
      simp only [ite_self]
  have sets : faultSetAt p s (receive p arr s) = true := by
    have flags := (port_receive (p := p) (s := s) good (by simp [up])).flags
    rw [record] at flags
    unfold faultSetAt
    rw [flags, clear]
    rfl
  obtain ⟨t, ht, ⟨e, d, f, here⟩, frame, wraps⟩ := event_kept hr (by simp [up]) kept
  rw [record] at here
  refine ⟨t, (done_onlyIf sets).trans ht, (congrArg PortRec.state here).trans up, congrArg PortRec.flags here,
    (congrArg PortRec.partner here).trans rfl, congrArg PortRec.counters here, ?_, frame,
    fun k => by rw [wraps, wraps]; exact lost k⟩
  unfold State.usable
  rw [here]
  simp [portUsable]

/-- The frame's offer has hear-you clear and is an agreeing one of the held partner. -/
theorem hearYouClear_offer {l k : LinkField} (link : arr.frame.link = some l) (partner : (s.port p).partner = some k)
    (sender : l.sender = k.sender) (port : l.port = k.port) (hear : l.offer.hearYou = false)
    (agrees : l.offer.loopName = s.start.loopName ∧ l.offer.rate = s.start.rate) :
    HearYouClear s (seenGood arr (s.port p)) arr.frame.link :=
  .inr ⟨l, link, (offerAgrees_iff s _).2 agrees,
    (sameSender_seenGood arr _ l).trans ((sameSender_iff _ _).2 ⟨k, partner, sender.symm, port.symm⟩), hear⟩

end Sys2Proof.Machine
end

section
/-! PROOFS. O25 by its four rows. -/

namespace Sys2Proof.Machine

open Sys2Proof

/-- Settles O25: JOINED, REMOTE_FAULT_SET, and PORT_FRAME_RECEIVE by the port's state. -/
theorem partnerHeard : Obligations.PartnerHeard := by
  refine ⟨fun p arr l s hr hs check link name rate => ?_, fun p arr s hr hs h => joined_idle hr hs ?_,
    fun p arr s hr hs => ⟨fun check up fixed clear run frame handed => ?_, fun h => ?_⟩,
    fun p arr s hr hs check => ?_⟩
  · have good := passes_good check
    have agrees := (offerAgrees_iff s l.offer).2 ⟨name, rate⟩
    refine ⟨fun _ offer hear same run c hc => ?_, fun own free offer hear same run c hc => ?_,
      fun h => joined_idle hr hs ?_⟩
    · exact joins hr good link offer agrees ((nextRun_third _ _).2 ⟨hear, same, run⟩) hc
    · exact joins_own hr good link own free offer agrees ((nextRun_third _ _).2 ⟨hear, same, run⟩) hc
    · rintro ⟨offer, -, m, found, -, third⟩
      cases link.symm.trans found
      obtain ⟨hear, same, run⟩ := (nextRun_third _ _).1 third
      rcases h with h | h | h | h
      · exact h offer
      · exact absurd (h.symm.trans hear) (by simp)
      · exact h same
      · exact absurd run (Nat.not_le.2 h)
  · rintro ⟨-, good, m, found, agrees, -⟩
    obtain ⟨name, rate⟩ := (offerAgrees_iff s m.offer).1 agrees
    rcases h with h | h | ⟨l, link, h⟩
    · exact h ((passesCheck_iff arr).1 good)
    · rw [h] at found
      cases found
    · cases link.symm.trans found
      exact h.elim (fun h => h name) (fun h => h rate)
  · rcases frame with blank | ⟨l, k, link, partner, sender, port, other, hear, agrees⟩
    · exact remoteFault_set hr (passes_good check) up fixed clear run (.inl blank) (by rw [blank]; rfl) handed
    · exact remoteFault_set hr (passes_good check) up fixed clear run
        (hearYouClear_offer link partner sender port hear agrees) (sightsSelf_none link other) handed
  · refine event_nothing hr hs (onlyIf_idle (Bool.eq_false_iff.2 fun sets => ?_))
    obtain ⟨good, up, fixed, clear, run, heard⟩ := faultSetAt_clear sets
    rcases h with h | h | h | h | h | ⟨l, link, h⟩
    · exact h ((passesCheck_iff arr).1 good)
    · exact h up
    · exact absurd (fixed.symm.trans h) (by simp)
    · exact absurd (clear.symm.trans h) (by simp)
    · exact absurd run (Nat.not_le.2 h)
    · rcases heard with blank | ⟨m, found, agrees, same, hear⟩
      · rw [blank] at link
        cases link
      · cases link.symm.trans found
        obtain ⟨name, rate⟩ := (offerAgrees_iff s l.offer).1 agrees
        rw [sameSender_seenGood] at same
        obtain ⟨k, partner, sender, port⟩ := (sameSender_iff _ _).1 same
        rcases h with h | h | h | h
        · exact absurd (hear.symm.trans h) (by simp)
        · exact h name
        · exact h rate
        · exact (h k partner).elim (fun h => h sender.symm) (fun h => h port.symm)
  · have good := passes_good check
    have agree_iff (l : LinkField) := offerAgrees_iff s l.offer
    have disagree {l : LinkField} (h : ¬ (l.offer.loopName = s.start.loopName ∧ l.offer.rate = s.start.rate)) :
        offerAgrees s l.offer = false := Bool.eq_false_iff.2 (mt (agree_iff l).1 h)
    refine ⟨fun link => ⟨blank_heard hr hs good link, up_fixed_blank hr good link⟩, fun l link => ⟨?_, ?_, ?_, ?_, ?_, ?_, ?_⟩,
      fun up fixed run frame => ?_⟩
    · exact fun offer h => offer_disagrees hr hs good link offer (disagree h)
    · exact fun offer h run => offer_waits hr hs good link offer ((agree_iff l).2 h) run
    · exact fun up h agrees => up_renews hr good link up
        (h.imp_right fun other => Bool.eq_false_iff.2 (mt (sameSender_iff _ _).1 other)) ((agree_iff l).2 agrees)
    · exact fun up h => up_disagrees hr good link up (disagree h)
    · exact fun up fixed agrees same hear =>
        up_heard hr good link up fixed ((agree_iff l).2 agrees) ((sameSender_iff _ _).2 same) hear
    · exact fun mismatch h => mismatch_disagrees hr hs good link mismatch (disagree h)
    · exact fun mismatch h => mismatch_agrees hr hs good link mismatch ((agree_iff l).2 h)
    · rcases frame with blank | ⟨l, k, link, partner, sender, port, hear, agrees⟩
      · exact up_clear hr good up fixed run (.inl blank)
      · exact up_clear hr good up fixed run (hearYouClear_offer link partner sender port hear agrees)

end Sys2Proof.Machine
end
